-- ==== Sys2Proof/Word.lean ====
section
/-! DEFINITION. Sys2Proof/Word.lean: the byte and the sparse table the whole model is written over. -/

namespace Sys2Proof

/-- One byte as the block stores it. -/
abbrev Byte := BitVec 8

/-- A sparse table: entries (index, value) in strictly rising order of index; an index not listed has no value. -/
abbrev Tab (α : Type) := List (Nat × α)

end Sys2Proof
end

