-- ==== Sys2Proof/Syntax.lean ====
section
/-! DEFINITION. Sys2Proof/Syntax.lean: the commands and events of spec/opcode_table.json as data.
Rows 0 to 221 are command packets: a header `Hdr` (R65, R87) and the parameters of their command table (R68), in the
order of its Parameters column. The other rows are register writes of the host and events; each carries the instant at
which it happens, in picoseconds (log 1), and what the outside world supplies with it. -/

namespace Sys2Proof

/-- The transport and source a command packet arrives over (R54, R55, R59, R106). -/
inductive Via where
  /-- PCIe host link `link`, queue pair `pair`; the 32 bytes of the submission entry (R59). -/
  | pcie (link pair : Nat) (entry : List Nat)
  /-- UDP on ETH[0], ETH[1] (`port` 0, 1) or the management port (2), over IPv6 or IPv4, from an address and UDP port. -/
  | udp (port : Nat) (v6 : Bool) (addr uport : Nat)
  deriving DecidableEq, Repr

/-- The 16-byte apply-at block of a command packet (R87), with its two reserved fields. -/
structure AtBlk where
  key : Nat
  rsv1 : Nat
  source : Nat
  rsv2 : Nat
  value : Int
  deriving DecidableEq, Repr

/-- What a command packet carries before its parameters (R65, R87), with the instant it reaches the sequencer (R54).
MAGIC is right and OPCODE is the row's own: the row OPCODE_NOT_DEFINED takes every other packet. `rest` is header bytes 20
to 27, which are 0 in a command, and `gaps` the bytes of the parameter area as received, by offset, that are other than
its block and fields spell: bytes between fields and beyond the last, which are 0 (R68; log 69). -/
structure Hdr where
  t : Nat
  via : Via
  recvLen : Nat
  version : Nat
  flags : Nat
  session : Nat
  seq : Nat
  tag : Nat
  paramLen : Nat
  rest : Nat
  crc : Nat
  gaps : List (Nat × Nat)
  ats : Option AtBlk
  deriving DecidableEq, Repr

/-- What a port's physical lanes received around one packet (R117, R120): the levels of each lane in order, −1 and 1 at NRZ, −3 to 3 at
PAM4, from a codeword boundary with FEC on, and the bits of the message parts before the first whole block. The first block of a lane
fills its descrambler (R122). -/
structure Wire where
  skip : Nat
  lanes : List (List Int)
  deriving DecidableEq, Repr

/-- What a physical lane's receiver sees while it acquires or holds its lock (R124): n codewords correctable or not, n blocks of a header,
a marker's arrival in ps and payload as received. -/
inductive Heard where
  | codewords (ok : Bool) (n : Nat)
  | blocks (header n : Nat)
  | marker (t : Nat) (bytes : List Nat)
  deriving DecidableEq, Repr

/-- A Rathal packet as the port receives it (R129 to R131): its header fields, check words, and whether it was cut short
by a START block or touched an uncorrectable codeword. -/
structure Pkt where
  port : Nat
  stream : Nat
  fmt : Nat
  length : Nat
  index : Nat
  hcrc : Nat
  pcrc : Nat
  cut : Bool
  uncorr : Bool
  data : List Nat
  /-- Where given, the packet is what the port's receivers make of its lanes, and the fields above but the port say nothing (R120 to R129). -/
  wire : Option Wire := none
  deriving DecidableEq, Repr

/-- What a bring-up found (R149, R684): what each physical lane's receiver saw, the 16 echoes' RTT and TURN in order, the head registers
HD_MAGIC to HD_FORMATS, the receiver's temperature and coefficients, and the transmit settings that it asked of the head, TX_EQ fields
(R134, R139). -/
structure BringUp where
  heard : List (List Heard)
  echoes : List (Nat × Nat)
  head : List Nat
  temp : Int
  coefs : List (List Int)
  txEq : List (List Nat) := []
  deriving DecidableEq, Repr

/-- What a data lane's receiver counted and measured over the last second (R153, R161). -/
structure LaneQ where
  cwCorr : Nat
  cwUncorr : Nat
  symCorr : Nat
  symTotal : Nat
  hdrErr : Nat
  blocks : Nat
  snr : Nat
  eyeH : Nat
  eyeW : Nat
  temp : Int
  deriving DecidableEq, Repr

/-- A serial encoder frame (R210, R211): whether a start bit came in time, the position word, the error and warning bits
and the CRC-6 as received (BiSS-C). -/
structure SerialFrame where
  started : Bool
  word : Nat
  err : Bool
  warn : Bool
  crc : Nat
  deriving DecidableEq, Repr

/-- A PTP message received (R237) on an interface over a transport, times in ns; kinds: 0 Sync, 1 Follow_Up, 2 Delay_Req, 3 Delay_Resp,
4 Announce, 5 Pdelay_Req, 6 Pdelay_Resp, 7 Pdelay_Resp_Follow_Up. `ts` is its origin or receive timestamp, `corr` its correction, `sender`
and `req` its source and requesting port identities; an Announce names the grandmaster and its clock data. -/
structure PtpMsg where
  kind : Nat
  iface : Nat
  transport : Nat
  domain : Nat
  sender : List Nat
  req : List Nat
  seq : Nat
  twoStep : Bool
  ts : Nat
  corr : Int
  identity : List Nat
  prio1 : Nat
  cls : Nat
  accuracy : Nat
  variance : Nat
  prio2 : Nat
  steps : Nat
  utc : Int
  deriving DecidableEq, Repr


/-- What the encoder made of one CTU (R432, R444): its bits (a slice's first CTU counts the header, its last the trailing bits), QP, CTYPE, SAD and list-0 vector; H.265 leaves these to the
encoder, and the manual does not fix them (log 40). -/
structure CtuOut where
  bits : Nat
  qp : Int
  ctype : Nat
  sad : Nat
  mvx : Int
  mvy : Int
  deriving DecidableEq, Repr

/-- Poisoned DRAM data met in analysing a line (R646): the backlog line itself, the components whose feature record was
poisoned, and the tile history. -/
structure ElxPoison where
  line : Bool
  comps : List Nat
  tiles : Bool
  deriving DecidableEq, Repr

/-- What the encoder made of one slice (log 40): the bits of its NAL unit after slice_type, what it chose for each CTU, the POCs of the two reference
picture lists, whether the picture is a reference of others, the bits that the whole picture would take at QP_x, QP_x + 1 and so on (R437), and, for a picture
from host memory, the luma rows of the slice that the host's memory gave. -/
structure EncSlice where
  bits : List Bool
  ctus : List CtuOut
  l0 : List Int
  l1 : List Int
  ref : Bool
  need : List Nat
  luma : List (List Nat)
  deriving DecidableEq, Repr

/-- A decoded picture as H.265 gives it (R446 to R448, log 40). -/
structure DecPic where
  poc : Int
  w : Nat
  h : Nat
  depth : Nat
  irap : Bool
  concealed : Bool
  hashErr : Bool
  ctus : Nat
  bytes : List Nat
  deriving DecidableEq, Repr

/-- The sequence parameter set of a coded picture (R424, R425, R447): general_profile_idc, general_level_idc, chroma_format_idc, bit
depths, coded size, conformance window (x, y, width, height), field_seq_flag, and the CTU size; `tools` names the coding tools in use: 0
tiles, 1 wavefronts, 2 dependent slices, 3 PCM, 4 long-term references. -/
structure DecSeq where
  profile : Nat
  level : Nat
  chroma : Nat
  depthY : Nat
  depthC : Nat
  w : Nat
  h : Nat
  crop : List Nat
  field : Bool
  ctb : Nat
  tools : List Nat
  deriving DecidableEq, Repr

/-- The start of a coded picture: its sequence where its parameter sets were received, its POC, whether it is an IRAP or a RASL picture, whether it is
to be output, and the POCs that its reference picture set names (R445 to R447). -/
structure DecHead where
  seq : Option DecSeq
  poc : Int
  irap : Bool
  rasl : Bool
  shown : Bool
  refs : List Int
  deriving DecidableEq, Repr

/-- A slice segment: the picture that begins with it, if one does; whether its parameter sets were received; its first CTU and its number of CTUs, of
which the first `good` have no error; the POCs that it predicts from; and the CTUs' samples by address: luma, Cb, Cr (log 40). -/
structure DecSeg where
  head : Option DecHead
  known : Bool
  first : Nat
  count : Nat
  good : Nat
  uses : List Int
  px : List (Nat × List Nat)
  deriving DecidableEq, Repr

/-- What the syntax and the decoding process of H.265 gave for one slice (log 40): bytes of the input buffer consumed, the slice segment if there was
one, the picture's end with whether a hash SEI mismatched, and the POCs that are output then, in order. -/
structure DecSlice where
  used : Nat
  seg : Option DecSeg
  ends : Option Bool
  outs : List Int
  deriving DecidableEq, Repr
/-- What a DIMM's mode registers ask of refresh management (R525): whether it is required, the activates of a bank after which an RFM command is due,
the activates that a refresh of the bank takes off its count, and whether the devices support directed refresh management (R524). -/
structure RfmMode where
  required : Bool
  limit : Nat
  perRefresh : Nat
  directed : Bool
  deriving DecidableEq, Repr

/-- What the controller finds on a DRAM channel at a start (R509, R516): per DIMM the fields of its SPD organisation (R549:
capacity in GiB, width code of its SPD, ranks, density code; log 227), whether R507 supports its DIMMs apart from capacity, ranks and number, the
highest rate every DIMM's SPD supports, and the quality figure (0: it does not train) and DIMM temperature (s8.8) of its training. -/
structure DramFind where
  ch : Nat
  dimms : List (Nat × Nat × Nat × Nat)
  supported : Bool
  maxRate : Nat
  qf : Nat
  temp : Nat
  rfm : List RfmMode := []
  deriving DecidableEq, Repr

/-- A row that a DRAM access activates (R524, R525): its channel, DIMM, rank, bank and row (log 223). -/
structure RowAct where
  ch : Nat
  dimm : Nat
  rank : Nat
  bank : Nat
  row : Nat
  deriving DecidableEq, Repr

/-- What an ECHO brings beside its TAG and turn-around: the RTT that the device measured, and the message's check word (R134, R684). -/
structure EchoRx where
  rtt : Nat
  crc : Nat
  deriving DecidableEq, Repr

/-- The lane count of a LANE_ACK, and the message's check word (R134, R145). -/
structure AckRx where
  lanes : Nat
  crc : Nat
  deriving DecidableEq, Repr

/-- How an UP port fails: its forwarded clock is lost, or what its lanes' receivers see (R124, R151). -/
structure LinkLoss where
  clock : Bool
  heard : List (List Heard)
  deriving DecidableEq, Repr

/-- A change of an axis's Z input (R212, R229). -/
structure ZChange where
  axis : Nat
  rising : Bool
  deriving DecidableEq, Repr

/-- What a DMA transfer brings and which DRAM rows it activates (R525, R540). -/
structure DmaMoved where
  data : List Nat
  acts : List RowAct
  deriving DecidableEq, Repr

/-- What the boot ROM finds: whether the copy of a staged image is right, and whether PCIE_REFCLK has edges (R603, R678). -/
structure RomFinds where
  copyOk : Bool
  refclk : Bool
  deriving DecidableEq, Repr

/-- An error that a DRAM read met (R518 to R520, R522): the device address, rank and bank as logged, and the positions 0 to 19 of the devices it touches. -/
structure EccFound where
  addr : Nat
  rank : Nat
  bank : Nat
  devs : List Nat
  deriving DecidableEq, Repr


/-- What the planner measured in forming a plan (R627): for each ENG clock in MHz, and for the rails VDD_MEDIA and VDD_CORE, the
setpoints in mV it stepped through with the WM of the rail's domains in 0.1 %. -/
structure PlanScan where
  eng : List (Nat × List (Nat × Int))
  media : List (Nat × Int)
  core : List (Nat × Int)
  deriving DecidableEq, Repr

/-- Parameters of SESSION_OPEN (0x0001), R96. -/
structure PSessionOpen where
  idle : Nat
  flags : Nat
  deriving DecidableEq, Repr

/-- Parameters of CLAIM (0x0004), R99. -/
structure PClaim where
  lease : Nat
  deriving DecidableEq, Repr

/-- Parameters of TRANSFER (0x0006), R102. -/
structure PTransfer where
  target : Nat
  lease : Nat
  deriving DecidableEq, Repr

/-- Parameters of SESSION_LIST (0x0008), R681. -/
structure PSessionList where
  first : Nat
  count : Nat
  deriving DecidableEq, Repr

/-- Parameters of QUEUE_CREATE (0x0009), R111. -/
structure PQueueCreate where
  link : Nat
  pair : Nat
  entries : Nat
  sq : Nat
  cq : Nat
  area : Nat
  deriving DecidableEq, Repr

/-- Parameters of QUEUE_DELETE (0x000A), R111. -/
structure PQueueDelete where
  link : Nat
  pair : Nat
  deriving DecidableEq, Repr

/-- Parameters of NOTIFY_SUBSCRIBE (0x000C), R105. -/
structure PNotifySubscribe where
  mask : Nat
  deriving DecidableEq, Repr

/-- Parameters of CONFIG_SAVE (0x0103), R616. -/
structure PConfigSave where
  slot : Nat
  deriving DecidableEq, Repr

/-- Parameters of CONFIG_LOAD (0x0104), R616. -/
structure PConfigLoad where
  slot : Nat
  deriving DecidableEq, Repr

/-- Parameters of STOP (0x0109), R79. -/
structure PStop where
  limit : Nat
  deriving DecidableEq, Repr

/-- Parameters of APPLY_CANCEL (0x010C), R112. -/
structure PApplyCancel where
  ctag : Nat
  deriving DecidableEq, Repr

/-- Parameters of APPLY_LIST (0x010D), R681. -/
structure PApplyList where
  first : Nat
  count : Nat
  deriving DecidableEq, Repr

/-- Parameters of NET_CONFIG (0x010E), R111. -/
structure PNetConfig where
  iface : Nat
  ip4 : Nat
  pfx : Nat
  ip6 : List Nat
  port : Nat
  flags : Nat
  deriving DecidableEq, Repr

/-- Parameters of PORT_OPEN (0x0201), R164. -/
structure PPortOpen where
  port : Nat
  kind : Nat
  rate : Nat
  fec : Nat
  lanes : Nat
  deriving DecidableEq, Repr

/-- Parameters of PORT_CLOSE (0x0202), R686. -/
structure PPortClose where
  port : Nat
  deriving DecidableEq, Repr

/-- Parameters of STREAM_SET (0x0203), R133. -/
structure PStreamSet where
  port : Nat
  stream : Nat
  width : Nat
  fmt : Nat
  trig : Nat
  deriving DecidableEq, Repr

/-- Parameters of PORT_PROBE (0x0204), R149. -/
structure PPortProbe where
  port : Nat
  deriving DecidableEq, Repr

/-- Parameters of PORT_STATUS (0x0205), R164. -/
structure PPortStatus where
  port : Nat
  deriving DecidableEq, Repr

/-- Parameters of PORT_COUNTERS (0x0206), R164. -/
structure PPortCounters where
  port : Nat
  deriving DecidableEq, Repr

/-- Parameters of PORT_COUNTERS_CLEAR (0x0207), R164. -/
structure PPortCountersClear where
  port : Nat
  deriving DecidableEq, Repr

/-- Parameters of LANE_POWER (0x0208), R147. -/
structure PLanePower where
  port : Nat
  mode : Nat
  standbyMs : Nat
  dormantMs : Nat
  deriving DecidableEq, Repr

/-- Parameters of HEAD_REG_WRITE (0x0209), R138. -/
structure PHeadRegWrite where
  port : Nat
  addr : Nat
  data : Nat
  deriving DecidableEq, Repr

/-- Parameters of HEAD_REG_READ (0x020A), R138. -/
structure PHeadRegRead where
  port : Nat
  addr : Nat
  deriving DecidableEq, Repr

/-- Parameters of CAL_RUN (0x020B), R155. -/
structure PCalRun where
  port : Nat
  lanes : Nat
  deriving DecidableEq, Repr

/-- Parameters of CAL_POLICY (0x020C), R155. -/
structure PCalPolicy where
  tdelta : Nat
  period : Nat
  qfThr : Nat
  deriving DecidableEq, Repr

/-- Parameters of EYE_SCAN (0x020D), R165. -/
structure PEyeScan where
  port : Nat
  lane : Nat
  eye : Nat
  offset : Nat
  length : Nat
  deriving DecidableEq, Repr

/-- Parameters of LATENCY_MEASURE (0x020E), R684. -/
structure PLatencyMeasure where
  port : Nat
  deriving DecidableEq, Repr

/-- Parameters of LATENCY_TRIM (0x020F), R167. -/
structure PLatencyTrim where
  port : Nat
  trim : Int
  deriving DecidableEq, Repr

/-- Parameters of EXPOSURE_DELAY (0x0210), R142. -/
structure PExposureDelay where
  e : Nat
  deriving DecidableEq, Repr

/-- Parameters of FE_GEOMETRY (0x0301), R202. -/
structure PFeGeometry where
  width : Nat
  cdPitch : Nat
  mdPitch : Nat
  planes : Nat
  bands : Nat
  fmax : Nat
  mdMode : Nat
  stitchWait : Nat
  deriving DecidableEq, Repr

/-- Parameters of FE_STREAM_MAP (0x0302), R193. -/
structure PFeStreamMap where
  stream : Nat
  plane : Nat
  omd : Int
  cFirst : Nat
  cLast : Nat
  a : List Int
  deriving DecidableEq, Repr

/-- Parameters of FE_SEAM (0x0303), R196. -/
structure PFeSeam where
  seam : Nat
  left : Nat
  right : Nat
  s0 : Nat
  n : Nat
  deriving DecidableEq, Repr

/-- Parameters of FE_KERNEL (0x0304), R195. -/
structure PFeKernel where
  source : Nat
  table : List Int
  deriving DecidableEq, Repr

/-- Parameters of FE_COEF_LOAD (0x0305), R182. -/
structure PFeCoefLoad where
  stream : Nat
  bank : Nat
  kind : Nat
  first : Nat
  count : Nat
  data : List Int
  deriving DecidableEq, Repr

/-- Parameters of FE_BANK_SELECT (0x0306), R182. -/
structure PFeBankSelect where
  port : Nat
  streams : Nat
  bank : Nat
  deriving DecidableEq, Repr

/-- Parameters of FE_SHADING (0x0307), R181. -/
structure PFeShading where
  stream : Nat
  mode : Nat
  t : Nat
  k : Nat
  a : Nat
  lo : Nat
  hi : Nat
  deriving DecidableEq, Repr

/-- Parameters of FE_SETTING_LATENCY (0x0308), R183. -/
structure PFeSettingLatency where
  port : Nat
  entry : Nat
  enable : Nat
  addr : Nat
  m : Nat
  v : Nat
  lambda : Nat
  streams : Nat
  bank : Nat
  deriving DecidableEq, Repr

/-- Parameters of FE_META_KEY (0x0309), R184. -/
structure PFeMetaKey where
  port : Nat
  streams : Nat
  enable : Nat
  offset : Nat
  mask : Nat
  shift : Nat
  map : List Nat
  deriving DecidableEq, Repr

/-- Parameters of FE_STATUS (0x030A), R170. -/
structure PFeStatus where
  port : Nat
  deriving DecidableEq, Repr

/-- Parameters of FE_CAPTURE (0x030B), R206. -/
structure PFeCapture where
  stream : Nat
  stage : Nat
  offset : Nat
  length : Nat
  deriving DecidableEq, Repr

/-- Parameters of ENC_CONFIG (0x0401), R688. -/
structure PEncConfig where
  axis : Nat
  type : Nat
  filt : Nat
  scale : Nat
  invert : Nat
  nz : Nat
  wordBits : Nat
  gray : Nat
  clockKhz : Nat
  sampleNs : Nat
  lineDelayNs : Nat
  deriving DecidableEq, Repr

/-- Parameters of OBSERVER_SET (0x0402), R215. -/
structure PObserverSet where
  axis : Nat
  bw : Nat
  hyst : Nat
  startDist : Nat
  stopMs : Nat
  deriving DecidableEq, Repr

/-- Parameters of POS_ORIGIN (0x0403), R223. -/
structure PPosOrigin where
  axis : Nat
  md0 : Int
  mode : Nat
  latch : Nat
  deriving DecidableEq, Repr

/-- Parameters of LTG_CONFIG (0x0404), R220. -/
structure PLtgConfig where
  gen : Nat
  axis : Nat
  pitch : Nat
  phase : Int
  mode : Nat
  minInt : Nat
  deriving DecidableEq, Repr

/-- Parameters of LTG_ENABLE (0x0405), R220. -/
structure PLtgEnable where
  gen : Nat
  enable : Nat
  deriving DecidableEq, Repr

/-- Parameters of CMP_CONFIG (0x0406), R227. -/
structure PCmpConfig where
  ch : Nat
  axis : Nat
  mode : Nat
  base : Nat
  len : Nat
  pulse : Nat
  start : Int
  pitch : Nat
  count : Nat
  deriving DecidableEq, Repr

/-- Parameters of CMP_LIST_LOAD (0x0407), R225. -/
structure PCmpListLoad where
  ch : Nat
  first : Nat
  count : Nat
  data : List Nat
  deriving DecidableEq, Repr

/-- Parameters of CMP_ENABLE (0x0408), R228. -/
structure PCmpEnable where
  ch : Nat
  enable : Nat
  deriving DecidableEq, Repr

/-- Parameters of LATCH_CONFIG (0x0409), R229. -/
structure PLatchConfig where
  latch : Nat
  axis : Nat
  source : Nat
  edge : Nat
  deriving DecidableEq, Repr

/-- Parameters of LATCH_READ (0x040A), R230. -/
structure PLatchRead where
  latch : Nat
  max : Nat
  deriving DecidableEq, Repr

/-- Parameters of POS_STATUS (0x040B), R250. -/
structure PPosStatus where
  axis : Nat
  deriving DecidableEq, Repr

/-- Parameters of TIME_SOURCE (0x0501), R233. -/
structure PTimeSource where
  source : Nat
  deriving DecidableEq, Repr

/-- Parameters of TIME_SET (0x0502), R234. -/
structure PTimeSet where
  sec : Nat
  ns : Nat
  deriving DecidableEq, Repr

/-- Parameters of PTP_CONFIG (0x0505), R237. -/
structure PPtpConfig where
  iface : Nat
  profile : Nat
  transport : Nat
  oneStep : Nat
  domain : Nat
  syncLog : Int
  delayLog : Int
  annLog : Int
  prio1 : Nat
  prio2 : Nat
  slaveOnly : Nat
  deriving DecidableEq, Repr

/-- Parameters of PPS_CONFIG (0x0506), R241. -/
structure PPpsConfig where
  enable : Nat
  offset : Int
  width : Nat
  deriving DecidableEq, Repr

/-- Parameters of TTR_CONFIG (0x0507), R242. -/
structure PTtrConfig where
  trig : Nat
  enable : Nat
  sec : Nat
  ns : Nat
  period : Nat
  drive : Nat
  pulse : Nat
  deriving DecidableEq, Repr

/-- Parameters of TCP_CONFIG (0x0508), R244. -/
structure PTcpConfig where
  cap : Nat
  source : Nat
  edge : Nat
  deriving DecidableEq, Repr

/-- Parameters of TCP_READ (0x0509), R244. -/
structure PTcpRead where
  cap : Nat
  max : Nat
  deriving DecidableEq, Repr

/-- Parameters of GRAPH_NODE (0x0601), R256. -/
structure PGraphNode where
  slot : Nat
  node : Nat
  kernel : Nat
  inputs : List Nat
  par : List Int
  deriving DecidableEq, Repr

/-- Parameters of GRAPH_CLEAR (0x0602), R256. -/
structure PGraphClear where
  slot : Nat
  deriving DecidableEq, Repr

/-- Parameters of GRADE_RULES (0x0603), R276. -/
structure PGradeRules where
  slot : Nat
  first : Nat
  count : Nat
  data : List Nat
  deriving DecidableEq, Repr

/-- Parameters of MARK_TABLE (0x0604), R281. -/
structure PMarkTable where
  slot : Nat
  first : Nat
  count : Nat
  data : List Nat
  deriving DecidableEq, Repr

/-- Parameters of GRAPH_SELECT (0x0605), R258. -/
structure PGraphSelect where
  slot : Nat
  deriving DecidableEq, Repr

/-- Parameters of GRAPH_PARAM (0x0606), R259. -/
structure PGraphParam where
  slot : Nat
  node : Nat
  par : Nat
  value : Int
  deriving DecidableEq, Repr

/-- Parameters of VERIFY_GRAPH (0x0607), R256. -/
structure PVerifyGraph where
  slot : Nat
  cluster : Nat
  port : Nat
  deriving DecidableEq, Repr

/-- Parameters of GRAPH_BUDGET (0x0608), R284. -/
structure PGraphBudget where
  slot : Nat
  rate : Nat
  backlogMax : Nat
  deriving DecidableEq, Repr

/-- Parameters of GRAPH_COST (0x0609), R284. -/
structure PGraphCost where
  slot : Nat
  deriving DecidableEq, Repr

/-- Parameters of ELX_STATUS (0x060A), R288. -/
structure PElxStatus where
  cluster : Nat
  deriving DecidableEq, Repr

/-- Parameters of ELX_GATING (0x060C), R47. -/
structure PElxGating where
  idleMs : Nat
  deriving DecidableEq, Repr

/-- Parameters of MODEL_STAGE (0x0701), R306. -/
structure PModelStage where
  id : Nat
  total : Nat
  deriving DecidableEq, Repr

/-- Parameters of MODEL_WRITE (0x0702), R306. -/
structure PModelWrite where
  id : Nat
  offset : Nat
  length : Nat
  data : List Nat
  deriving DecidableEq, Repr

/-- Parameters of MODEL_COMMIT (0x0703), R307. -/
structure PModelCommit where
  id : Nat
  deriving DecidableEq, Repr

/-- Parameters of MODEL_ABORT (0x0704), R306. -/
structure PModelAbort where
  id : Nat
  deriving DecidableEq, Repr

/-- Parameters of MODEL_UNLOAD (0x0705), R314. -/
structure PModelUnload where
  id : Nat
  deriving DecidableEq, Repr

/-- Parameters of MODEL_SWAP (0x0706), R312. -/
structure PModelSwap where
  old : Nat
  new : Nat
  deriving DecidableEq, Repr

/-- Parameters of MODEL_LIST (0x0707), R315. -/
structure PModelList where
  first : Nat
  count : Nat
  deriving DecidableEq, Repr

/-- Parameters of MODEL_INFO (0x0708), R315. -/
structure PModelInfo where
  id : Nat
  deriving DecidableEq, Repr

/-- Parameters of MODEL_TEST (0x0709), R316. -/
structure PModelTest where
  id : Nat
  width : Nat
  height : Nat
  inputs : Nat
  types : Nat
  pixels : List Int
  deriving DecidableEq, Repr

/-- Parameters of RESULT_QUEUE_CONFIG (0x0801), R322. -/
structure PResultQueueConfig where
  queue : Nat
  entries : Nat
  policy : Nat
  extra : Nat
  deriving DecidableEq, Repr

/-- Parameters of TILE_POOL_CONFIG (0x0802), R334. -/
structure PTilePoolConfig where
  mib : Nat
  deriving DecidableEq, Repr

/-- Parameters of RESULT_SUBSCRIBE (0x0803), R327. -/
structure PResultSubscribe where
  queue : Nat
  mode : Nat
  start : Nat
  window : Nat
  link : Nat
  ring : Nat
  slots : Nat
  coalesce : Nat
  deriving DecidableEq, Repr

/-- Parameters of RESULT_UNSUBSCRIBE (0x0804), R327. -/
structure PResultUnsubscribe where
  queue : Nat
  deriving DecidableEq, Repr

/-- Parameters of RESULT_READ (0x0805), R329. -/
structure PResultRead where
  queue : Nat
  count : Nat
  deriving DecidableEq, Repr

/-- Parameters of RESULT_ADVANCE (0x0806), R330. -/
structure PResultAdvance where
  queue : Nat
  index : Nat
  deriving DecidableEq, Repr

/-- Parameters of RESULT_STATUS (0x0807), R340. -/
structure PResultStatus where
  queue : Nat
  deriving DecidableEq, Repr

/-- Parameters of TILE_INFO (0x0808), R336. -/
structure PTileInfo where
  handle : Nat
  deriving DecidableEq, Repr

/-- Parameters of TILE_FETCH (0x0809), R336. -/
structure PTileFetch where
  handle : Nat
  offset : Nat
  length : Nat
  deriving DecidableEq, Repr

/-- Parameters of MRK_HEAD_CONFIG (0x0901), R349. -/
structure PMrkHeadConfig where
  head : Nat
  nozzles : Nat
  pitch : Nat
  x0 : Int
  lo : Int
  hi : Int
  mh : Int
  ph : Nat
  fmax : Nat
  busKhz : Nat
  latchW : Nat
  wMain : Nat
  enSettle : Nat
  rows : Nat
  d : List Nat
  ring : Nat
  deriving DecidableEq, Repr

/-- Parameters of MRK_REMAP_LOAD (0x0902), R350. -/
structure PMrkRemapLoad where
  head : Nat
  first : Nat
  count : Nat
  data : List Nat
  deriving DecidableEq, Repr

/-- Parameters of MRK_PREHEAT (0x0903), R356. -/
structure PMrkPreheat where
  head : Nat
  count : Nat
  w : List Nat
  gap : Nat
  adv : Nat
  tref : Int
  tspan : Nat
  deriving DecidableEq, Repr

/-- Parameters of MRK_THERMAL (0x0904), R374. -/
structure PMrkThermal where
  head : Nat
  tlim : Int
  hyst : Nat
  suspend : Nat
  tsPeriod : Nat
  spiKhz : Nat
  deriving DecidableEq, Repr

/-- Parameters of MRK_STYLE (0x0905), R359. -/
structure PMrkStyle where
  dims : List Nat
  kmax : Nat
  deriving DecidableEq, Repr

/-- Parameters of MRK_LINE_MODE (0x0906), R369. -/
structure PMrkLineMode where
  mode : Nat
  low : Nat
  high : Nat
  slowPct : Nat
  stopMs : Nat
  revMargin : Nat
  deriving DecidableEq, Repr

/-- Parameters of MRK_HEAD_MODE (0x0907), R346. -/
structure PMrkHeadMode where
  head : Nat
  mode : Nat
  deriving DecidableEq, Repr

/-- Parameters of MRK_OVERLAP (0x0908), R365. -/
structure PMrkOverlap where
  head : Nat
  neighbour : Nat
  dn : Int
  deriving DecidableEq, Repr

/-- Parameters of MRK_SERVICE_PATTERN (0x0909), R355. -/
structure PMrkServicePattern where
  head : Nat
  bitmap : List Nat
  deriving DecidableEq, Repr

/-- Parameters of MRK_SERVICE_FIRE (0x090A), R355. -/
structure PMrkServiceFire where
  head : Nat
  pattern : Nat
  rate : Nat
  lines : Nat
  deriving DecidableEq, Repr

/-- Parameters of MRK_VERIFY_GEOMETRY (0x090B), R380. -/
structure PMrkVerifyGeometry where
  stream : Nat
  cd0 : Int
  pcd : Nat
  omd : Int
  takeoverMax : Nat
  deriving DecidableEq, Repr

/-- Parameters of MRK_TEST_PRINT (0x090C), R381. -/
structure PMrkTestPrint where
  head : Nat
  md : Int
  s : Nat
  r : Nat
  deriving DecidableEq, Repr

/-- Parameters of MRK_DOT_READ (0x090D), R384. -/
structure PMrkDotRead where
  head : Nat
  first : Nat
  count : Nat
  deriving DecidableEq, Repr

/-- Parameters of MRK_CAL_READ (0x090E), R385. -/
structure PMrkCalRead where
  head : Nat
  which : Nat
  deriving DecidableEq, Repr

/-- Parameters of MRK_CAL_SET (0x090F), R386. -/
structure PMrkCalSet where
  block : List Nat
  deriving DecidableEq, Repr

/-- Parameters of MRK_CAL_ACCEPT (0x0910), R386. -/
structure PMrkCalAccept where
  head : Nat
  deriving DecidableEq, Repr

/-- Parameters of MRK_CAL_SAVE (0x0911), R612. -/
structure PMrkCalSave where
  heads : Nat
  deriving DecidableEq, Repr

/-- Parameters of MRK_STATUS (0x0912), R388. -/
structure PMrkStatus where
  head : Nat
  deriving DecidableEq, Repr

/-- Parameters of MRK_MISS_READ (0x0913), R389. -/
structure PMrkMissRead where
  first : Nat
  count : Nat
  deriving DecidableEq, Repr

/-- Parameters of AREA_STREAM (0x0A01), R394. -/
structure PAreaStream where
  ctx : Nat
  enable : Nat
  stream : Nat
  cfa : Nat
  w : Nat
  h : Nat
  f : Nat
  role : Nat
  bk : Nat
  deriving DecidableEq, Repr

/-- Parameters of CLP_BLACK (0x0A02), R416. -/
structure PClpBlack where
  ctx : Nat
  bank : Nat
  bl : List Nat
  deriving DecidableEq, Repr

/-- Parameters of CLP_DEFECT_LOAD (0x0A03), R416. -/
structure PClpDefectLoad where
  ctx : Nat
  bank : Nat
  len : Nat
  first : Nat
  count : Nat
  data : List Nat
  deriving DecidableEq, Repr

/-- Parameters of CLP_COLOUR (0x0A04), R416. -/
structure PClpColour where
  ctx : Nat
  bank : Nat
  wb : List Nat
  mat : List Int
  lut : Nat
  deriving DecidableEq, Repr

/-- Parameters of CLP_LUT_LOAD (0x0A05), R416. -/
structure PClpLutLoad where
  slot : Nat
  first : Nat
  count : Nat
  data : List Nat
  deriving DecidableEq, Repr

/-- Parameters of CLP_BANK_SELECT (0x0A06), R416. -/
structure PClpBankSelect where
  ctx : Nat
  bank : Nat
  deriving DecidableEq, Repr

/-- Parameters of HEAD_CONFIG (0x0A07), R404. -/
structure PHeadConfig where
  head : Nat
  ctx : Nat
  tap : Nat
  crop : List Nat
  out : List Nat
  fmt : Nat
  n : Nat
  range : Nat
  enc : Nat
  dest : Nat
  destIdx : Nat
  deriving DecidableEq, Repr

/-- Parameters of HEAD_KERNEL (0x0A08), R405. -/
structure PHeadKernel where
  head : Nat
  axis : Nat
  source : Nat
  table : List Int
  deriving DecidableEq, Repr

/-- Parameters of HEAD_CURVE (0x0A09), R406. -/
structure PHeadCurve where
  head : Nat
  ch : Nat
  preset : Nat
  peak : Nat
  table : List Nat
  deriving DecidableEq, Repr

/-- Parameters of ST2110_CONFIG (0x0A0A), R412. -/
structure PSt2110Config where
  sender : Nat
  iface : Nat
  ipVer : Nat
  dst : List Nat
  dport : Nat
  sport : Nat
  ptype : Nat
  ssrc : Nat
  ttl : Nat
  deriving DecidableEq, Repr

/-- Parameters of ST2110_SDP (0x0A0B), R421. -/
structure PSt2110Sdp where
  sender : Nat
  offset : Nat
  length : Nat
  deriving DecidableEq, Repr

/-- Parameters of HOST_RING (0x0A0C), R414. -/
structure PHostRing where
  head : Nat
  link : Nat
  addr : Nat
  slots : Nat
  bytes : Nat
  deriving DecidableEq, Repr

/-- Parameters of LIVE_VIEW (0x0A0D), R418. -/
structure PLiveView where
  ctx : Nat
  enable : Nat
  planes : List Nat
  dc : Nat
  dm : Nat
  hv : Nat
  f : Nat
  orient : Nat
  role : Nat
  bk : Nat
  deriving DecidableEq, Repr

/-- Parameters of CLP_STATUS (0x0A0E), R421. -/
structure PClpStatus where
  ctx : Nat
  deriving DecidableEq, Repr

/-- Parameters of VCU_CONTEXT (0x0B01), R427. -/
structure PVcuContext where
  ctx : Nat
  kind : Nat
  profile : Nat
  w : Nat
  h : Nat
  f : Nat
  head : Nat
  qin : Nat
  colour : List Nat
  full : Nat
  deriving DecidableEq, Repr

/-- Parameters of VCU_CODING (0x0B02), R433. -/
structure PVcuCoding where
  ctx : Nat
  struct : Nat
  g : Nat
  mini : Nat
  rs : Nat
  sao : Nat
  stats : Nat
  deriving DecidableEq, Repr

/-- Parameters of VCU_RATE (0x0B03), R440. -/
structure PVcuRate where
  ctx : Nat
  mode : Nat
  rate : Nat
  iw : Nat
  qp : List Int
  qpLim : List Int
  deriving DecidableEq, Repr

/-- Parameters of VCU_OUTPUT (0x0B04), R441. -/
structure PVcuOutput where
  ctx : Nat
  mib : Nat
  mirror : Nat
  link : Nat
  addr : Nat
  size : Nat
  slotBytes : Nat
  deriving DecidableEq, Repr

/-- Parameters of VCU_FORCE_IRAP (0x0B05), R433. -/
structure PVcuForceIrap where
  ctx : Nat
  deriving DecidableEq, Repr

/-- Parameters of VCU_ENC_SUBMIT (0x0B06), R431. -/
structure PVcuEncSubmit where
  ctx : Nat
  link : Nat
  addr : Nat
  frame : Nat
  sec : Nat
  ns : Nat
  deriving DecidableEq, Repr

/-- Parameters of VCU_DEC_WRITE (0x0B07), R445. -/
structure PVcuDecWrite where
  ctx : Nat
  length : Nat
  data : List Nat
  deriving DecidableEq, Repr

/-- Parameters of VCU_READ (0x0B08), R442. -/
structure PVcuRead where
  ctx : Nat
  seq : Nat
  offset : Nat
  length : Nat
  deriving DecidableEq, Repr

/-- Parameters of VCU_STATUS (0x0B09), R450. -/
structure PVcuStatus where
  ctx : Nat
  deriving DecidableEq, Repr

/-- Parameters of TBC_TILE_CODING (0x0C01), R474. -/
structure PTbcTileCoding where
  effort : Nat
  deriving DecidableEq, Repr

/-- Parameters of TBC_HEAD_OUTPUT (0x0C02), R470. -/
structure PTbcHeadOutput where
  head : Nat
  effort : Nat
  near : Nat
  keyInt : Nat
  mib : Nat
  mirror : Nat
  link : Nat
  addr : Nat
  bytes : Nat
  deriving DecidableEq, Repr

/-- Parameters of TBC_HISTORY (0x0C03), R475. -/
structure PTbcHistory where
  enable : Nat
  planes : Nat
  effort : Nat
  mib : Nat
  stage : Nat
  deriving DecidableEq, Repr

/-- Parameters of TBC_POOL_CONFIG (0x0C04), R485. -/
structure PTbcPoolConfig where
  mib : Nat
  deriving DecidableEq, Repr

/-- Parameters of TBC_BUF_WRITE (0x0C05), R485. -/
structure PTbcBufWrite where
  offset : Nat
  length : Nat
  data : List Nat
  deriving DecidableEq, Repr

/-- Parameters of TBC_BUF_READ (0x0C06), R485. -/
structure PTbcBufRead where
  offset : Nat
  length : Nat
  deriving DecidableEq, Repr

/-- Parameters of TBC_JOB_SUBMIT (0x0C07), R482. -/
structure PTbcJobSubmit where
  desc : List Nat
  deriving DecidableEq, Repr

/-- Parameters of TBC_JOB_STATUS (0x0C08), R484. -/
structure PTbcJobStatus where
  job : Nat
  deriving DecidableEq, Repr

/-- Parameters of TBC_JOB_CANCEL (0x0C09), R484. -/
structure PTbcJobCancel where
  job : Nat
  deriving DecidableEq, Repr

/-- Parameters of TBC_READ (0x0C0A), R472. -/
structure PTbcRead where
  source : Nat
  seq : Nat
  offset : Nat
  length : Nat
  deriving DecidableEq, Repr

/-- Parameters of TBC_HISTORY_FIND (0x0C0B), R479. -/
structure PTbcHistoryFind where
  md : Int
  bound : Nat
  deriving DecidableEq, Repr

/-- Parameters of EVR_CHANNEL (0x0D01), R500. -/
structure PEvrChannel where
  ch : Nat
  source : Nat
  enable : Nat
  loopOk : Nat
  notify : Nat
  forks : Nat
  tasks : List Nat
  deriving DecidableEq, Repr

/-- Parameters of EVR_ENABLE (0x0D02), R491. -/
structure PEvrEnable where
  ch : Nat
  enable : Nat
  deriving DecidableEq, Repr

/-- Parameters of EVR_TASK_MODE (0x0D03), R496. -/
structure PEvrTaskMode where
  task : Nat
  mode : Nat
  deriving DecidableEq, Repr

/-- Parameters of EVR_DIVIDER (0x0D04), R493. -/
structure PEvrDivider where
  div : Nat
  n : Nat
  deriving DecidableEq, Repr

/-- Parameters of EVR_FIRE (0x0D05), R502. -/
structure PEvrFire where
  ch : Nat
  deriving DecidableEq, Repr

/-- Parameters of EVR_STATUS (0x0D06), R505. -/
structure PEvrStatus where
  first : Nat
  count : Nat
  deriving DecidableEq, Repr

/-- Parameters of EVR_TASK_STATUS (0x0D07), R505. -/
structure PEvrTaskStatus where
  task : Nat
  deriving DecidableEq, Repr

/-- Parameters of EVR_TASK_CLEAR (0x0D08), R497. -/
structure PEvrTaskClear where
  task : Nat
  deriving DecidableEq, Repr

/-- Parameters of DMC_LAYOUT (0x0E01), R512. -/
structure PDmcLayout where
  grain : Nat
  mask : Nat
  rate : Nat
  deriving DecidableEq, Repr

/-- Parameters of DMC_POLICY (0x0E02), R549. -/
structure PDmcPolicy where
  tdelta : Nat
  qf : Nat
  p : Nat
  scrub : Nat
  ceLimit : Nat
  hi : Nat
  lo : Nat
  floor2 : Nat
  floor3 : Nat
  autoMask : Nat
  deriving DecidableEq, Repr

/-- Parameters of DMC_USER_REGION (0x0E03), R546. -/
structure PDmcUserRegion where
  mib : Nat
  deriving DecidableEq, Repr

/-- Parameters of DMC_RETRAIN (0x0E04), R527. -/
structure PDmcRetrain where
  ch : Nat
  deriving DecidableEq, Repr

/-- Parameters of DMC_STATUS (0x0E05), R549. -/
structure PDmcStatus where
  ch : Nat
  deriving DecidableEq, Repr

/-- Parameters of DMC_ECC_LOG (0x0E06), R522. -/
structure PDmcEccLog where
  first : Nat
  count : Nat
  deriving DecidableEq, Repr

/-- Parameters of DMA_CHANNEL (0x0E10), R549. -/
structure PDmaChannel where
  ch : Nat
  space : Nat
  addr : Nat
  link : Nat
  deriving DecidableEq, Repr

/-- Parameters of DMA_START (0x0E11), R538. -/
structure PDmaStart where
  ch : Nat
  deriving DecidableEq, Repr

/-- Parameters of DMA_RESUME (0x0E12), R544. -/
structure PDmaResume where
  ch : Nat
  deriving DecidableEq, Repr

/-- Parameters of DMA_ABORT (0x0E13), R544. -/
structure PDmaAbort where
  ch : Nat
  deriving DecidableEq, Repr

/-- Parameters of DMA_STATUS (0x0E14), R549. -/
structure PDmaStatus where
  ch : Nat
  deriving DecidableEq, Repr

/-- Parameters of DMA_BUF_WRITE (0x0E15), R546. -/
structure PDmaBufWrite where
  space : Nat
  offset : Nat
  length : Nat
  data : List Nat
  deriving DecidableEq, Repr

/-- Parameters of DMA_BUF_READ (0x0E16), R546. -/
structure PDmaBufRead where
  space : Nat
  offset : Nat
  length : Nat
  deriving DecidableEq, Repr

/-- Parameters of ENVELOPE_SET (0x0F01), R50. -/
structure PEnvelopeSet where
  env : Nat
  goal : Nat
  watts : Nat
  deriving DecidableEq, Repr

/-- Parameters of THERMAL_CONFIG (0x0F04), R638. -/
structure PThermalConfig where
  warn : Int
  throttle : Int
  deriving DecidableEq, Repr

/-- Parameters of MARGIN_CONFIG (0x0F05), R632. -/
structure PMarginConfig where
  droopMv : Nat
  droopLimit : Nat
  deriving DecidableEq, Repr

/-- Parameters of TELEMETRY_CONFIG (0x0F06), R634. -/
structure PTelemetryConfig where
  addrs : List Nat
  rails : List Nat
  deriving DecidableEq, Repr

/-- Parameters of TELEMETRY_READ (0x0F07), R634. -/
structure PTelemetryRead where
  reg : Nat
  deriving DecidableEq, Repr

/-- Parameters of CAL_STATUS (0x0F08), R635. -/
structure PCalStatus where
  kind : Nat
  which : Nat
  deriving DecidableEq, Repr

/-- Parameters of FAULT_POLICY (0x0F09), R641. -/
structure PFaultPolicy where
  hold : Nat
  deriving DecidableEq, Repr

/-- Parameters of ERRLOG_READ (0x0F0A), R648. -/
structure PErrlogRead where
  log : Nat
  first : Nat
  count : Nat
  deriving DecidableEq, Repr

/-- Parameters of FW_STAGE_BEGIN (0x1001), R606. -/
structure PFwStageBegin where
  length : Nat
  deriving DecidableEq, Repr

/-- Parameters of FW_STAGE_WRITE (0x1002), R606. -/
structure PFwStageWrite where
  offset : Nat
  length : Nat
  data : List Nat
  deriving DecidableEq, Repr

/-- Parameters of FW_POLICY (0x1007), R609. -/
structure PFwPolicy where
  window : Nat
  mode : Nat
  deriving DecidableEq, Repr

/-- Parameters of EFUSE_READ (0x1009), R590. -/
structure PEfuseRead where
  region : Nat
  offset : Nat
  length : Nat
  deriving DecidableEq, Repr

/-- Parameters of EFUSE_KEY_REVOKE (0x100B), R592. -/
structure PEfuseKeyRevoke where
  slot : Nat
  deriving DecidableEq, Repr

/-- Parameters of CAL_WRITE (0x100C), R612. -/
structure PCalWrite where
  type : Nat
  inst : Nat
  length : Nat
  data : List Nat
  deriving DecidableEq, Repr

/-- Parameters of CAL_READ (0x100D), R618. -/
structure PCalRead where
  type : Nat
  inst : Nat
  offset : Nat
  length : Nat
  deriving DecidableEq, Repr

/-- Parameters of CAL_LIST (0x100E), R618. -/
structure PCalList where
  first : Nat
  count : Nat
  deriving DecidableEq, Repr

/-- Parameters of CAL_ERASE (0x100F), R618. -/
structure PCalErase where
  type : Nat
  inst : Nat
  deriving DecidableEq, Repr

/-- Parameters of SETTINGS_SAVE (0x1010), R615. -/
structure PSettingsSave where
  slot : Nat
  autocommit : Nat
  deriving DecidableEq, Repr

/-- Parameters of REG_READ (0x1101), R651. -/
structure PRegRead where
  addr : Nat
  count : Nat
  link : Nat
  deriving DecidableEq, Repr

/-- Parameters of REG_WRITE (0x1102), R651. -/
structure PRegWrite where
  addr : Nat
  link : Nat
  value : Nat
  mask : Nat
  deriving DecidableEq, Repr

/-- Parameters of DIAG_RESET (0x1103), R652. -/
structure PDiagReset where
  reach : Nat
  wrapper : Nat
  keep : Nat
  deriving DecidableEq, Repr

/-- Parameters of DIAG_INJECT (0x1104), R652. -/
structure PDiagInject where
  kind : Nat
  target : Nat
  deriving DecidableEq, Repr

/-- One command of the block: a row of spec/opcode_table.json (log 1, log 2). -/
inductive Instr where
  /-- SESSION_OPEN (R96): Opens a session with the lowest free ID, or re-sends the kept reply for a repeated TAG from the same source. -/
  | sessionOpen (h : Hdr) (p : PSessionOpen)
  /-- SESSION_CLOSE (R97): Closes the sending session, ending its subscriptions and vacating ownership if it owned the device. -/
  | sessionClose (h : Hdr)
  /-- HEARTBEAT (R97): Keeps the session open and returns the owner and the lease left. -/
  | heartbeat (h : Hdr)
  /-- CLAIM (R99): Takes or renews ownership with a lease, or is refused with the owner and the remaining lease. -/
  | claim (h : Hdr) (p : PClaim)
  /-- RELEASE (R102): The owner gives up ownership, which becomes vacant. -/
  | release (h : Hdr)
  /-- TRANSFER (R102): Moves ownership to a named open session with a fresh lease. -/
  | transfer (h : Hdr) (p : PTransfer)
  /-- OWNER_QUERY (R111): Returns the owner ID and the lease left. -/
  | ownerQuery (h : Hdr)
  /-- SESSION_LIST (R681): Returns open sessions from a first ID in rising order. -/
  | sessionList (h : Hdr) (p : PSessionList)
  /-- QUEUE_CREATE (R111): Creates PCIe queue pair 1 to 63 on a host link with its rings and notification area. -/
  | queueCreate (h : Hdr) (p : PQueueCreate)
  /-- QUEUE_DELETE (R111): Deletes a queue pair after writing its pending completions. -/
  | queueDelete (h : Hdr) (p : PQueueDelete)
  /-- IDENTIFY (R111): Returns identity, stepping and firmware versions. -/
  | identify (h : Hdr)
  /-- NOTIFY_SUBSCRIBE (R105): Replaces the session's notification mask and returns the previous one. -/
  | notifySubscribe (h : Hdr) (p : PNotifySubscribe)
  /-- STATE_QUERY (R111): Returns DEV_STATE and the count of queued commands. -/
  | stateQuery (h : Hdr)
  /-- CONFIG_COMMIT (R112): Checks and admits the working configuration set, moving STANDBY to CONFIGURED or refusing. -/
  | configCommit (h : Hdr)
  /-- CONFIG_CLEAR (R76): Empties the working configuration set and returns the device to STANDBY. -/
  | configClear (h : Hdr)
  /-- CONFIG_SAVE (R616): Stores the working configuration set in a configuration slot. -/
  | configSave (h : Hdr) (p : PConfigSave)
  /-- CONFIG_LOAD (R616): Loads a configuration slot into the working configuration set. -/
  | configLoad (h : Hdr) (p : PConfigLoad)
  /-- CONFIG_CHECK (R95): Returns the budget area for the working configuration set. -/
  | configCheck (h : Hdr)
  /-- ARM (R682): Judges the set, brings up the opened ports and moves CONFIGURED to ARMED once they are up or refused. -/
  | arm (h : Hdr)
  /-- DISARM (R76): Moves ARMED to CONFIGURED. -/
  | disarm (h : Hdr)
  /-- START (R112): Re-judges the configuration and moves ARMED to RUNNING, at once or queued with an apply-at key. -/
  | start (h : Hdr)
  /-- STOP (R79): Sets the stop point and drain limit and moves RUNNING to DRAINING, at once or queued. -/
  | stop (h : Hdr) (p : PStop)
  /-- FAULT_CLEAR (R641): Leaves FAULT for STANDBY when the class's clear condition holds. -/
  | faultClear (h : Hdr)
  /-- SLEEP (R49): Replies and then puts the device from STANDBY into SLEEP with DRAM in self-refresh. -/
  | sleep (h : Hdr)
  /-- APPLY_CANCEL (R112): Discards every queued command with a given tag and notifies each with E_CANCELLED. -/
  | applyCancel (h : Hdr) (p : PApplyCancel)
  /-- APPLY_LIST (R681): Returns queued commands in sequencer order. -/
  | applyList (h : Hdr) (p : PApplyList)
  /-- NET_CONFIG (R111): Sets an interface's addresses and UDP port, taking effect after the reply. -/
  | netConfig (h : Hdr) (p : PNetConfig)
  /-- PORT_OPEN (R164): Opens a camera port with kind, rate, FEC and lane count, closing it first if it was UP. -/
  | portOpen (h : Hdr) (p : PPortOpen)
  /-- PORT_CLOSE (R686): Closes a port and removes its streams. -/
  | portClose (h : Hdr) (p : PPortClose)
  /-- STREAM_SET (R133): Sets a stream's width, format and trigger source, clamping to the port's width limit. -/
  | streamSet (h : Hdr) (p : PStreamSet)
  /-- PORT_PROBE (R149): Brings a port up at rate 1 without FEC and reads the head's identity registers. -/
  | portProbe (h : Hdr) (p : PPortProbe)
  /-- PORT_STATUS (R164): Returns a port's link and lane state, eyes, D and E. -/
  | portStatus (h : Hdr) (p : PPortStatus)
  /-- PORT_COUNTERS (R164): Returns a port's counters. -/
  | portCounters (h : Hdr) (p : PPortCounters)
  /-- PORT_COUNTERS_CLEAR (R164): Sets a port's counters to 0. -/
  | portCountersClear (h : Hdr) (p : PPortCountersClear)
  /-- LANE_POWER (R147): Sets a port's lane power mode and AUTO times. -/
  | lanePower (h : Hdr) (p : PLanePower)
  /-- HEAD_REG_WRITE (R138): Writes a head register over the back-channel and replies with the echoed data. -/
  | headRegWrite (h : Hdr) (p : PHeadRegWrite)
  /-- HEAD_REG_READ (R138): Reads a head register over the back-channel. -/
  | headRegRead (h : Hdr) (p : PHeadRegRead)
  /-- CAL_RUN (R155): Requests recalibration of named lanes of a port. -/
  | calRun (h : Hdr) (p : PCalRun)
  /-- CAL_POLICY (R155): Sets TDELTA, recalibration period and QF threshold. -/
  | calPolicy (h : Hdr) (p : PCalPolicy)
  /-- EYE_SCAN (R165): Starts an eye scan of a lane or returns points of the last scan. -/
  | eyeScan (h : Hdr) (p : PEyeScan)
  /-- LATENCY_MEASURE (R684): Runs 16 echo round trips and adopts a new D when it fits E. -/
  | latencyMeasure (h : Hdr) (p : PLatencyMeasure)
  /-- LATENCY_TRIM (R167): Sets a port's latency trim, clamped so D stays within E while running. -/
  | latencyTrim (h : Hdr) (p : PLatencyTrim)
  /-- EXPOSURE_DELAY (R142): Sets the exposure delay E. -/
  | exposureDelay (h : Hdr) (p : PExposureDelay)
  /-- FE_GEOMETRY (R202): Declares web width, pitches, planes, bands, f_max and stitch settings, granting f_max. -/
  | feGeometry (h : Hdr) (p : PFeGeometry)
  /-- FE_STREAM_MAP (R193): Maps a stream into a plane with its MD offset, span and cubic x-map. -/
  | feStreamMap (h : Hdr) (p : PFeStreamMap)
  /-- FE_SEAM (R196): Defines a seam between two streams of a plane. -/
  | feSeam (h : Hdr) (p : PFeSeam)
  /-- FE_KERNEL (R195): Loads the resampling kernel table or restores the default. -/
  | feKernel (h : Hdr) (p : PFeKernel)
  /-- FE_COEF_LOAD (R182): Writes offsets, gains or defect codes into a stream's inactive bank. -/
  | feCoefLoad (h : Hdr) (p : PFeCoefLoad)
  /-- FE_BANK_SELECT (R182): Switches streams of a port to a coefficient bank, at once or at a key. -/
  | feBankSelect (h : Hdr) (p : PFeBankSelect)
  /-- FE_SHADING (R181): Sets a stream's shading mode and tracker settings and discards the window in progress. -/
  | feShading (h : Hdr) (p : PFeShading)
  /-- FE_SETTING_LATENCY (R183): Sets a setting-latency entry of a port. -/
  | feSettingLatency (h : Hdr) (p : PFeSettingLatency)
  /-- FE_META_KEY (R184): Sets a port's metadata key. -/
  | feMetaKey (h : Hdr) (p : PFeMetaKey)
  /-- FE_STATUS (R170): Returns lane load, f_lane, spill and bank and shading state of a port. -/
  | feStatus (h : Hdr) (p : PFeStatus)
  /-- FE_CAPTURE (R206): Starts a capture of a stream's next line at a stage, or returns bytes of the last one. -/
  | feCapture (h : Hdr) (p : PFeCapture)
  /-- FE_COUNTERS_CLEAR (R204): Sets the front-end counters to 0. -/
  | feCountersClear (h : Hdr)
  /-- ENC_CONFIG (R688): Configures an encoder axis and starts, restarts or stops it. -/
  | encConfig (h : Hdr) (p : PEncConfig)
  /-- OBSERVER_SET (R215): Sets an axis's observer bandwidth, hysteresis and motion thresholds. -/
  | observerSet (h : Hdr) (p : PObserverSet)
  /-- POS_ORIGIN (R223): Sets an axis's MD origin now, at the next Z edge or at a latch capture. -/
  | posOrigin (h : Hdr) (p : PPosOrigin)
  /-- LTG_CONFIG (R220): Configures a line-trigger generator and makes it forget fired boundaries. -/
  | ltgConfig (h : Hdr) (p : PLtgConfig)
  /-- LTG_ENABLE (R220): Enables or disables a line-trigger generator. -/
  | ltgEnable (h : Hdr) (p : PLtgEnable)
  /-- CMP_CONFIG (R227): Configures a compare channel in list or periodic mode. -/
  | cmpConfig (h : Hdr) (p : PCmpConfig)
  /-- CMP_LIST_LOAD (R225): Loads compare entries for a disabled channel. -/
  | cmpListLoad (h : Hdr) (p : PCmpListLoad)
  /-- CMP_ENABLE (R228): Enables or disables a compare channel, driving its output low on disable. -/
  | cmpEnable (h : Hdr) (p : PCmpEnable)
  /-- LATCH_CONFIG (R229): Sets a latch's axis, source and edge. -/
  | latchConfig (h : Hdr) (p : PLatchConfig)
  /-- LATCH_READ (R230): Empties captures from a latch FIFO. -/
  | latchRead (h : Hdr) (p : PLatchRead)
  /-- POS_STATUS (R250): Returns an axis's count, MD, speed, acceleration, state and counters. -/
  | posStatus (h : Hdr) (p : PPosStatus)
  /-- POS_COUNTERS_CLEAR (R250): Sets the position counters to 0. -/
  | posCountersClear (h : Hdr)
  /-- TIME_SOURCE (R233): Selects no source, PTP or PPS for the time unit. -/
  | timeSource (h : Hdr) (p : PTimeSource)
  /-- TIME_SET (R234): Steps the TMU counter with no source, or supplies seconds for the next PPS step. -/
  | timeSet (h : Hdr) (p : PTimeSet)
  /-- TIME_RELEARN (R234): Clears STEP_DONE and drops the time unit to ACQUIRING or FREE. -/
  | timeRelearn (h : Hdr)
  /-- TIME_STATUS (R251): Returns time unit state, offset, rate, path delay and master identity. -/
  | timeStatus (h : Hdr)
  /-- PTP_CONFIG (R237): Configures the PTP port's interface, profile, transport and intervals. -/
  | ptpConfig (h : Hdr) (p : PPtpConfig)
  /-- PPS_CONFIG (R241): Configures PPS_OUT enable, offset and width. -/
  | ppsConfig (h : Hdr) (p : PPpsConfig)
  /-- TTR_CONFIG (R242): Configures a time trigger's start, period and output pulse. -/
  | ttrConfig (h : Hdr) (p : PTtrConfig)
  /-- TCP_CONFIG (R244): Configures a time capture's source and edge. -/
  | tcpConfig (h : Hdr) (p : PTcpConfig)
  /-- TCP_READ (R244): Empties captures from a time capture FIFO. -/
  | tcpRead (h : Hdr) (p : PTcpRead)
  /-- TIME_READ (R251): Returns TMU time and the web axis MD latched in one SYS cycle. -/
  | timeRead (h : Hdr)
  /-- GRAPH_NODE (R256): Writes a node of a graph slot. -/
  | graphNode (h : Hdr) (p : PGraphNode)
  /-- GRAPH_CLEAR (R256): Empties a graph slot. -/
  | graphClear (h : Hdr) (p : PGraphClear)
  /-- GRADE_RULES (R276): Writes grading rules of a slot, taking effect at one web line on every band. -/
  | gradeRules (h : Hdr) (p : PGradeRules)
  /-- MARK_TABLE (R281): Writes mark table entries of a slot. -/
  | markTable (h : Hdr) (p : PMarkTable)
  /-- GRAPH_SELECT (R258): Selects the web graph slot, restarting the graph at the next strip boundary. -/
  | graphSelect (h : Hdr) (p : PGraphSelect)
  /-- GRAPH_PARAM (R259): Changes a node parameter, only live ones while running. -/
  | graphParam (h : Hdr) (p : PGraphParam)
  /-- VERIFY_GRAPH (R256): Names the verification graph slot, cluster and port. -/
  | verifyGraph (h : Hdr) (p : PVerifyGraph)
  /-- GRAPH_BUDGET (R284): Declares a slot's record rate per band and BACKLOG_MAX. -/
  | graphBudget (h : Hdr) (p : PGraphBudget)
  /-- GRAPH_COST (R284): Returns the cost estimator's figures for a slot. -/
  | graphCost (h : Hdr) (p : PGraphCost)
  /-- ELX_STATUS (R288): Returns a cluster's last line, load, skips, LMU and backlog figures. -/
  | elxStatus (h : Hdr) (p : PElxStatus)
  /-- ELX_COUNTERS_CLEAR (R288): Sets the ELX and LMU counters to 0. -/
  | elxCountersClear (h : Hdr)
  /-- ELX_GATING (R47): Sets the cluster idle time before gating. -/
  | elxGating (h : Hdr) (p : PElxGating)
  /-- MODEL_STAGE (R306): Reserves staging space for a model ID and length. -/
  | modelStage (h : Hdr) (p : PModelStage)
  /-- MODEL_WRITE (R306): Writes a piece of a staged package. -/
  | modelWrite (h : Hdr) (p : PModelWrite)
  /-- MODEL_COMMIT (R307): Checks a staged package and loads it, computing its cost. -/
  | modelCommit (h : Hdr) (p : PModelCommit)
  /-- MODEL_ABORT (R306): Discards a staging. -/
  | modelAbort (h : Hdr) (p : PModelAbort)
  /-- MODEL_UNLOAD (R314): Removes a loaded model that nothing names. -/
  | modelUnload (h : Hdr) (p : PModelUnload)
  /-- MODEL_SWAP (R312): Replaces a model ID in every CLASSIFY node, re-judging the budget. -/
  | modelSwap (h : Hdr) (p : PModelSwap)
  /-- MODEL_LIST (R315): Returns loaded and staging models. -/
  | modelList (h : Hdr) (p : PModelList)
  /-- MODEL_INFO (R315): Returns a model's header, cost and tiles classified. -/
  | modelInfo (h : Hdr) (p : PModelInfo)
  /-- MODEL_TEST (R316): Runs a model on a supplied tile on a management core. -/
  | modelTest (h : Hdr) (p : PModelTest)
  /-- RESULT_QUEUE_CONFIG (R322): Sets a result queue's size, policy and extra feature, emptying it. -/
  | resultQueueConfig (h : Hdr) (p : PResultQueueConfig)
  /-- TILE_POOL_CONFIG (R334): Sets the tile pool size, reusing every tile. -/
  | tilePoolConfig (h : Hdr) (p : PTilePoolConfig)
  /-- RESULT_SUBSCRIBE (R327): Creates a subscription to a queue in PULL, PUSH_HOST or PUSH_UDP mode. -/
  | resultSubscribe (h : Hdr) (p : PResultSubscribe)
  /-- RESULT_UNSUBSCRIBE (R327): Ends the session's subscription to a queue. -/
  | resultUnsubscribe (h : Hdr) (p : PResultUnsubscribe)
  /-- RESULT_READ (R329): Returns record slots from max(r, O) without moving anything. -/
  | resultRead (h : Hdr) (p : PResultRead)
  /-- RESULT_ADVANCE (R330): Moves a subscription's reader index forward. -/
  | resultAdvance (h : Hdr) (p : PResultAdvance)
  /-- RESULT_STATUS (R340): Returns a queue's state and the caller's reader figures. -/
  | resultStatus (h : Hdr) (p : PResultStatus)
  /-- TILE_INFO (R336): Returns a tile's header or refuses a stale handle. -/
  | tileInfo (h : Hdr) (p : PTileInfo)
  /-- TILE_FETCH (R336): Returns bytes of a tile, refusing if it was reused before the read ended. -/
  | tileFetch (h : Hdr) (p : PTileFetch)
  /-- RES_COUNTERS_CLEAR (R340): Sets written, LOST and OUTCOME_DROP of every queue to 0. -/
  | resCountersClear (h : Hdr)
  /-- MRK_HEAD_CONFIG (R349): Configures a marking head's geometry, pacing and bus timing. -/
  | mrkHeadConfig (h : Hdr) (p : PMrkHeadConfig)
  /-- MRK_REMAP_LOAD (R350): Loads remapping entries of a head. -/
  | mrkRemapLoad (h : Hdr) (p : PMrkRemapLoad)
  /-- MRK_PREHEAT (R356): Sets a head's pre-heat pulses and temperature scaling. -/
  | mrkPreheat (h : Hdr) (p : PMrkPreheat)
  /-- MRK_THERMAL (R374): Sets a head's temperature limit, hysteresis and sensing. -/
  | mrkThermal (h : Hdr) (p : PMrkThermal)
  /-- MRK_STYLE (R359): Sets mark dimensions and K_MAX. -/
  | mrkStyle (h : Hdr) (p : PMrkStyle)
  /-- MRK_LINE_MODE (R369): Sets CONTINUOUS or STOPPABLE mode with watermarks and timeouts. -/
  | mrkLineMode (h : Hdr) (p : PMrkLineMode)
  /-- MRK_HEAD_MODE (R346): Sets a head to OFF, PRODUCTION or SERVICE. -/
  | mrkHeadMode (h : Hdr) (p : PMrkHeadMode)
  /-- MRK_OVERLAP (R365): Names a head's overlap neighbour and nozzle offset. -/
  | mrkOverlap (h : Hdr) (p : PMrkOverlap)
  /-- MRK_SERVICE_PATTERN (R355): Loads a head's service bitmap. -/
  | mrkServicePattern (h : Hdr) (p : PMrkServicePattern)
  /-- MRK_SERVICE_FIRE (R355): Starts FIXED-paced firing of a head in SERVICE. -/
  | mrkServiceFire (h : Hdr) (p : PMrkServiceFire)
  /-- MRK_VERIFY_GEOMETRY (R380): Sets a verification stream's CD map and MD offset. -/
  | mrkVerifyGeometry (h : Hdr) (p : PMrkVerifyGeometry)
  /-- MRK_TEST_PRINT (R381): Rasterises a STAIR test pattern on a PRODUCTION head. -/
  | mrkTestPrint (h : Hdr) (p : PMrkTestPrint)
  /-- MRK_DOT_READ (R384): Returns per-nozzle dot measurements. -/
  | mrkDotRead (h : Hdr) (p : PMrkDotRead)
  /-- MRK_CAL_READ (R385): Returns the calibration block in force or proposed. -/
  | mrkCalRead (h : Hdr) (p : PMrkCalRead)
  /-- MRK_CAL_SET (R386): Puts a supplied head calibration block in force. -/
  | mrkCalSet (h : Hdr) (p : PMrkCalSet)
  /-- MRK_CAL_ACCEPT (R386): Puts the proposed calibration of a head in force. -/
  | mrkCalAccept (h : Hdr) (p : PMrkCalAccept)
  /-- MRK_CAL_SAVE (R612): Stores head calibrations in the user calibration store. -/
  | mrkCalSave (h : Hdr) (p : PMrkCalSave)
  /-- MRK_STATUS (R388): Returns a head's state, level, FIRE_HWM and counters. -/
  | mrkStatus (h : Hdr) (p : PMrkStatus)
  /-- MRK_MISS_READ (R389): Returns missed-span log entries still held. -/
  | mrkMissRead (h : Hdr) (p : PMrkMissRead)
  /-- MRK_COUNTERS_CLEAR (R388): Sets the marking counters to 0. -/
  | mrkCountersClear (h : Hdr)
  /-- AREA_STREAM (R394): Binds a colour context to an area stream with size, rate, role and backlog. -/
  | areaStream (h : Hdr) (p : PAreaStream)
  /-- CLP_BLACK (R416): Writes black levels into a context's inactive bank. -/
  | clpBlack (h : Hdr) (p : PClpBlack)
  /-- CLP_DEFECT_LOAD (R416): Writes defect list entries into a context's inactive bank. -/
  | clpDefectLoad (h : Hdr) (p : PClpDefectLoad)
  /-- CLP_COLOUR (R416): Writes white balance, matrix and LUT slot into a context's inactive bank. -/
  | clpColour (h : Hdr) (p : PClpColour)
  /-- CLP_LUT_LOAD (R416): Loads entries of a 3D LUT slot not in use. -/
  | clpLutLoad (h : Hdr) (p : PClpLutLoad)
  /-- CLP_BANK_SELECT (R416): Switches a context's colour bank at a frame boundary. -/
  | clpBankSelect (h : Hdr) (p : PClpBankSelect)
  /-- HEAD_CONFIG (R404): Configures an output head's source, tap, crop, scale, format and destination. -/
  | headConfig (h : Hdr) (p : PHeadConfig)
  /-- HEAD_KERNEL (R405): Loads a head's scaler table for one axis. -/
  | headKernel (h : Hdr) (p : PHeadKernel)
  /-- HEAD_CURVE (R406): Loads or presets a head's curves, applied from a frame. -/
  | headCurve (h : Hdr) (p : PHeadCurve)
  /-- ST2110_CONFIG (R412): Configures an ST 2110-20 sender's addressing. -/
  | st2110Config (h : Hdr) (p : PSt2110Config)
  /-- ST2110_SDP (R421): Returns a sender's SDP text. -/
  | st2110Sdp (h : Hdr) (p : PSt2110Sdp)
  /-- HOST_RING (R414): Sets a head's host ring. -/
  | hostRing (h : Hdr) (p : PHostRing)
  /-- LIVE_VIEW (R418): Configures the live view context's planes, decimation, height, rate and role. -/
  | liveView (h : Hdr) (p : PLiveView)
  /-- CLP_STATUS (R421): Returns a context's role, rate, backlog, counters and bank. -/
  | clpStatus (h : Hdr) (p : PClpStatus)
  /-- CLP_COUNTERS_CLEAR (R421): Sets the colour pipeline counters to 0. -/
  | clpCountersClear (h : Hdr)
  /-- VCU_CONTEXT (R427): Sets an HEVC context's kind, profile, size, rate and source. -/
  | vcuContext (h : Hdr) (p : PVcuContext)
  /-- VCU_CODING (R433): Sets a context's coding structure, IRAP period, slices and options. -/
  | vcuCoding (h : Hdr) (p : PVcuCoding)
  /-- VCU_RATE (R440): Sets a context's rate control, taking effect at a picture. -/
  | vcuRate (h : Hdr) (p : PVcuRate)
  /-- VCU_OUTPUT (R441): Sets a context's DRAM ring and host mirror. -/
  | vcuOutput (h : Hdr) (p : PVcuOutput)
  /-- VCU_FORCE_IRAP (R433): Makes the next picture of a context an IRAP picture. -/
  | vcuForceIrap (h : Hdr) (p : PVcuForceIrap)
  /-- VCU_ENC_SUBMIT (R431): Submits a host picture to an encoding context. -/
  | vcuEncSubmit (h : Hdr) (p : PVcuEncSubmit)
  /-- VCU_DEC_WRITE (R445): Writes byte stream into a decode context's input buffer. -/
  | vcuDecWrite (h : Hdr) (p : PVcuDecWrite)
  /-- VCU_READ (R442): Returns bytes of a chunk of given sequence. -/
  | vcuRead (h : Hdr) (p : PVcuRead)
  /-- VCU_STATUS (R450): Returns a context's state, level, rate and counters. -/
  | vcuStatus (h : Hdr) (p : PVcuStatus)
  /-- VCU_COUNTERS_CLEAR (R450): Sets the HEVC counters to 0. -/
  | vcuCountersClear (h : Hdr)
  /-- TBC_TILE_CODING (R474): Sets the Tombac effort for tiles. -/
  | tbcTileCoding (h : Hdr) (p : PTbcTileCoding)
  /-- TBC_HEAD_OUTPUT (R470): Sets a head's Tombac effort, near, key interval, ring and mirror. -/
  | tbcHeadOutput (h : Hdr) (p : PTbcHeadOutput)
  /-- TBC_HISTORY (R475): Enables and configures the rolling web history. -/
  | tbcHistory (h : Hdr) (p : PTbcHistory)
  /-- TBC_POOL_CONFIG (R485): Sets the Tombac job buffer size. -/
  | tbcPoolConfig (h : Hdr) (p : PTbcPoolConfig)
  /-- TBC_BUF_WRITE (R485): Writes bytes into the job buffer. -/
  | tbcBufWrite (h : Hdr) (p : PTbcBufWrite)
  /-- TBC_BUF_READ (R485): Reads bytes from the job buffer. -/
  | tbcBufRead (h : Hdr) (p : PTbcBufRead)
  /-- TBC_JOB_SUBMIT (R482): Queues a compress or decompress job. -/
  | tbcJobSubmit (h : Hdr) (p : PTbcJobSubmit)
  /-- TBC_JOB_STATUS (R484): Returns a job's state and completion. -/
  | tbcJobStatus (h : Hdr) (p : PTbcJobStatus)
  /-- TBC_JOB_CANCEL (R484): Stops a job at its next line boundary with CANCELLED. -/
  | tbcJobCancel (h : Hdr) (p : PTbcJobCancel)
  /-- TBC_READ (R472): Returns bytes of a head or history record. -/
  | tbcRead (h : Hdr) (p : PTbcRead)
  /-- TBC_HISTORY_FIND (R479): Returns the newest history record holding an MD below a bound. -/
  | tbcHistoryFind (h : Hdr) (p : PTbcHistoryFind)
  /-- TBC_STATUS (R487): Returns Tombac state, sequences and counters. -/
  | tbcStatus (h : Hdr)
  /-- TBC_COUNTERS_CLEAR (R487): Sets the Tombac counters to 0. -/
  | tbcCountersClear (h : Hdr)
  /-- EVR_CHANNEL (R500): Configures an event channel's source, fork list and bits, refusing loops. -/
  | evrChannel (h : Hdr) (p : PEvrChannel)
  /-- EVR_ENABLE (R491): Enables or disables an event channel. -/
  | evrEnable (h : Hdr) (p : PEvrEnable)
  /-- EVR_TASK_MODE (R496): Sets a task input to native or AK-6420 mode. -/
  | evrTaskMode (h : Hdr) (p : PEvrTaskMode)
  /-- EVR_DIVIDER (R493): Sets a divider's divisor. -/
  | evrDivider (h : Hdr) (p : PEvrDivider)
  /-- EVR_FIRE (R502): Publishes a software event on a channel. -/
  | evrFire (h : Hdr) (p : PEvrFire)
  /-- EVR_STATUS (R505): Returns channel settings and counts. -/
  | evrStatus (h : Hdr) (p : PEvrStatus)
  /-- EVR_TASK_STATUS (R505): Returns a task input's mode, busy, pending and counters. -/
  | evrTaskStatus (h : Hdr) (p : PEvrTaskStatus)
  /-- EVR_TASK_CLEAR (R497): Clears a task input's OVR flag. -/
  | evrTaskClear (h : Hdr) (p : PEvrTaskClear)
  /-- EVR_COUNTERS_CLEAR (R505): Sets the event router counters to 0. -/
  | evrCountersClear (h : Hdr)
  /-- DMC_LAYOUT (R512): Records grain, degraded mask and maximum rate for the next start that does not keep DRAM. -/
  | dmcLayout (h : Hdr) (p : PDmcLayout)
  /-- DMC_POLICY (R549): Sets DRAM retraining, row protection, scrub, ECC and scheduling parameters. -/
  | dmcPolicy (h : Hdr) (p : PDmcPolicy)
  /-- DMC_USER_REGION (R546): Sets the user buffer size. -/
  | dmcUserRegion (h : Hdr) (p : PDmcUserRegion)
  /-- DMC_RETRAIN (R527): Requests retraining of a DRAM channel. -/
  | dmcRetrain (h : Hdr) (p : PDmcRetrain)
  /-- DMC_STATUS (R549): Returns a DRAM channel's state, counters and DIMM organisation. -/
  | dmcStatus (h : Hdr) (p : PDmcStatus)
  /-- DMC_ECC_LOG (R522): Returns entries of the DRAM error log. -/
  | dmcEccLog (h : Hdr) (p : PDmcEccLog)
  /-- DMC_COUNTERS_CLEAR (R549): Sets the DRAM counters to 0. -/
  | dmcCountersClear (h : Hdr)
  /-- DMA_CHANNEL (R549): Sets an idle DMA channel's descriptor space, first address and interrupt link. -/
  | dmaChannel (h : Hdr) (p : PDmaChannel)
  /-- DMA_START (R538): Starts a DMA channel or releases its waiting descriptor. -/
  | dmaStart (h : Hdr) (p : PDmaStart)
  /-- DMA_RESUME (R544): Re-runs a halted descriptor from its first byte. -/
  | dmaResume (h : Hdr) (p : PDmaResume)
  /-- DMA_ABORT (R544): Ends a DMA chain and returns the channel to IDLE. -/
  | dmaAbort (h : Hdr) (p : PDmaAbort)
  /-- DMA_STATUS (R549): Returns a DMA channel's state and counters. -/
  | dmaStatus (h : Hdr) (p : PDmaStatus)
  /-- DMA_BUF_WRITE (R546): Writes bytes into the user buffer. -/
  | dmaBufWrite (h : Hdr) (p : PDmaBufWrite)
  /-- DMA_BUF_READ (R546): Reads bytes from the user buffer. -/
  | dmaBufRead (h : Hdr) (p : PDmaBufRead)
  /-- DMA_COUNTERS_CLEAR (R549): Sets the DMA counters to 0. -/
  | dmaCountersClear (h : Hdr)
  /-- ENVELOPE_SET (R50): Sets and stores the envelope, goal and power limit, forming a new plan. -/
  | envelopeSet (h : Hdr) (p : PEnvelopeSet)
  /-- PLAN_RUN (R628): Forms and applies a new margin plan. -/
  | planRun (h : Hdr)
  /-- MON_STATUS (R650): Returns monitor, plan and sensor figures. -/
  | monStatus (h : Hdr)
  /-- THERMAL_CONFIG (R638): Sets T_warn and T_throttle. -/
  | thermalConfig (h : Hdr) (p : PThermalConfig)
  /-- MARGIN_CONFIG (R632): Sets DROOP_MV and DROOP_LIMIT. -/
  | marginConfig (h : Hdr) (p : PMarginConfig)
  /-- TELEMETRY_CONFIG (R634): Sets the PMBus regulator addresses and rails. -/
  | telemetryConfig (h : Hdr) (p : PTelemetryConfig)
  /-- TELEMETRY_READ (R634): Returns a regulator's telemetry. -/
  | telemetryRead (h : Hdr) (p : PTelemetryRead)
  /-- CAL_STATUS (R635): Returns a calibration item's run record. -/
  | calStatus (h : Hdr) (p : PCalStatus)
  /-- FAULT_POLICY (R641): Sets and stores FAULT_HOLD. -/
  | faultPolicy (h : Hdr) (p : PFaultPolicy)
  /-- ERRLOG_READ (R648): Returns entries of the main or backup error log. -/
  | errlogRead (h : Hdr) (p : PErrlogRead)
  /-- MON_COUNTERS_CLEAR (R650): Sets the monitor counters to 0. -/
  | monCountersClear (h : Hdr)
  /-- FW_STAGE_BEGIN (R606): Enters UPDATE and erases staging for a new image. -/
  | fwStageBegin (h : Hdr) (p : PFwStageBegin)
  /-- FW_STAGE_WRITE (R606): Programs a piece of the staged image. -/
  | fwStageWrite (h : Hdr) (p : PFwStageWrite)
  /-- FW_STAGE_END (R606): Checks the staged image and on success writes STAGED and returns to STANDBY. -/
  | fwStageEnd (h : Hdr)
  /-- FW_STAGE_ABORT (R618): Abandons staging and returns to STANDBY. -/
  | fwStageAbort (h : Hdr)
  /-- FW_STATUS (R618): Returns the slot state and firmware registers. -/
  | fwStatus (h : Hdr)
  /-- FW_CONFIRM (R609): Lets a trial firmware in HOST mode confirm itself. -/
  | fwConfirm (h : Hdr)
  /-- FW_POLICY (R609): Sets and stores the confirmation window and mode. -/
  | fwPolicy (h : Hdr) (p : PFwPolicy)
  /-- FW_ROLLBACK (R611): Arms the other slot for a trial boot at the next start. -/
  | fwRollback (h : Hdr)
  /-- EFUSE_READ (R590): Returns bytes of the eFuse shadow. -/
  | efuseRead (h : Hdr) (p : PEfuseRead)
  /-- EFUSE_SECVER_ADVANCE (R611): Programs the security minimum up to the running image's version. -/
  | efuseSecverAdvance (h : Hdr)
  /-- EFUSE_KEY_REVOKE (R592): Programs the revocation bits of a key slot. -/
  | efuseKeyRevoke (h : Hdr) (p : PEfuseKeyRevoke)
  /-- CAL_WRITE (R612): Writes a record into the user calibration store. -/
  | calWrite (h : Hdr) (p : PCalWrite)
  /-- CAL_READ (R618): Returns bytes of a calibration record. -/
  | calRead (h : Hdr) (p : PCalRead)
  /-- CAL_LIST (R618): Lists the records of the calibration store. -/
  | calList (h : Hdr) (p : PCalList)
  /-- CAL_ERASE (R618): Removes a calibration record. -/
  | calErase (h : Hdr) (p : PCalErase)
  /-- SETTINGS_SAVE (R615): Stores the settings in force with autoload slot and autocommit. -/
  | settingsSave (h : Hdr) (p : PSettingsSave)
  /-- STORE_STATUS (R618): Returns store state and record generations. -/
  | storeStatus (h : Hdr)
  /-- REG_READ (R651): Reads registers through the register window. -/
  | regRead (h : Hdr) (p : PRegRead)
  /-- REG_WRITE (R651): Writes a register through the window with the owner's rights. -/
  | regWrite (h : Hdr) (p : PRegWrite)
  /-- DIAG_RESET (R652): Asserts a Block, System or Chip reset 10 ms after the reply. -/
  | diagReset (h : Hdr) (p : PDiagReset)
  /-- DIAG_INJECT (R652): Corrupts check bits of a DRAM unit or the next SRAM word of a block. -/
  | diagInject (h : Hdr) (p : PDiagInject)
  /-- OPCODE_NOT_DEFINED (R75): A command packet arrives whose OPCODE is not defined, or which is discarded before any opcode applies (bad MAGIC, IP fragments), and is refused with E_OPCODE or dropped. -/
  | opcodeNotDefined  (h : Hdr) (op : Nat) (magic : Nat) (frag : Bool) (crcOk : Bool)
  /-- REGISTER_WRITE (R23): A BAR0 write to a register without behaviour of its own sets, clears or ignores fields by access type. -/
  | registerWrite (t : Nat) (link : Nat) (addr : Nat) (value : Nat)
  /-- OWN_CLAIM_GO (R104): Submits a CLAIM on behalf of a session through OWN_CLAIM. -/
  | ownClaimGo (t : Nat) (link : Nat) (value : Nat)
  /-- HQ_SUBMIT_TAIL_WRITE (R62): Host doorbell that lets the device fetch submission entries of a pair. -/
  | hqSubmitTailWrite (t : Nat) (via : Nat) (link : Nat) (pair : Nat) (value : Nat)
  /-- HQ_DONE_HEAD_WRITE (R62): Host releases completion slots of a pair. -/
  | hqDoneHeadWrite (t : Nat) (via : Nat) (link : Nat) (pair : Nat) (value : Nat)
  /-- HQ_ADMIN_SIZE_WRITE (R109): Sets or disables pair 0's ring size, restarting the pair. -/
  | hqAdminSizeWrite (t : Nat) (via : Nat) (link : Nat) (value : Nat)
  /-- CNT_CLEAR (R162): Sets every counter of a camera port to 0. -/
  | cntClear (t : Nat) (port : Nat) (value : Nat)
  /-- FEP_CNT_CLEAR (R203): Sets every front-end counter to 0. -/
  | fepCntClear (t : Nat) (value : Nat)
  /-- ELX_CNT_CLEAR (R287): Sets every ELX and LMU counter to 0. -/
  | elxCntClear (t : Nat) (value : Nat)
  /-- MRK_CNT_CLEAR (R387): Sets every marking counter to 0. -/
  | mrkCntClear (t : Nat) (value : Nat)
  /-- CLP_CNT_CLEAR (R420): Sets every colour pipeline counter to 0. -/
  | clpCntClear (t : Nat) (value : Nat)
  /-- VCU_CNT_CLEAR (R449): Sets every HEVC counter to 0. -/
  | vcuCntClear (t : Nat) (value : Nat)
  /-- TBC_CNT_CLEAR (R486): Sets every Tombac counter to 0. -/
  | tbcCntClear (t : Nat) (value : Nat)
  /-- EVR_CNT_CLEAR (R503): Sets every event router counter to 0. -/
  | evrCntClear (t : Nat) (value : Nat)
  /-- DMA_CNT_CLEAR (R548): Sets every DMA counter to 0. -/
  | dmaCntClear (t : Nat) (value : Nat)
  /-- DMC_CNT_CLEAR (R547): Sets every DRAM controller counter to 0. -/
  | dmcCntClear (t : Nat) (value : Nat)
  /-- RCP_CNT_CLEAR (R587): Sets every RCP counter to 0. -/
  | rcpCntClear (t : Nat) (value : Nat)
  /-- MON_CNT_CLEAR (R649): Sets every monitor counter to 0. -/
  | monCntClear (t : Nat) (value : Nat)
  /-- NVS_CNT_CLEAR (R617): Sets NVS_WRITES to 0. -/
  | nvsCntClear (t : Nat) (value : Nat)
  /-- TMU_SNAP_GO (R247): Starts latching the TMU time into a link's snapshot. -/
  | tmuSnapGo (t : Nat) (link : Nat) (via : Nat)
  /-- TMU_SNAP_COMPLETE (R247): The TMU snapshot completes and VALID is set. -/
  | tmuSnapComplete (t : Nat) (link : Nat)
  /-- POS_SNAP_GO (R248): Latches all four axes and the TMU time in one SYS cycle. -/
  | posSnapGo (t : Nat) (link : Nat) (via : Nat)
  /-- RES_MIR_HEAD_WRITE (R332): Host releases mirrored result slots, moving the reader index. -/
  | resMirHeadWrite (t : Nat) (link : Nat) (queue : Nat) (value : Nat) (via : Nat)
  /-- CLP_HOST_HEAD_WRITE (R415): Host releases slots of a colour head's host ring. -/
  | clpHostHeadWrite (t : Nat) (head : Nat) (value : Nat) (via : Nat)
  /-- VCU_HOST_HEAD_WRITE (R443): Host releases room or slots of an HEVC host ring. -/
  | vcuHostHeadWrite (t : Nat) (link : Nat) (ctx : Nat) (value : Nat) (via : Nat)
  /-- TBC_HOST_HEAD_WRITE (R473): Host releases room of a Tombac head host ring. -/
  | tbcHostHeadWrite (t : Nat) (link : Nat) (head : Nat) (value : Nat) (via : Nat)
  /-- EVR_SW_FIRE (R502): Publishes a software event on a channel by register write. -/
  | evrSwFire (t : Nat) (value : Nat)
  /-- DMA_DOORBELL (R538): Starts a DMA channel by register write. -/
  | dmaDoorbell (t : Nat) (value : Nat)
  /-- SW_BLOCK_RESET (R561): RCP_SW_RESET with reach Block asserts a Block reset of a wrapper. -/
  | swBlockReset (t : Nat) (value : Nat)
  /-- SW_SYSTEM_RESET (R561): RCP_SW_RESET with reach System asserts a System reset, keeping DRAM if asked. -/
  | swSystemReset (t : Nat) (value : Nat)
  /-- SW_CHIP_RESET (R561): RCP_SW_RESET with reach Chip asserts a Chip reset. -/
  | swChipReset (t : Nat) (value : Nat)
  /-- SEQUENCE_HOLD_TIMEOUT (R71): A held command whose missing predecessors did not arrive in 100 ms is refused with E_SEQUENCE. -/
  | sequenceHoldTimeout (t : Nat)
  /-- SESSION_IDLE_TIMEOUT (R97): A session with no consumed command within its idle timeout closes. -/
  | sessionIdleTimeout (t : Nat)
  /-- LEASE_END (R101): The owner's lease ends and ownership becomes vacant. -/
  | leaseEnd (t : Nat)
  /-- SESSION_OPEN_KEEP_END (R106): The kept SESSION_OPEN reply is forgotten after 10 s. -/
  | sessionOpenKeepEnd (t : Nat)
  /-- APPLY_AT_DUE (R91): A queued command comes due at its key and is applied or discarded. -/
  | applyAtDue (t : Nat)
  /-- DRAIN_COMPLETE (R79): The drain completes and the device returns from DRAINING to ARMED. -/
  | drainComplete (t : Nat)
  /-- DRAIN_LIMIT (R79): The drain limit expires and every remaining component is closed TRUNCATED. -/
  | drainLimit (t : Nat)
  /-- FAULT_HOLD_EXPIRY (R641): The AON domain asserts the automatic reset after FAULT_HOLD. -/
  | faultHoldExpiry (t : Nat)
  /-- LINE (R132): A LINE packet of a stream arrives whole and is ordered, corrected, registered and stitched. -/
  | line (t : Nat) (pk : Pkt)
  /-- FRAME_START (R391): A FRAME_START packet arrives and begins a frame of its context. -/
  | frameStart (t : Nat) (pk : Pkt)
  /-- FRAME_END (R391): A FRAME_END packet arrives and ends its frame, repairing missing rows. -/
  | frameEnd (t : Nat) (pk : Pkt)
  /-- METADATA (R184): A METADATA packet arrives and may switch a bank through a metadata key. -/
  | metadata (t : Nat) (pk : Pkt)
  /-- REG_ECHO (R138): A head's REG_ECHO packet arrives and answers a register access. -/
  | regEcho (t : Nat) (pk : Pkt)
  /-- ECHO (R684): A head's ECHO arrives; after 16 the device forms D. -/
  | echo (t : Nat) (port : Nat) (tag : Nat) (turn : Nat) (rx : EchoRx)
  /-- LANE_ACK (R145): A head acknowledges a lane state change. -/
  | laneAck (t : Nat) (port : Nat) (state : Nat) (rate : Nat) (fec : Nat) (rx : AckRx)
  /-- FE_CAPTURE_TIMEOUT (R206): No line completes within 1 s of a capture and it is refused. -/
  | feCaptureTimeout (t : Nat) (stream : Nat)
  /-- PORT_UP (R149): A port's bring-up completes and the port becomes UP. -/
  | portUp (t : Nat) (port : Nat) (b : BringUp)
  /-- BRINGUP_TIMEOUT (R150): A port is not UP within 200 ms and ARM or PORT_PROBE is refused. -/
  | bringupTimeout (t : Nat) (port : Nat) (skew : Bool)
  /-- LINK_DOWN (R151): An UP port loses marker lock or its forwarded clock and enters DOWN. -/
  | linkDown (t : Nat) (port : Nat) (why : LinkLoss)
  /-- BRINGUP_RETRY (R151): Every 100 ms a DOWN port retries bring-up with stored coefficients. -/
  | bringupRetry (t : Nat) (port : Nat)
  /-- REG_ECHO_TIMEOUT (R138): No REG_ECHO within 1 ms and the command fails with E_DEVICE. -/
  | regEchoTimeout (t : Nat) (port : Nat)
  /-- ECHO_TIMEOUT (R685): No ECHO within 1 ms and LATENCY_MEASURE fails. -/
  | echoTimeout (t : Nat) (port : Nat)
  /-- TIME_MESSAGE_DUE (R137): A back-channel TIME message is sent at least once per millisecond. -/
  | timeMessageDue (t : Nat) (port : Nat)
  /-- QUALITY_UPDATE (R153): Each second the lane quality figures are updated and recalibration triggers judged. -/
  | qualityUpdate (t : Nat) (port : Nat) (q : List LaneQ)
  /-- RECAL_PERIOD (R155): A lane's recalibration period elapses. -/
  | recalPeriod (t : Nat) (port : Nat) (lane : Nat)
  /-- CAL_CANDIDATE_READY (R157): Shadow adaptation finishes and a commit marker is chosen or the candidate dropped. -/
  | calCandidateReady (t : Nat) (port : Nat) (mseq : Nat) (pred : List Nat) (coefs : List (List Int))
  /-- COEF_COMMIT (R157): At the chosen marker all affected lanes switch coefficients together. -/
  | coefCommit (t : Nat) (port : Nat) (corrected : Nat)
  /-- COEF_REVERT_CHECK (R157): 50 ms after a commit QF is compared and the commit may be reverted. -/
  | coefRevertCheck (t : Nat) (port : Nat) (qf : Nat)
  /-- PROVISIONAL_REMEASURE (R625): A provisional calibration's quality is re-measured within 50 ms. -/
  | provisionalRemeasure (t : Nat) (kind : Nat) (unit : Nat) (lane : Nat) (qf : Nat)
  /-- EYE_SCAN_DONE (R165): An eye scan completes and the offset-0 reply is sent. -/
  | eyeScanDone (t : Nat) (port : Nat) (points : List Nat)
  /-- LANE_STANDBY_TIME (R147): No trigger for the standby time moves a port to STANDBY. -/
  | laneStandbyTime (t : Nat) (port : Nat)
  /-- LANE_DORMANT_TIME (R147): No trigger for the dormant time moves a port to DORMANT. -/
  | laneDormantTime (t : Nat) (port : Nat)
  /-- ENCODER_EDGE (R208): An accepted quadrature transition moves the axis count. -/
  | encoderEdge (t : Nat) (axis : Nat) (a : Bool) (b : Bool)
  /-- Z_EDGE (R209): A rising Z edge is checked against N_z and may set an origin or latch. -/
  | zEdge (t : Nat) (z : ZChange)
  /-- SERIAL_SAMPLE (R210): The sample period expires and a serial frame is read. -/
  | serialSample (t : Nat) (axis : Nat)
  /-- SERIAL_FRAME (R211): A serial frame completes and is accepted or discarded. -/
  | serialFrame (t : Nat) (axis : Nat) (f : SerialFrame)
  /-- AXIS_FAULT_EXIT (R208): An axis in FAULT runs 10 ms without error and restarts with origin unset. -/
  | axisFaultExit (t : Nat) (axis : Nat)
  /-- OBSERVER_UPDATE (R215): The tracking observer updates at 1 MHz. -/
  | observerUpdate (t : Nat) (axis : Nat)
  /-- MOTION_STOP (R218): An axis's count has stayed within START_DIST over STOP_TIME. -/
  | motionStop (t : Nat) (axis : Nat)
  /-- TICK (R219): The interpolated position reaches a generator boundary and triggers are sent. -/
  | tick (t : Nat) (gen : Nat) (n : Int) (fwd : Bool)
  /-- EXPOSURE_LATCH (R222): At t_tick + E the position and time of the line are latched. -/
  | exposureLatch (t : Nat) (gen : Nat)
  /-- MATCH (R226): An axis crosses a compare entry and the channel applies its action. -/
  | matchEv (t : Nat) (ch : Nat) (k : Nat) (fwd : Bool)
  /-- CMP_PULSE_END (R226): A compare channel's pulse timer ends. -/
  | cmpPulseEnd (t : Nat) (ch : Nat)
  /-- LATCH_INPUT_EDGE (R229): An edge on a PLAT ball captures its latch. -/
  | latchInputEdge (t : Nat) (latch : Nat) (rising : Bool)
  /-- PTP_MESSAGE (R237): A PTP message arrives, is stamped and may yield an offset measurement. -/
  | ptpMessage (t : Nat) (m : PtpMsg)
  /-- PTP_TX_DUE (R237): A PTP message interval expires and the port sends its message. -/
  | ptpTxDue (t : Nat) (kind : Nat)
  /-- PPS_IN_EDGE (R240): A PPS_IN edge steps the counter once or supplies an offset measurement. -/
  | ppsInEdge (t : Nat)
  /-- SOURCE_LOSS (R236): No valid source for 3 s or PPS for 1.5 s puts the unit in HOLDOVER. -/
  | sourceLoss (t : Nat)
  /-- PPS_OUT_EDGE (R241): PPS_OUT rises at each second plus offset and falls after its width. -/
  | ppsOutEdge (t : Nat) (rise : Bool)
  /-- FIRE (R242): A time trigger fires at its time and may drive a pulse. -/
  | fire (t : Nat) (k : Nat)
  /-- TIO_CAPTURE (R244): An edge on a TIO input is captured in TCP's FIFO. -/
  | tioCapture (t : Nat) (k : Nat) (rising : Bool)
  /-- WEB_LINE_ARRIVAL (R255): A web line reaches a cluster's backlog or is skipped when full. -/
  | webLineArrival (t : Nat) (cluster : Nat) (verify : Bool)
  /-- LINE_ANALYSED (R271): A cluster finishes analysing a web line, closing and merging components. -/
  | lineAnalysed (t : Nat) (cluster : Nat) (verify : Bool) (poison : ElxPoison)
  /-- CLASSIFY_DONE (R279): A model finishes classifying a tile and the record and mark decision follow. -/
  | classifyDone (t : Nat) (cluster : Nat) (poison : Bool)
  /-- RECORD_WRITTEN (R321): The result writer writes a record into its queue ring and mirrors. -/
  | recordWritten (t : Nat)
  /-- CLUSTER_GATE (R47): A cluster with no strip for its idle time is gated. -/
  | clusterGate (t : Nat) (cluster : Nat)
  /-- CLUSTER_HANG (R645): A cluster hung 10 ms with lines waiting is Block reset. -/
  | clusterHang (t : Nat) (cluster : Nat)
  /-- MARK_DECISION (R359): A mark decision reaches the marking unit and is rasterised or listed pending. -/
  | markDecision (t : Nat)
  /-- FIRE_INSTANT (R353): The web axis reaches a head's fire instant and it is fired, dropped, skipped or held. -/
  | fireInstant (t : Nat) (head : Nat) (j : Int) (fwd : Bool)
  /-- PREHEAT_START (R356): The position reaches q_j − PRE_ADV and the pre-heat train begins. -/
  | preheatStart (t : Nat) (head : Nat) (j : Int)
  /-- MARK_FETCH_DONE (R368): Ring lines fetched by DMA enter a head's buffer. -/
  | markFetchDone (t : Nat) (head : Nat) (count : Nat) (poison : List Int)
  /-- LDACK_CHANGE (R371): The line controller's LDACK input changes. -/
  | ldackChange (t : Nat) (level : Bool)
  /-- REVREQ_RELEASE (R371): The position falls to q_jr − REV_MARGIN and REVREQ is deasserted. -/
  | revreqRelease (t : Nat)
  /-- STOP_TIMEOUT (R372): LDACK did not rise within STOP_TIMEOUT; requests are dropped. -/
  | stopTimeout (t : Nat)
  /-- SLOWREQ_RELEASE (R373): SLOWREQ is deasserted 10 ms after no cause holds. -/
  | slowreqRelease (t : Nat)
  /-- HEAD_TEMP_READ (R348): A head temperature read completes and limits are judged. -/
  | headTempRead (t : Nat) (head : Nat) (ok : Bool) (word : Nat)
  /-- EN_SETTLE_END (R346): EN_SETTLE after HEAD_EN rises expires and firing may begin. -/
  | enSettleEnd (t : Nat) (head : Nat)
  /-- SERVICE_FIRE_TICK (R355): A FIXED-paced service fire instant comes due. -/
  | serviceFireTick (t : Nat) (head : Nat)
  /-- CLP_FRAME_DONE (R404): The colour pipeline completes a frame and hands it to its heads. -/
  | clpFrameDone (t : Nat) (ctx : Nat) (poison : Bool)
  /-- LIVE_VIEW_FRAME (R419): Every 1/F the live view begins a frame of its latest lines. -/
  | liveViewFrame (t : Nat) (ctx : Nat)
  /-- ST2110_PACKET_DUE (R412): A paced ST 2110-20 packet is sent. -/
  | st2110PacketDue (t : Nat) (sender : Nat)
  /-- VCU_SLICE_DONE (R430): The codec completes a slice, writes its chunk and switches context. -/
  | vcuSliceDone (t : Nat) (ctx : Nat) (e : EncSlice) (d : DecSlice) (poison : Bool)
  /-- TBC_LINE_DONE (R453): The Tombac engine completes a line and passes to the highest ready source. -/
  | tbcLineDone (t : Nat) (bad : Bool)
  /-- PENDING_DELIVERY (R496): A pending event is delivered when its task input stops being busy. -/
  | pendingDelivery (t : Nat) (task : Nat)
  /-- DMA_TRANSFER_DONE (R540): A DMA read or write request completes or fails. -/
  | dmaTransferDone (t : Nat) (c : Nat) (ok : Bool) (n : Nat) (m : DmaMoved)
  /-- DMA_RETRY_WAIT (R541): A retry wait expires and the failing request is reissued. -/
  | dmaRetryWait (t : Nat) (c : Nat)
  /-- DESCRIPTOR_COMPLETE (R542): A descriptor's last write leaves the engine and write-back, event and interrupt follow. -/
  | descriptorComplete (t : Nat) (c : Nat)
  /-- FENCE_DONE (R543): A fence read completes and the descriptor completes. -/
  | fenceDone (t : Nat) (c : Nat) (ok : Bool)
  /-- PATROL_SCRUB (R521): The patrol scrub reads the next locations. -/
  | patrolScrub (t : Nat) (es : List EccFound)
  /-- REFRESH_DUE (R523): A same-bank refresh interval expires. -/
  | refreshDue (t : Nat) (c : Nat)
  /-- DIMM_TEMP_READ (R523): Every 32 ms DIMM temperatures are read and refresh and retraining judged. -/
  | dimmTempRead (t : Nat) (c : Nat) (temps : List Int)
  /-- SPD_HUB_TIMEOUT (R515): An SPD hub silent for 1 s fails its channel. -/
  | spdHubTimeout (t : Nat) (c : Nat)
  /-- NEIGHBOUR_REFRESH (R524): A scheduled neighbour refresh of an activated row is issued. -/
  | neighbourRefresh (t : Nat) (c : Nat)
  /-- DQS_DRIFT_READ (R527): Every 100 ms DQS oscillators are read and read delays adjusted. -/
  | dqsDriftRead (t : Nat) (c : Nat) (drift : Int)
  /-- RETRAIN_SLICE (R527): A retraining slice runs on a channel. -/
  | retrainSlice (t : Nat) (c : Nat)
  /-- RETRAIN_COMPLETE (R527): A retraining completes and new delays are adopted or old ones kept. -/
  | retrainComplete (t : Nat) (c : Nat) (qf : Nat) (temp : Nat)
  /-- THERMAL_SAMPLE (R639): Thermal sensors are read every 100 µs and warning and throttling judged. -/
  | thermalSample (t : Nat) (temps : List Int)
  /-- THROTTLE_ESCALATE (R639): A sensor 4 °C above T_throttle for 10 ms sets the divider to 4. -/
  | throttleEscalate (t : Nat)
  /-- THROTTLE_RESTORE (R639): Sensors below T_throttle − 3 °C for 100 ms restore a divider stage. -/
  | throttleRestore (t : Nat)
  /-- AGEING_MEASURE (R622): Every 600 s ageing pairs are measured and AGE_IDX may rise. -/
  | ageingMeasure (t : Nat) (shifts : List Nat)
  /-- MARGIN_GUARD (R631): Every 1 ms the margin guard checks WM and raises rails or divides. -/
  | marginGuard (t : Nat) (tmm : List Int)
  /-- DROOP_EVENT (R632): A droop detector records an excursion and may raise its rail. -/
  | droopEvent (t : Nat) (rail : Nat)
  /-- POWER_ESTIMATE (R624): Every 1 ms P_est is formed and the load class judged. -/
  | powerEstimate (t : Nat) (p : Nat)
  /-- PLAN_FORMED (R630): The margin planner finishes a plan and applies or holds it. -/
  | planFormed (t : Nat) (f : PlanScan)
  /-- AVS_COMMAND (R629): The next AVSBus setpoint command to a rail completes and is read back. -/
  | avsCommand (t : Nat) (ok : Bool)
  /-- TELEMETRY_POLL (R634): Every 10 ms regulators are read over PMBus. -/
  | telemetryPoll (t : Nat) (r : List (Nat × Nat × Int × Nat))
  /-- PMB_ALERT (R634): PMB_ALERT_N asserts and the regulators are read at once. -/
  | pmbAlert (t : Nat) (r : List (Nat × Nat × Int × Nat))
  /-- SENSOR_CROSS_CHECK (R637): Every 60 s sensors are cross-checked and a bad one marked. -/
  | sensorCrossCheck (t : Nat)
  /-- THERMAL_TRIP (R640): A trip comparator trips and asserts the THERM_TRIP reset source. -/
  | thermalTrip (t : Nat)
  /-- THERMAL_TRIP_END (R640): All comparators below 95 °C for 10 ms release the trip source. -/
  | thermalTripEnd (t : Nat)
  /-- VBAT_POWER_ON (R561): The backup domain powers on; a Full reset. -/
  | vbatPowerOn (t : Nat)
  /-- MAIN_POWER_ON (R669): The supervisor asserts and releases the main power-on source. -/
  | mainPowerOn (t : Nat) (on : Bool)
  /-- BROWNOUT (R669): A supervised rail below threshold for 1 µs asserts a Chip reset. -/
  | brownout (t : Nat) (on : Bool)
  /-- BACKUP_SWITCHOVER (R666): The backup domain switches between VDD_AON and VBAT. -/
  | backupSwitchover (t : Nat) (on : Bool)
  /-- RST_N (R561): RST_N low asserts a Chip reset source. -/
  | rstN (t : Nat) (low : Bool)
  /-- WATCHDOG_EXPIRY (R563): The management watchdog expires and asserts a System or Chip reset. -/
  | watchdogExpiry (t : Nat)
  /-- PCIE_RESET (R562): PCIe hot reset, link down or PERST_N resets the link function or the device. -/
  | pcieReset (t : Nat) (l : Nat) (on : Bool)
  /-- DEBUG_RESET (R561): The test and debug port asserts or releases a reset. -/
  | debugReset (t : Nat) (reach : Nat) (wrapper : Nat) (keep : Bool) (on : Bool)
  /-- FORCED_RELEASE (R580): The debug port forces a release before clocks are good, keeping wrappers closed. -/
  | forcedRelease (t : Nat)
  /-- REF_LOST (R644): REF loss is detected and a Chip reset held with heads forced off. -/
  | refLost (t : Nat)
  /-- PLL_UNLOCK (R559): A PLL loses lock and the reset of its row in R559 follows. -/
  | pllUnlock (t : Nat) (d : Nat)
  /-- CLOCK_MONITOR_BAD (R559): A domain monitor reports a cycle that is not good. -/
  | clockMonitorBad (t : Nat) (d : Nat)
  /-- CLOCK_MONITOR_GOOD (R557): A domain monitor reports its clock good after 64 good cycles. -/
  | clockMonitorGood (t : Nat) (d : Nat)
  /-- FORWARDED_CLOCK_LOSS (R553): A port's forwarded clock is lost and its domain moves to the substitute. -/
  | forwardedClockLoss (t : Nat) (port : Nat)
  /-- XTAL_QUALIFY (R556): The crystal shows 64 good cycles and AON moves to it. -/
  | xtalQualify (t : Nat)
  /-- XTAL_FAIL (R558): The crystal fails or does not qualify and AON runs on the RC. -/
  | xtalFail (t : Nat)
  /-- DEFERRAL_END (R570): The flash reports ready, the eFuse pulse ends or 5 ms pass, and reset entry continues. -/
  | deferralEnd (t : Nat)
  /-- RESET_RELEASE (R575): Every overlapping source is released and the release sequence of the widest reach runs. -/
  | resetRelease (t : Nat)
  /-- BLOCK_RESET (R584): A wrapper isolates its block and holds it in reset. -/
  | blockReset (t : Nat) (w : Nat)
  /-- BLOCK_RELEASE (R578): A Block reset is released and the block restores its configuration. -/
  | blockRelease (t : Nat) (w : Nat)
  /-- WRAPPER_OPEN (R578): The block's restore completes and its wrapper opens. -/
  | wrapperOpen (t : Nat) (w : Nat)
  /-- SLEEP_WAKE (R49): A wake cause ends SLEEP and the device returns to STANDBY. -/
  | sleepWake (t : Nat)
  /-- BOOT_ROM_START (R603): Management core 0 starts the boot ROM, chooses and checks a slot and starts firmware. -/
  | bootRomStart (t : Nat) (flash : Option Nat) (factoryOk : Bool) (found : RomFinds)
  /-- DRAM_READY (R514): DRAM initialisation and training or self-refresh exit complete during boot. -/
  | dramReady (t : Nat) (fs : List DramFind)
  /-- BOOT_COMPLETE (R603): Engines and codecs are loaded, ports come up and the device reaches STANDBY. -/
  | bootComplete (t : Nat) (crcOk : Bool)
  /-- TRIAL_CONFIRM (R609): A trial firmware's confirmation conditions hold and CONFIRMED is written. -/
  | trialConfirm (t : Nat) (perst : Nat) (mgmt : Bool)
  /-- CONFIRMATION_WINDOW_END (R610): The window ends unconfirmed and a Chip reset returns to the previous slot. -/
  | confirmationWindowEnd (t : Nat)
  /-- RECOVERY_RESET (R605): 100 ms after a successful FW_STAGE_END in recovery a Chip reset is asserted. -/
  | recoveryReset (t : Nat)
  /-- NVS_WRITE_COMPLETE (R598): A two-copy flash record write finishes or fails and the next queued write starts. -/
  | nvsWriteComplete (t : Nat) (ok : Bool) (second : Bool)
  /-- EFUSE_PULSE (R591): An eFuse program pulse ends and the bit is read back. -/
  | efusePulse (t : Nat) (ok : Bool)
  /-- PCIE_LINK_TRAINED (R603): A PCIe host link finishes training and becomes usable for queue pairs and confirmation. -/
  | pcieLinkTrained (t : Nat) (l : Nat)
  /-- DDR_ALERT (R515): DDR_ALERT_N reports a command/address parity error, which is retried and may fail the channel. -/
  | ddrAlert (t : Nat) (c : Nat) (addr : Nat) (persists : Bool)
  /-- COALESCING_INTERVAL_END (R332): A mirror's coalescing interval ends and the pending MSI-X vector 65 signal for records written meanwhile is sent. -/
  | coalescingIntervalEnd (t : Nat) (link : Nat) (queue : Nat)
  /-- MAIN_PULSE_END (R345): A head's main pulse of width W_MAIN ends, MH_FIRE falls and the next shift may start. -/
  | mainPulseEnd (t : Nat) (head : Nat)
  /-- TIO_PULSE_END (R242): A time trigger's output pulse on TIO[k] ends and the ball returns low. -/
  | tioPulseEnd (t : Nat) (k : Nat)
  /-- DIAG_RESET_ASSERT (R652): 10 ms after a DIAG_RESET reply the requested Block, System or Chip reset is asserted. -/
  | diagResetAssert (t : Nat)
  /-- FLASH_READY (R606): The flash finishes erasing or programming staging sectors, and FW_STAGE_BEGIN or FW_STAGE_WRITE replies. -/
  | flashReady (t : Nat) (ok : Bool)
  deriving DecidableEq, Repr

end Sys2Proof
end

