-- ==== Sys2Proof/Config.lean ====
section
/-! DEFINITION. Sys2Proof/Config.lean: the values the manual leaves open. Each is a constant without a body, so nothing
can be proved of the value it has; `n` is the counter `State.free`, which every use advances (log 3). -/

namespace Sys2Proof.Config

/-- A value the manual does not fix, as a natural number (log 3). -/
opaque freeNat : Nat → Nat

/-- A value the manual does not fix, as an integer (log 3). -/
opaque freeInt : Nat → Int

/-- A string of bytes the manual does not fix: the counter, then its length (log 3). -/
opaque freeBytes : Nat → Nat → List (BitVec 8)

/-- Whether an image's signature verifies under the key the manual's rule chooses (R602): a digest of the image's bytes
and the key slot (log 3, log 20). -/
opaque signatureOk : List Nat → Nat → Bool

/-- Whether SHA-384 of a public key's 96 bytes equals the factory-programmed hash of a key slot (R589, R602, log 20). -/
opaque keyMatches : List Nat → Nat → Bool

/-- A byte of the eFuse that the factory writes, by its offset (R589, log 52). -/
opaque efuseByte : Nat → BitVec 8

/-- Retries of a failing descriptor fetch, by DMA channel: no descriptor gives its RETRY yet (R541, log 53). -/
opaque fetchRetries : Nat → Nat

/-- Tile pixels that the cost estimator counts for a TILE_CUT in mode BBOX with these margins (R260, log 32). -/
opaque bboxTilePixels : Nat → Nat → Nat

/-- Expected dots per second of a verification graph's DOT_MEASURE in the cost estimator (R382, log 32). -/
opaque dotRate : Nat → Nat

/-- Bytes per second that the input backlog adds to DRAM_LOAD, by the web's pixels per second (R285, log 32). -/
opaque backlogTraffic : Nat → Nat

/-- Bytes per second that the feature records of open components add to DRAM_LOAD, by the declared record rate (R285, log 32). -/
opaque featureTraffic : Nat → Nat

/-- The line rate of ETH[0] and ETH[1] in Mbit/s, which the manual leaves to the link: 0 stands for 25,000, 1 for 50,000 and any
other value for 100,000 (R412, log 41). -/
opaque ethRate : Nat → Nat

/-- The session description of an ST 2110-20 sender, by the sender and the numbers of its configuration (R421, log 42). -/
opaque sdpText : Nat → List Nat → List (BitVec 8)

/-- The power in 0.1 W that the factory-calibrated model predicts for every block at full load at Tj = 105 °C, by ENG MHz and the
three setpoints in mV (R627, log 57). -/
opaque pPred : Nat → List Nat → Nat

/-- Bytes that ARM reserves in DRAM for buffers whose sizes the manual does not give, by pixels of the buffered frames, padded pixels of
the codec contexts and web columns × planes (R341, R513, log 59). -/
opaque armReserve : Nat → Nat → Nat → Nat

/-- The scrambler's register as a back-channel starts, by port and the instant of the start (R122, log 205). -/
opaque scrambleReg : Nat → Nat → BitVec 58

/-- MSEQ of a port's first back-channel MARKER (R125, log 205). -/
opaque firstMseq : Nat → BitVec 32

/-- The Ethernet address of a port, by port (R237, log 214). -/
opaque macAddr : Nat → BitVec 48

/-- The IPv4 link-local address that a port without a stored network configuration takes, its low 16 bits (R615, log 214). -/
opaque linkLocal : Nat → BitVec 16

/-- Elements of the encoder's parameter sets and slice headers that H.265 asks for and the manual does not fix (log 40): 0 to 2 the VPS, SPS and PPS
numbers, 3 the four source and constraint flags, 4 log2_max_pic_order_cnt_lsb, 5 and 6 the decoded picture buffer and the latency, 7 video_format, 8
neutral_chroma_indication_flag, 9 cabac_init_present_flag, 10 and 11 the default numbers of references, 12 init_qp, 13 and 14 cu_qp_delta, 15 to 17 the
chroma QP offsets, 18 the loop filter across slices, 19 the parallel merge level, 20 no_output_of_prior_pics_flag. -/
opaque streamField : Nat → BitVec 8

/-- The number of short-term reference picture sets of the SPS, and the sets, by structure and mini-GOP (R433, log 40). -/
opaque refSets : Nat → Nat → List Bool

/-- Where the user buffer lies in DRAM above the device's own region, in units of 64 bytes, by the sizes of the two buffers in MiB (R513, log 146). -/
opaque bufferPlace : Nat → Nat → Nat

/-- The interval of same-bank refreshes in ps that JESD79-5 requires of a DIMM up to 85 °C, by its width and density codes (R523, log 228). -/
opaque refreshInterval : Nat → Nat → Nat

/-- The samples that fill the last pgroup of a row where its pixels do not (R412, log 221). -/
opaque padSample : BitVec 16

/-- The IPv6 address of a port without a stored network configuration (log 214). -/
opaque linkLocal6 : Nat → BitVec 128

/-- The Ethernet address that a port has learnt for an IP destination (log 214). -/
opaque neighbour : Nat → List Nat → BitVec 48

/-- Fields of an IP header that neither the manual nor its standards fix: 0 type of service, 1 and 2 flow label, 3 identification,
4 hop limit of PTP (log 214). -/
opaque ipOpen : Nat → BitVec 16

/-- The clock identity of the PTP port, and its clock class, accuracy and variance (R237, log 13). -/
opaque clockIdentity : BitVec 64
opaque clockQuality : BitVec 32

/-- The boot ROM's version, which IDENTIFY reports (R111, log 65). -/
opaque bootRomVersion : Nat

end Sys2Proof.Config
end

