-- ==== Sys2Proof/Machine/State.lean ====
section
/-! DEFINITION. Sys2Proof/Machine/State.lean: everything the manual gives the AK-9640, as plain data.
One structure per block of R27; a field's default is its value at reset (a value the manual does not give is named in
the assumption log). Register fields without a home in another structure live in `State.regs`. -/

namespace Sys2Proof.Machine

/-- Why a step stops with a fault. No rule of the manual stops the block; the constructor is raised by nothing and keeps
the type inhabited, which is safe. -/
inductive Fault where
  /-- Raised by no meaning (safe: the block never stops with a fault). -/
  | none
  deriving DecidableEq, Repr

/-- Why a step is refused. -/
inductive Refusal where
  /-- Raised by an arm of `exec` for a command that has no meaning in the model (safe: nothing is claimed of it). -/
  | notModelled (mnemonic : String)
  deriving DecidableEq, Repr

/-- Device states (R69, R76). -/
inductive DevState where
  | boot | standby | configured | armed | running | draining | fault | update
  deriving DecidableEq, Repr

/-- One value of a reply's or notification's parameter area (R680). -/
inductive RV where
  /-- A number of `bytes` bytes, aligned to its own size. -/
  | num (bytes : Nat) (v : Int)
  /-- A block, record or string of bytes, starting on a 4-byte boundary. -/
  | block (xs : List Nat)
  /-- Padding to a multiple of `n` (start or end of a list entry), written 0. -/
  | align (n : Nat)
  deriving DecidableEq, Repr

/-- A reply or notification packet (R65): the fields that are not constants. `note` is the NOTIFY flag. -/
structure Reply where
  op : Nat
  session : Nat
  seq : Nat
  tag : Nat
  status : Nat
  state : Nat
  adj : Nat
  note : Bool
  ps : List RV
  deriving DecidableEq, Repr

/-- Whom an operation still in progress answers: the command's session, sequence, tag, opcode and route (R55, R71, R74). -/
structure Ticket where
  session : Nat
  seq : Nat
  tag : Nat
  op : Nat
  via : Via
  silent : Bool
  adj : Nat
  /-- The command came from the apply-at queue: its outcome is an APPLIED_NOTIFY (R91). -/
  queued : Bool
  late : Bool
  /-- The key of an apply-at block of key POSITION (R87, R259). -/
  pos : Option Int := none
  /-- Its place in sequencer order, for a command of the apply-at queue (R54, R92). -/
  ord : Nat := 0
  deriving DecidableEq, Repr

/-- What has left the block, newest first: the model's record of its outputs. -/
inductive Out where
  /-- A reply packet, on a UDP transport (R55). -/
  | reply (via : Via) (r : Reply)
  /-- A notification packet on a UDP transport (R81). -/
  | note (via : Via) (r : Reply)
  /-- Bytes written to host memory through a host link. -/
  | hostWr (link addr : Nat) (bytes : List Nat)
  /-- `len` bytes of 0 written to host memory through a host link. -/
  | hostFill (link addr len : Nat)
  /-- MSI-X vector `vec` of a link. -/
  | msix (link vec : Nat)
  /-- A CTRL block payload placed in the back-channel slot of a port that starts at `t` ps (R134, R141). -/
  | back (port t : Nat) (bytes : List Nat)
  /-- The 132 bits of a back-channel block as sent, the first bit the least significant, from `t` ps on (R120, R122, R125). -/
  | block (port t bits : Nat)
  /-- A publication of an event source (R490). -/
  | event (source : Nat)
  /-- A level on a ball: the name's code of `Pin`, its index and level (R226, R241, R242, R345, R371). -/
  | pin (ball index : Nat) (level : Bool)
  /-- A frame on an Ethernet or management port: kind (0 PTP, 1 ST 2110-20) and its bytes. -/
  | frame (port kind : Nat) (bytes : List Nat)
  /-- One command word on AVSBus or PMBus: bus, device, value (R629, R634). -/
  | bus (bus dev value : Nat)
  /-- A main pulse of a head (R345, R353): head, fire instant, and the bits its firing register holds, in shift order. -/
  | fired (head : Nat) (line : Int) (dots : List Nat)
  /-- A shift on MH_DAT and MH_CLK (R344, R345): head, fire instant, its start in ps, the bus clock in kHz, and the bits. -/
  | shift (head : Nat) (line : Int) (start khz : Nat) (dots : List Nat)
  /-- A pulse on MH_LATCH (R345): head, its rise in ps, its width in ns. -/
  | latch (head start width : Nat)
  /-- A temperature read of a head (R348): MH_TSCS_N is low for 16 cycles of MH_TSCK from `start` ps on, at `khz`. -/
  | spi (head start khz : Nat)
  /-- Bytes of host memory read through a host link (R540, R543). -/
  | hostRd (link addr len : Nat)
  /-- A command to a DRAM channel's DIMMs that changes no contents (R523 to R525, R527, R533): 0 same-bank refresh, 1 directed neighbour refresh, 2 retraining
  slice, 3 RFM, 4 activate and precharge of a row's neighbours, 5 precharge of all banks and entry to self-refresh, 6 exit from it; `place` names DIMM, rank and bank as (DIMM × 2 + rank) × 32 + bank. -/
  | dram (ch kind place row : Nat)
  /-- Bytes programmed into the flash from an address on, after `erase` bytes from there have been erased (R596 to R598, R606, R607). -/
  | flash (addr erase : Nat) (bytes : List Nat)
  /-- A pre-heat train for a fire instant (R356): head, instant, start and widths in ns. -/
  | preheat (head : Nat) (line : Int) (start : Nat) (widths : List Nat)
  deriving DecidableEq, Repr

/-- An open session (R70 to R72, R81, R96, R97, R105). -/
structure Sess where
  quiet : Bool
  idle : Nat
  last : Nat
  mask : Nat := 0
  noteNo : Nat := 0
  seq : Nat := 0
  /-- Retained replies of the last 16 consumed numbers, newest number first; none while a reply is awaited (R72). -/
  kept : List (Nat × Option Reply) := []
  /-- Held commands with the instant their 100 ms end and whom each answers, in order of arrival (R71). -/
  held : List (Nat × Instr × Ticket) := []
  /-- Route of the most recent accepted command (R55). -/
  via : Via
  deriving DecidableEq, Repr

/-- A queued apply-at command (R88 to R92): the command, whom it answers, whether its key had passed on arrival, its apply-at block, and
its fields as clamped on acceptance. -/
structure Queued where
  i : Instr
  tk : Ticket
  late : Bool
  blk : AtBlk
  vals : List (List Int)
  deriving DecidableEq, Repr

/-- A kept SESSION_OPEN reply (R106). -/
structure KeptOpen where
  via : Via
  tag : Nat
  upTo : Nat
  r : Reply
  deriving DecidableEq, Repr

/-- A completion that waits for room in its pair's ring (R62, R64). -/
structure Compl where
  r : Reply
  addr : Nat
  cap : Nat
  deriving DecidableEq, Repr

/-- A PCIe queue pair (R59 to R64, R111). -/
structure QPair where
  entries : Nat
  sq : Nat
  cq : Nat
  area : Nat
  sqHead : Nat := 0
  sqTail : Nat := 0
  cqTail : Nat := 0
  doneHead : Nat := 0
  used : Nat := 0
  phase : Bool := true
  waiting : List Compl := []
  /-- QUEUE_DELETE waits for its pending completions to be written (R111). -/
  closing : Bool := false
  deriving DecidableEq, Repr

/-- Device state, sessions, ownership, the apply-at queue and the network configuration (chapter 02). -/
structure Dev where
  /-- Ordering code of the eFuses: true for AK-9640-HA (R2, R108; log 2). -/
  ha : Bool := false
  state : DevState := .boot
  faultClass : Nat := 0
  sessions : Tab Sess := []
  owner : Option Nat := none
  lease : Nat := 0
  leaseEnd : Nat := 0
  opens : List KeptOpen := []
  queue : List Queued := []
  /-- Commands that have entered the apply-at queue (R92). -/
  order : Nat := 0
  /-- ARM accepted and not yet answered: its ticket, and the ports it brings up, each with whether a probe had left it UP (R150, R682). -/
  arming : Option (Ticket × List (Nat × Bool)) := none
  /-- ENG clock, kHz, at which the configuration was admitted (R39, R40). -/
  admitKhz : Nat := 0
  /-- The instant of the stop point and the end of the drain limit while draining (R79). -/
  drain : Option (Nat × Nat) := none
  /-- The web axis position at the stop point (R79). -/
  stopMd : Int := 0
  /-- The instant at which START took effect, while RUNNING or DRAINING (R689). -/
  startAt : Option Nat := none
  asleep : Bool := false
  /-- Register writes that the PCIe links hold until the device has left SLEEP, oldest first: link, address, value (R49; log 26). -/
  posted : List (Nat × Nat × Nat) := []
  /-- Links that have trained (R111, R603). -/
  trained : List Nat := []
  net : Tab PNetConfig := []
  pairs : Tab QPair := []
  /-- The session and tag of the command whose effect is being carried out: the notifications it causes echo the tag, and a LINK_NOTIFY
goes to the session as well (R74, R683; log 201). -/
  cause : Option (Nat × Nat) := none
  deriving DecidableEq, Repr

/-- The lock of a data lane's receiver (R124): codeword lock with its runs, block lock with the run of valid headers and the validity of
the last 64, newest first, marker lock with the blocks since the last marker's place and the markers missed in a row, the last marker
seen before lock with the blocks since, and the last markers' MSEQ and arrival in ps (R127). -/
structure LaneRx where
  cw : Bool := false
  cwGood : Nat := 0
  cwBad : Nat := 0
  blk : Bool := false
  hdrRun : Nat := 0
  hdrs : List Bool := []
  mlk : Bool := false
  pos : Nat := 0
  miss : Nat := 0
  seen : Option (Nat × Nat) := none
  marks : List (Nat × Nat) := []
  /-- LANE of its markers, and whether its polarity is inverted (R118). -/
  id : Nat := 0
  inv : Bool := false
  /-- PTS of its last marker, and the marker's arrival in ps (R127). -/
  pts : Option (Nat × Nat) := none
  deriving DecidableEq, Repr

/-- A data lane of a camera port (R118, R153, R156, R161). Coefficients are in 1/65,536 of their range (log 11). -/
structure Lane where
  phys : Nat := 0
  polInv : Bool := false
  locked : Bool := false
  prov : Bool := false
  qf : Nat := 0
  snr : Nat := 0
  eyeH : Nat := 0
  eyeW : Nat := 0
  /-- Receiver temperature in 0.01 °C, and that of the coefficient set in use with its load class (R155, R156). -/
  temp : Int := 0
  setTemp : Int := 0
  setClass : Nat := 0
  coef : List Int := []
  /-- The set before the last commit, with its temperature, class and flag (R156, R157). -/
  prev : List Int := []
  prevTemp : Int := 0
  prevClass : Nat := 0
  prevProv : Bool := false
  rx : LaneRx := {}
  /-- The TMU time at which its last marker arrived less the marker's PTS, in ns: the device's cross-check of the measured latency (R127; log 231). -/
  lag : Option Int := none
  deriving DecidableEq, Repr

/-- A recalibration in progress on a port (R157 to R160). -/
structure Recal where
  lanes : Nat
  target : List (Nat × List Int) := []
  mseq : Nat := 0
  /-- 0 adapting, 1 commit scheduled, 2 committed and watched for 50 ms, 3 revert scheduled. -/
  stage : Nat := 0
  qfBefore : Nat := 0
  /-- QF over the 50 ms after the commit, where it is reverted (R157). -/
  qfAfter : Nat := 0
  /-- A first commit of a split move has been made (R158). -/
  begun : Bool := false
  /-- Lanes named by a CAL_RUN that waits for the scheduled commit (R160). -/
  next : Nat := 0
  /-- Session and tag of the CAL_RUN that asked for it, and of the one that waits (R74, R164). -/
  cause : Option (Nat × Nat) := none
  nextCause : Option (Nat × Nat) := none
  deriving DecidableEq, Repr

/-- A head register access in progress (R138), or the reading of HD_MAGIC to HD_FORMATS for PORT_PROBE with what has been read (R149). -/
structure RegAcc where
  tk : Ticket
  tag : Nat
  deadline : Nat
  probe : Option (List Nat) := none
  /-- The lane state to which the port returns after such a reading. -/
  mode : Nat := 0
  deriving DecidableEq, Repr

/-- Echo round trips in progress for LATENCY_MEASURE: RTT and TURN of those completed, oldest first (R684, R685). -/
structure EchoRun where
  tk : Ticket
  got : List (Nat × Nat) := []
  deadline : Nat
  deriving DecidableEq, Repr

/-- An eye scan in progress (R154, R165), and the offset-0 command that waits for it. -/
structure EyeScan where
  lane : Nat
  eye : Nat
  tk : Ticket
  length : Nat
  deriving DecidableEq, Repr

/-- Why a port is in bring-up (R149 to R151). -/
inductive Bring where
  | arm
  | probe (tk : Ticket)
  | retry
  | reset
  deriving DecidableEq, Repr

/-- A trigger outstanding for a stream (R132): the line it carries and its generator and exposure instant. -/
structure Trig where
  gen : Nat
  line : Int
  tExp : Nat
  deriving DecidableEq, Repr

/-- A camera port (chapter 03). -/
structure Port where
  link : Nat := 0
  rate : Nat := 0
  fec : Nat := 0
  nLanes : Nat := 0
  clkOk : Bool := false
  deskewed : Bool := false
  /-- Lane state: 0 ACTIVE, 1 STANDBY, 2 DORMANT, 3 off. -/
  mode : Nat := 3
  lanes : List Lane := [{}, {}, {}, {}]
  /-- D without TRIM, ps, and whether D has been set since the registers were last cleared (R161, R684). -/
  d0 : Int := 0
  dSet : Bool := false
  /-- The lanes of the port, which is opened or has been brought up, are off while it is not UP (R161). -/
  off : Bool := false
  /-- Generators that have not ticked since D changed, each with the D it used (R166). -/
  dOld : Tab Int := []
  head : List Nat := []
  /-- The instant at which the back-channel started, none while it is silent: slot k begins 12.8 ns × k later (R149). -/
  grid : Option Nat := none
  /-- Slots that TRIGGERs have taken, newest first (R141). -/
  slots : List Nat := []
  /-- CTRL messages that wait for a slot, oldest first: the slot from which it may go, its type and its fields (R141). Those of a TIME
are formed at its slot (R137). -/
  ctl : List (Nat × Nat × List Nat) := []
  /-- The slot after the last CTRL message sent. -/
  ctlNext : Nat := 0
  /-- Payloads placed in slots that have not begun. -/
  placed : List (Nat × List Nat) := []
  /-- The scrambler's register at the slot after the last message sent, and that slot (R122; log 205). -/
  scr : Nat := 0
  sent : Nat := 0
  lastTrig : Nat := 0
  acc : Option RegAcc := none
  accTag : Nat := 0
  echo : Option EchoRun := none
  bring : Option (Bring × Nat) := none
  /-- The earliest instant of the next retry of bring-up (R151). -/
  retryAt : Nat := 0
  scan : Option EyeScan := none
  /-- Points of the scan started last, per lane × 3 + eye, once it is complete (R165). -/
  scans : Tab (List Nat) := []
  recal : Option Recal := none
  noRetry : Bool := false
  /-- Outstanding triggers per stream, oldest first, and the next index of a free-running stream (R132). -/
  trigs : Tab (List Trig) := []
  next : Tab Nat := []
  /-- Newest line index and newest frame index received per stream, for apply-at keys (R90, R417). -/
  seen : Tab Nat := []
  frames : Tab Nat := []
  deriving DecidableEq, Repr

/-- The camera ports together (R142, R163). -/
structure Lnk where
  ports : List Port := List.replicate 16 {}
  /-- E in use, ns, chosen at the last ARM (R142, R686). -/
  eUse : Nat := 2000
  /-- Rates and lane counts for which coefficients of a port are stored (R149): port, rate. -/
  stored : List (Nat × Nat) := []
  /-- When a LANE_COEF record of a lane (port × 4 + lane) was last written (R614). -/
  coefAt : Tab Nat := []
  deriving DecidableEq, Repr

/-- What the front end knows of a line of a stream (R190). -/
inductive LineSt where
  | waiting
  | lost
  | got (px : List Nat)
  deriving DecidableEq, Repr

/-- A line of a stream's generator: its index, its exposure instant, its position u in P / 256 (R188), and what was
received. -/
structure FSlot where
  n : Int
  t : Nat
  u : Int
  st : LineSt
  deriving DecidableEq, Repr

/-- A coefficient bank of a stream (R176, R182): entries other than O = 0, G = 16,384, D = GOOD (log 6). -/
structure CoefBank where
  o : Tab Int := []
  g : Tab Nat := []
  d : Tab Nat := []
  deriving DecidableEq, Repr

/-- The shading tracker of a stream (R178 to R181): factors in use, the window's count and sum per group and its lines, and
factors that apply once one more line has passed. -/
structure Shade where
  sg : List Nat := []
  cnt : List Nat := []
  sum : List Nat := []
  lines : Nat := 0
  next : Option (Nat × List Nat) := none
  deriving DecidableEq, Repr

/-- A pending bank switch of a stream at a line (R183, R184, R186), in order of arrival. -/
structure BankPend where
  stream : Nat
  line : Nat
  bank : Nat
  /-- The number of its REG_WRITE or METADATA in order of arrival (R186). -/
  seq : Nat
  /-- It takes effect at the next line of its stream, whatever that is (R184). -/
  next : Bool := false
  deriving DecidableEq, Repr

/-- A setting-latency entry that waits for the next TRIGGER of its port, or at key 1,000 + stream for the next frame of an area stream
(R183, R417). -/
structure Armed where
  key : Nat
  entry : Nat
  seq : Nat
  deriving DecidableEq, Repr

/-- A capture of a stream and stage (R206). -/
structure Capture where
  tk : Option Ticket
  length : Nat
  deadline : Nat
  bytes : Option (List Nat)
  deriving DecidableEq, Repr

/-- A web line with its tag (R201): index, strip, LOST mask, SHORT, TMU seconds and ns, whether the web graph restarts
before it (R258), whether its strip ends with it, whether the strip before it was closed early (R192), and its planes;
then its number in order of entry, the graph contents in force for it (R259) and its web graph slot. -/
structure WebLine where
  n : Int
  strip : Int
  lost : Nat
  short : Bool
  sec : Nat
  ns : Nat
  restart : Bool
  stripEnd : Bool
  /-- The first line of a strip (R192). -/
  first : Bool := false
  planes : List (List Nat) := []
  /-- Of a line of the verification port, the web axis position at its exposure (R380). -/
  q : Int := 0
  ser : Nat := 0
  ver : Nat := 0
  slot : Option Nat := none
  deriving DecidableEq, Repr

/-- A line of the verification port that is not yet whole (R380): generator, line, exposure instant, the web axis position and
TMU time at its exposure, and the lines of its streams that have arrived. -/
structure VSlot where
  g : Nat
  n : Int
  t : Nat
  q : Int
  sec : Nat
  ns : Nat
  px : Tab (List Nat) := []
  deriving DecidableEq, Repr

/-- The front end (chapter 04). -/
structure Fep where
  coef : Tab CoefBank := []
  bank : Tab Nat := []
  shade : Tab Shade := []
  pend : List BankPend := []
  /-- Banks named by FE_BANK_SELECT that take effect at the next line of a stream, after the switches of `pend` (R182, R186). -/
  sel : Tab Nat := []
  armed : List Armed := []
  /-- REG_WRITEs that matched an entry and METADATA packets that switch, counted as they come (R186). -/
  arrivals : Nat := 0
  /-- Lines in each lane's input buffer: when each leaves, and its bytes (R172). -/
  laneQ : Tab (List (Nat × Nat)) := []
  hist : Tab (List FSlot) := []
  prev : Tab (List Nat) := []
  adv : Option Int := none
  /-- Exposure positions with their TMU time, newest first (R201, R222). -/
  trigQ : List (Int × Nat × Nat) := []
  hwm : Option Int := none
  strip : Option Int := none
  stripShort : Bool := false
  /-- The next web line entered is the first after START or a change of origin; it restarts the web graph (R192, R258). -/
  fresh : Bool := true
  restart : Bool := true
  /-- Every web line up to the stop point has been analysed, and the components open then are closed (R79). -/
  ended : Bool := false
  /-- Newest line corrected per stream, for METADATA (R184). -/
  seen : Tab Nat := []
  caps : Tab Capture := []
  vslots : List VSlot := []
  deriving DecidableEq, Repr

/-- A pending origin (R223): its md0, mode and latch. -/
structure PendO where
  md0 : Int
  mode : Nat
  latch : Nat
  deriving DecidableEq, Repr

/-- A position axis (R207 to R218, R688). -/
structure Axis where
  /-- 0 off, 1 running, 2 FAULT. -/
  state : Nat := 0
  count : Int := 0
  /-- Accepted levels of A and B (R208). -/
  la : Bool := false
  lb : Bool := false
  /-- Times of the latest edge or sample and of the one before, and the signs of their moves (R213). -/
  te : Option Nat := none
  tp : Option Nat := none
  de : Int := 1
  dp : Int := 0
  /-- The instant of the last edge or frame, and the position 2 ns before it, in 1/65,536 counts (R219). -/
  since : Nat := 0
  before : Int := 0
  /-- The instant at which it entered FAULT and holds its position (R208, R211). -/
  heldAt : Option Nat := none
  md0 : Int := 0
  ref : Int := 0
  origin : Bool := false
  pendO : Option PendO := none
  rev : Bool := false
  ext : Int := 0
  moving : Bool := false
  stopCount : Int := 0
  /-- Counts at past edges within STOP_TIME, newest first (R218). -/
  trail : List (Nat × Int) := []
  lastZ : Option (Int × Int) := none
  illegal : Nat := 0
  zMis : Nat := 0
  serErr : Nat := 0
  badTimes : List Nat := []
  lastBad : Nat := 0
  word : Option Int := none
  wraps : Int := 0
  discards : Nat := 0
  sampleAt : Nat := 0
  speed : Int := 0
  acc : Int := 0
  /-- The observer's states in 2^-48 nm, nm/s and nm/s², and the instant of its last update (R215). -/
  obsP : Int := 0
  obsV : Int := 0
  obsA : Int := 0
  obsAt : Option Nat := none
  deriving DecidableEq, Repr

/-- A line-trigger generator (R219 to R221). -/
structure Ltg where
  lastTick : Option Nat := none
  top : Option Int := none
  lastN : Option Int := none
  skip : Nat := 0
  deriving DecidableEq, Repr

/-- An entry of the compare list memory (R225). -/
structure CmpEnt where
  md : Int
  action : Nat
  dir : Nat
  deriving DecidableEq, Repr

/-- A compare channel (R226 to R228): its pointer into the list, PCMP, and the end of its pulse. -/
structure CmpCh where
  ptr : Nat := 0
  out : Bool := false
  pulseEnd : Option Nat := none
  /-- The SYS cycle of the last crossings, their direction, where the pointer stood and PCMP was as it began, and the entries crossed in it, in list order. -/
  cyc : Option Nat := none
  fwd : Bool := true
  ptr0 : Nat := 0
  out0 : Bool := false
  done : List Nat := []
  deriving DecidableEq, Repr

/-- A latch capture (R229): count, fraction, MD, TMU seconds and ns. -/
structure LatCap where
  count : Int
  frac : Nat
  md : Int
  sec : Nat
  ns : Nat
  deriving DecidableEq, Repr

/-- A position latch (R229, R230), oldest capture first. -/
structure Latch where
  fifo : List LatCap := []
  ovfl : Nat := 0
  deriving DecidableEq, Repr

/-- An exposure that is due: generator, line, instant, whether the boundary was not fired, and whether the line can enter the web: not where
the web axis has turned to reverse or taken a new origin since (R189, R192, R221, R222). -/
structure Expo where
  gen : Nat
  line : Int
  t : Nat
  skip : Bool
  web : Bool := true
  deriving DecidableEq, Repr

/-- The position unit (chapter 05): `exps` are the exposures due (R221, R222). -/
structure Pos where
  axes : List Axis := [{}, {}, {}, {}]
  ltg : Tab Ltg := []
  exps : List Expo := []
  cmpMem : Tab CmpEnt := []
  cmp : Tab CmpCh := []
  latch : Tab Latch := []
  deriving DecidableEq, Repr

/-- A time trigger (R242, R243): its settings, its next firing in TMU ns, and the firings missed. -/
structure Ttr where
  p : PTtrConfig
  next : Option Nat
  pulseEnd : Option Nat := none
  missed : Nat := 0
  deriving DecidableEq, Repr

/-- A time capture (R244), oldest first. -/
structure Tcp where
  p : PTcpConfig
  fifo : List (Nat × Nat) := []
  missed : Nat := 0
  deriving DecidableEq, Repr

/-- A Sync heard (R237): its sequence, origin time t1, correction and arrival t2; whether a Follow_Up is awaited. -/
structure PtpSync where
  seq : Nat
  t1 : Nat
  corr : Int
  t2 : Nat
  await : Bool
  deriving DecidableEq, Repr

/-- The PTP port (R237): what its messages have given so far, times in ns. -/
structure Ptp where
  p : PPtpConfig := ⟨0, 0, 0, 0, 0, 0, 0, 1, 128, 128, 1⟩
  master : Bool := false
  /-- Sequence numbers, and instants of the last sending, by message kind. -/
  seqs : Tab Nat := []
  sent : Tab Nat := []
  /-- The master heard: its port identity and what its Announce ranks by; and the instant of its last Announce. -/
  parent : Option (List Nat × List Nat) := none
  annAt : Nat := 0
  sync : Option PtpSync := none
  /-- Sequence and departure of the last Delay_Req or Pdelay_Req, and arrival of a Pdelay_Resp with its receipt time. -/
  t3 : Option (Nat × Nat) := none
  pd : Option (Int × Nat) := none
  meanDelay : Int := 0
  haveDelay : Bool := false
  identity : List Nat := [0, 0, 0, 0, 0, 0, 0, 0]
  utc : Int := 0
  deriving DecidableEq, Repr

/-- The time unit (chapter 05). `acc` is the counter in 2^-32 ns: seconds, ns, fraction and hidden residue (R231); `incr` the
increment, u8.32. -/
structure Tmu where
  acc : Nat := 0
  incr : Nat := 4294967296
  /-- 0 FREE, 1 ACQUIRING, 2 LOCKED, 3 HOLDOVER. -/
  state : Nat := 0
  source : Nat := 0
  stepDone : Bool := false
  offsetFault : Bool := false
  good : Nat := 0
  bad : Nat := 0
  offset : Int := 0
  lastMsg : Nat := 0
  ppsSec : Option Nat := none
  ppsBad : Nat := 0
  ptp : Ptp := {}
  pps : PPpsConfig := ⟨0, 0, 100000000⟩
  ppsHigh : Bool := false
  /-- The next rise of PPS_OUT in TMU ns, and the instant at which it falls (R241). -/
  ppsNext : Option Nat := none
  ppsFall : Nat := 0
  ttr : Tab Ttr := []
  tcp : Tab Tcp := []
  /-- TMU time latched by a GO that has not completed, per link: acc (R247). -/
  snap : Tab Nat := []
  deriving DecidableEq, Repr

/-- The contents of the graph slots (R256): nodes at slot × 32 + node, rules at slot × 64 + rule, and mark table entries
(style, minimum confidence) at slot × 256 + class. -/
structure GraphSet where
  nodes : Tab PGraphNode := []
  rules : Tab (List Nat) := []
  marks : Tab (Nat × Nat) := []
  deriving DecidableEq, Repr

/-- A change of graph contents in a running state (R259, R312). -/
inductive LiveCh where
  | param (slot node par : Nat) (value : Int)
  | rules (slot first : Nat) (rules : List (List Nat))
  | marks (slot first : Nat) (entries : List (Nat × Nat))
  | swap (old new : Nat)
  deriving DecidableEq, Repr

/-- A line in a band's pixel stage: its number in order of entry (0 for a row of zeros after the last line), and the output
rows of the nodes for it, at the node's number, or 64 + node for a first MORPH pass. -/
structure PixRow where
  ser : Nat
  n : Int
  vals : Tab (List Int)
  deriving DecidableEq, Repr

/-- A cluster's state for one graph (R252 to R255). -/
structure Clu where
  /-- Web lines on their way to the cluster, and its input backlog (R255), oldest first. -/
  inq : List WebLine := []
  backlog : List WebLine := []
  skipping : Bool := false
  /-- A skipped line was to restart the graph. -/
  owed : Bool := false
  /-- BG_EMA state rows in u16.8 (R261), lines analysed since the restart, and recent lines, newest first. -/
  bg : Tab (List Nat) := []
  lines : Nat := 0
  hist : List PixRow := []
  slot : Option Nat := none
  ver : Nat := 0
  last : Int := 0
  lastAt : Nat := 0
  /-- Lines on their way that end a strip which the front end closed early (R192, R254). -/
  ending : List Nat := []
  /-- The number after that of the last line that has passed the pixel stage (R254). -/
  passed : Nat := 0
  deriving DecidableEq, Repr

/-- A run of mask pixels of one polarity on a line, and its component. -/
structure Run where
  a : Nat
  b : Nat
  pol : Nat
  id : Nat
  deriving DecidableEq, Repr

/-- An open component (R266, R267, R272, R274): its current segment's first line n0 and sums, the segments cut before,
their area and strong pixels, and per band the analysed lines at its last pixel there. -/
structure Comp where
  n0 : Int
  first : Int × Nat
  segs : Nat := 0
  cumArea : Nat := 0
  cumStrong : Nat := 0
  bands : Tab Nat := []
  area : Nat := 0
  sumC : Nat := 0
  sumN : Int := 0
  sumCC : Nat := 0
  sumNN : Int := 0
  sumCN : Int := 0
  cMin : Nat := 0
  cMax : Nat := 0
  nMin : Int := 0
  nMax : Int := 0
  strong : Nat := 0
  boundary : Nat := 0
  bright : Nat := 0
  dark : Nat := 0
  devSum : Nat := 0
  devMax : Nat := 0
  vMin : Nat := 0
  vMax : Nat := 0
  deriving DecidableEq, Repr

/-- One band's part of a line through the pixel stage: mask, deviation, image, and TILE_CUT inputs, owned columns. -/
structure BandRow where
  mask : List Nat
  dev : List Int
  img : List Int
  tile : List (List Int)
  deriving DecidableEq, Repr

/-- A line on its way through labelling: its tag, the bands still to pass it, and the parts of those that analysed it. -/
structure LmuRow where
  line : WebLine
  need : List Nat
  parts : Tab BandRow := []
  deriving DecidableEq, Repr

/-- Labelling of one graph (R266 to R274): lines in order of entry, each band's last runs, pixels whose boundary rests on the
next line (column, component), open components, lines analysed per band, line tags (n, LOST, analysed bands, seconds, ns),
and the tile history, newest first (R278). -/
structure Lmu where
  rows : List LmuRow := []
  prev : Tab (List Run) := []
  pend : List (Nat × Nat) := []
  comps : Tab Comp := []
  nextId : Nat := 1
  count : Tab Nat := []
  tags : List (Int × Nat × Nat × Nat × Nat) := []
  tiles : List (Int × Tab BandRow) := []
  slot : Option Nat := none
  ver : Nat := 0
  deriving DecidableEq, Repr

/-- A record for the result writer (R318, R326): bytes 16 to 119, the DEFECT record an outcome reports on, and its chain. -/
structure PRec where
  id : Nat
  queue : Nat
  outcome : Bool
  cluster : Nat
  body : List Nat
  tile : Nat := 0
  chain : Nat := 0
  seg : Nat := 0
  chained : Bool := false
  deriving DecidableEq, Repr

/-- A tile as cut (R278, R337): origin, size, the DEV16 mask, its inputs' pixels, and whether its window was moved. -/
structure Cut where
  n0 : Int
  c0 : Int
  tw : Nat
  th : Nat
  types : Nat
  moved : Bool
  inputs : List (List Int)
  deriving DecidableEq, Repr

/-- A component with its record's fields, waiting for CLASSIFY or decided (R276 to R282). -/
structure Found where
  home : Nat
  comp : Comp
  id : Nat
  flags : Nat
  chained : Bool
  ver : Nat
  slot : Nat
  verify : Bool
  cls : Nat
  conf : Nat
  model : Nat
  tile : Nat
  cut : Option Cut
  extras : List Int
  md : Int
  cd : Int
  sec : Nat
  ns : Nat
  cams : Nat
  nc : Int
  /-- The engine's tile that is this component's, while it is still to be compressed (R453, R474). -/
  packed : Option Nat := none
  deriving DecidableEq, Repr

/-- A mark decision for the marking unit (R281, R359). -/
structure MarkDec where
  id : Nat
  style : Nat
  queue : Nat
  cluster : Nat
  body : List Nat
  md : Int
  cd : Int
  cMin : Nat
  cMax : Nat
  nMin : Int
  nMax : Int
  deriving DecidableEq, Repr

/-- The Electrum array (chapter 06). -/
structure Elx where
  clu : Tab Clu := []
  ver : Clu := {}
  web : Lmu := {}
  vlmu : Lmu := {}
  /-- Graph contents by number, and the number in force for lines entered now (R259). -/
  vers : Tab GraphSet := [(0, {})]
  verNo : Nat := 0
  /-- Changes that wait for a web line, with the least MD of that line, and graph selections for a strip boundary, in order (R258). -/
  changes : List (Option Int × Nat × LiveCh) := []
  select : List (Option Int × Nat) := []
  slot : Option Nat := none
  serial : Nat := 0
  /-- The number of the web line entered last. -/
  lastWeb : Nat := 0
  waiting : List Found := []
  /-- Components decided whose tile is still to be compressed (R474). -/
  tiling : List Found := []
  held : List PRec := []
  emitWait : List PRec := []
  /-- Clusters that resume at the first strip boundary after a Block reset (R584). -/
  parked : List Nat := []
  /-- The tile history just read was poisoned (R646). -/
  noTile : Bool := false
  deriving DecidableEq, Repr

/-- A loaded model (R290, R310): its package, cost, live bytes and tiles classified. -/
structure Model where
  bytes : List Nat
  cost : Nat
  live : Nat
  tiles : Nat := 0
  deriving DecidableEq, Repr

/-- A staging in progress (R306): its length and the pieces written, newest first. -/
structure Staging where
  total : Nat
  pieces : List (Nat × List Nat) := []
  deriving DecidableEq, Repr

/-- The model store (R308, R309). -/
structure Models where
  loaded : Tab Model := []
  staging : Tab Staging := []
  deriving DecidableEq, Repr

/-- A result queue (R322, R323): S_next, the least sequence its ring may hold, its records by sequence, and its counters. -/
structure RQueue where
  /-- The settings of the ring in force, none for the defaults; a reset that keeps DRAM keeps them with it (R323). -/
  ring : Option PResultQueueConfig := none
  next : Nat := 1
  base : Nat := 1
  recs : Tab (List Nat) := []
  written : Nat := 0
  lost : Nat := 0
  dropped : Nat := 0
  deriving DecidableEq, Repr

/-- A mirror into a host ring (R332, R333): link, ring address and slots, coalescing interval in µs, the host's next slot, the
device's next slot, the next sequence to mirror, the sequences in slots not yet released, the end of the interval running,
and whether a signal waits for it. -/
structure Mirror where
  link : Nat
  addr : Nat
  slots : Nat
  coalesce : Nat
  head : Nat := 0
  tail : Nat := 0
  seq : Nat
  used : List Nat := []
  until_ : Nat := 0
  owed : Bool := false
  deriving DecidableEq, Repr

/-- A subscription (R327 to R332): mode, window, r, LOST, the next sequence to push, and its mirror. -/
structure Sub where
  mode : Nat
  window : Nat
  r : Nat
  lost : Nat := 0
  push : Nat
  mirror : Option Mirror := none
  deriving DecidableEq, Repr

/-- A tile in the pool (R334, R337): generation, blocks, when it was cut, header and payload. -/
structure Tile where
  gen : Nat
  blocks : Nat
  cut : Nat
  bytes : List Nat
  deriving DecidableEq, Repr

/-- Result queues, subscriptions (session × 64 + queue), the writer and the tile pool (chapter 08). -/
structure Res_ where
  queues : Tab RQueue := []
  subs : Tab Sub := []
  writer : List PRec := []
  /-- Sequences of DEFECT records whose outcome is due, and of the last record of each chain, by record number. -/
  seqs : Tab Nat := []
  chains : Tab Nat := []
  recNo : Nat := 1
  tiles : Tab Tile := []
  nextBlock : Nat := 0
  gen : Nat := 0
  /-- Size of the tile pool in force, MiB (R334). -/
  pool : Nat := 1024
  /-- The running second, the records written in it, and those of the second before. -/
  rate : Nat × Nat × Nat := (0, 0, 0)
  deriving DecidableEq, Repr

/-- A dot in a head's raster ring (R362): its fire instant, nozzle and mark (0: a test print); `cause` names why it will be
missed (R377), 255 for a dot to be fired. -/
structure Dot where
  inst : Int
  noz : Nat
  mark : Nat
  cause : Nat := 255
  deriving DecidableEq, Repr

/-- A span of missed dots in progress (R378): cause, first and last instant, first and last nozzle, TMU ns of the last. -/
structure Span where
  cause : Nat
  first : Int
  last : Int
  nozFirst : Nat
  nozLast : Nat
  time : Nat
  deriving DecidableEq, Repr

/-- FIXED pacing in progress (R355): whether the loaded bitmap is used, the rate, the lines left, and the next instant. -/
structure SvcFire where
  loaded : Bool
  rate : Nat
  left : Nat
  next : Nat := 0
  deriving DecidableEq, Repr

/-- A test print (R381): S, R, its first dot line, and whether its measurement is complete (R383). -/
structure Print where
  s : Nat
  r : Nat
  j0 : Int
  done : Bool := false
  deriving DecidableEq, Repr

/-- A shift of the head bus (R345): its fire instant, its first clock edge, and the fall of its LATCH, in ps. -/
structure Shift where
  inst : Int
  start : Nat
  fall : Nat
  deriving DecidableEq, Repr

/-- A marking head (R345 to R376): HEAD_EN and the end of EN_SETTLE, FIRE_HWM and the highest instant crossed, the highest
instant in the buffer, its dots, the instant being shifted, the last main pulse, the pre-heat train
(instant, end), temperature state, the held instant j_r, whether it asserted STOPREQ, and the stretch factor. -/
structure MHead where
  en : Bool := false
  settleTo : Nat := 0
  hwm : Int := 0
  seen : Int := 0
  top : Int := 0
  dots : List Dot := []
  shift : Option Shift := none
  /-- Fire instants to come whose q_j − PRE_ADV the position has crossed, and when (R356). -/
  crossed : List (Int × Nat) := []
  /-- A fire instant latched before the calibration changed, and its q_j as it stood (R386). -/
  latchQ : Option (Int × Int) := none
  lastFire : Option Nat := none
  pulse : Bool := false
  pre : Option (Int × Nat) := none
  temp : Nat := 0x8000
  /-- When its temperature was last read (R348). -/
  tempAt : Option Nat := none
  badReads : Nat := 0
  hot : Bool := false
  throttled : Bool := false
  suspended : Bool := false
  overN : Nat := 0
  jr : Option Int := none
  asked : Bool := false
  /-- The line has been brought back for j_r (R371). -/
  backed : Bool := false
  k : Nat := 0
  spans : List Span := []
  /-- Runs of fire instants that MH_MISS has counted, latest first (R387). -/
  counted : List (Int × Int) := []
  svc : Option SvcFire := none
  print : Option Print := none
  /-- Sums of the print's measurement, at nozzle × 16 + repetition: ink pixels, Σe, Σe·x in 1/131,072 nm, Σe·y. -/
  sums : Tab (Nat × Nat × Int × Int) := []
  /-- Per nozzle: repetitions found, mean CD and MD errors (R384). -/
  found : List (Nat × Int × Int) := []
  deriving DecidableEq, Repr

/-- A mark in progress (R366): its decision, the dots still to be settled, and whether one was missed. -/
structure MarkRun where
  dec : MarkDec
  left : Nat
  missed : Bool
  deriving DecidableEq, Repr

/-- A mark or test print that waits for its lines to come within the horizon (R362). -/
inductive PendMark where
  | mark (d : MarkDec)
  | print (head s r : Nat) (md : Int)
  deriving DecidableEq, Repr

/-- The marking unit (chapter 09). Calibration blocks in force and proposed are by head; a head without one has the zero
block (log 9). -/
structure Mrk where
  inbox : List MarkDec := []
  pend : List PendMark := []
  marks : Tab MarkRun := []
  heads : Tab MHead := []
  cal : Tab (List Nat) := []
  prop : Tab (List Nat) := []
  slow : Bool := false
  stop : Bool := false
  rev : Bool := false
  ldack : Bool := false
  /-- Since when no condition of R373 has held, and when STOPREQ was asserted (R372). -/
  slowOff : Option Nat := none
  stopAt : Nat := 0
  /-- LDACK has been high since STOPREQ was asserted (R372). -/
  acked : Bool := false
  /-- LDACK did not rise: held and unbuffered instants are skipped (R372). -/
  skipMode : Bool := false
  log : List (Nat × List Nat) := []
  logNo : Nat := 0
  /-- The web axis has a new origin, not yet taken into FIRE_HWM (R353). -/
  origin : Bool := false
  deriving DecidableEq, Repr

/-- A load meter: the running second of the block's time, the work done in it, and the last second's and highest load in ‰. -/
structure Meter where
  sec : Nat := 0
  acc : Nat := 0
  last : Nat := 0
  peak : Nat := 0
  deriving DecidableEq, Repr

/-- A colour bank (R400, R402, R403, R416): black levels, defect list (its length, and entries y × 65,536 + x by place),
white balance, matrix, and LUT slot (255 identity). -/
structure ColBank where
  bl : List Nat := [0, 0, 0, 0]
  len : Nat := 0
  defs : Tab Nat := []
  wb : List Nat := [4096, 4096, 4096]
  mat : List Int := [4096, 0, 0, 0, 4096, 0, 0, 0, 4096]
  lut : Nat := 255
  deriving DecidableEq, Repr

/-- A curve as set: preset, PEAK and table (R406). -/
structure Curve where
  preset : Nat
  peak : Nat
  table : List Nat
  deriving DecidableEq, Repr

/-- A frame in the colour pipeline (R391, R392, R397): context, index, time, exposure, size, bank and LUT contents (entry by
node, R × 2^32 + G × 2^16 + B) and curves in force at its start, and its rows; a live view's G and B rows lie at H and 2H beyond. -/
structure AFrame where
  ctx : Nat
  idx : Nat
  sec : Nat
  ns : Nat
  expo : Nat
  w : Nat
  h : Nat
  live : Bool
  cfa : Nat
  bank : ColBank
  lut : Tab Nat
  curves : Tab Curve
  rows : Tab (List Nat) := []
  repaired : Bool := false
  ended : Bool := false
  /-- Its first row has been processed, when (TMU ns), and the heads whose destinations accepted it then (R397, R411). -/
  started : Bool := false
  startAt : Nat := 0
  taken : List Nat := []
  deriving DecidableEq, Repr

/-- A head's rendition of a frame (R404 to R409): its planes' rows of samples. -/
structure HFrame where
  head : Nat
  ctx : Nat
  idx : Nat
  sec : Nat
  ns : Nat
  expo : Nat
  repaired : Bool
  fmt : Nat
  n : Nat
  full : Bool
  w : Nat
  h : Nat
  planes : List (List (List Nat))
  deriving DecidableEq, Repr

/-- A context's state (R391, R418, R419): whether its latest frame is open, whether the rows that arrive follow a refused
FRAME_START, the next live frame's index, and the live view's column sums, their lines, and its ring, newest first. -/
structure ClpCtx where
  opened : Bool := false
  bad : Bool := false
  nextIdx : Nat := 0
  sums : List (List Nat) := []
  lines : Nat := 0
  ring : List (Nat × Nat × List (List Nat)) := []
  /-- When the last frame of a live view began, TMU ns (R419). -/
  viewAt : Option Nat := none
  deriving DecidableEq, Repr

/-- An output head's host ring (R414, R415): the host's and the device's next slot, slots not yet released, and the index of
the last frame written. -/
structure CHead where
  head : Nat := 0
  tail : Nat := 0
  used : Nat := 0
  lastIdx : Option Nat := none
  deriving DecidableEq, Repr

/-- An ST 2110-20 sender (R412): the frame being sent, the next pgroup of it, and the RTP sequence number. -/
structure Sender where
  frame : Option HFrame := none
  at_ : Nat := 0
  seq : Nat := 0
  deriving DecidableEq, Repr

/-- The colour pipeline (chapter 10): banks at context × 2 + bank, LUT slots (a node not listed is the identity's, log 10), and
the primary and buffered frames in order; `expos` holds the exposures of area generators: generator, line, TMU seconds, ns. -/
structure Clp where
  banks : Tab ColBank := []
  luts : Tab (Tab Nat) := []
  ctxs : Tab ClpCtx := []
  prim : List AFrame := []
  buf : List AFrame := []
  heads : Tab CHead := []
  senders : Tab Sender := []
  expos : List (Nat × Int × Nat × Nat) := []
  /-- When the pipeline will have processed the primary rows received so far, and whether their FIFO has been full since (R396). -/
  fifoEnd : Nat := 0
  spill : Bool := false
  load : Meter := {}
  deriving DecidableEq, Repr

/-- A picture waiting for the encoder (R431, R434): frame index, time, when it arrived (TMU ns), and its luma rows, none for a
picture that lies in host memory. -/
structure VPic where
  idx : Nat
  sec : Nat
  ns : Nat
  at_ : Nat
  luma : Option (List (List Nat))
  deriving DecidableEq, Repr

/-- The picture being coded (R433, R438, R439): its type (0 I, 1 P, 2 B), POC, IRAP, GAP, B_p (none: no budget), H_p, the bits
spent, the slices done, whether it overran, and the CTUs coded. -/
structure VCur where
  pic : VPic
  ptype : Nat
  poc : Int
  irap : Bool
  gap : Nat
  budget : Option Int
  room : Int
  spent : Nat := 0
  slice : Nat := 0
  overN : Bool := false
  ctus : List CtuOut := []
  /-- The rate control as the picture's coding began, and whether it leads a CRA picture (R433, R440). -/
  rc : PVcuRate
  leads : Bool := false
  /-- Luma rows read from host memory so far, of a host's picture (R444). -/
  luma : List (List Nat) := []
  deriving DecidableEq, Repr

/-- A picture of the decoded picture buffer (R446, R447): its POC and sequence, its CTUs' samples by address (a CTU not listed holds 2^(n − 1)
throughout), those covered so far, whether it is an IRAP picture, a substitute, or still to be output, and its flags and concealed CTUs. -/
structure DpbPic where
  poc : Int
  seq : DecSeq
  irap : Bool
  shown : Bool
  sub : Bool := false
  px : Tab (List Nat) := []
  covered : List Nat := []
  concealed : Bool := false
  hashErr : Bool := false
  lost : Nat := 0
  deriving DecidableEq, Repr

/-- A codec context (chapter 11): waiting pictures, a mini-GOP in coding order (picture, POC offset from its start), the
picture being coded, D, the rate-control mode and rate D belongs to, pictures since the last IRAP, POC of the last IRAP's and
of the last mini-GOP's end, pictures missing; the ring's chunks by sequence; host ring units; and a decoder's input buffer,
its pictures waiting for a slot and its count of pictures. -/
structure VCtx where
  queue : List VPic := []
  gop : List (VPic × Int × Bool) := []
  cur : Option VCur := none
  d : Int := 0
  rate : Nat × Nat := (0, 0)
  since : Nat := 0
  fresh : Bool := true
  force : Bool := false
  poc : Int := 0
  /-- POCs of the pictures coded since the last IDR picture, newest first, and the mini-GOP formed last: its pictures and the pictures since the last IRAP
  before it (R433). -/
  coded : List Int := []
  /-- POC of the last IRAP picture: a picture before it in output order leads it. -/
  crap : Option Int := none
  gopLen : Nat := 0
  gopSince : Nat := 0
  gap : Nat := 0
  next : Nat := 1
  chunks : List (Nat × List Nat) := []
  head : Nat := 0
  tail : Nat := 0
  used : Nat := 0
  inBuf : List Nat := []
  /-- Bytes of the stream consumed, the writes still in the buffer (bytes of the stream at each one's end, TMU ns), and when the last byte of the
  first slice segment of the picture in progress arrived (R430). -/
  inPos : Nat := 0
  inMarks : List (Nat × Nat) := []
  picAt : Nat := 0
  /-- Decoding (R445 to R447): whether it waits for an IRAP access unit, whether RASL pictures are not output, the sequence in force, the decoded
  picture buffer and the picture in progress. -/
  wait : Bool := true
  noRasl : Bool := false
  seq : Option DecSeq := none
  dpb : List DpbPic := []
  dcur : Option DpbPic := none
  outq : List DecPic := []
  done : Nat := 0
  overrun : Nat := 0
  skipped : Nat := 0
  concealed : Nat := 0
  deriving DecidableEq, Repr

/-- The HEVC codec: its contexts and the one that holds the engine (R430). -/
structure Vcu where
  ctxs : Tab VCtx := []
  current : Option Nat := none
  last : Nat := 0
  /-- The context whose slice the engine completed last (R428). -/
  done : Option Nat := none
  load : Meter := {}
  deriving DecidableEq, Repr

/-- A head's Tombac ring (R471 to R473): the next sequence, records by sequence, frames accepted and not yet coded, lines of
the first that are done, index of the last record's frame, and the host ring's units. -/
structure THead where
  next : Nat := 1
  recs : List (Nat × List Nat) := []
  frames : List HFrame := []
  done : Nat := 0
  lastIdx : Option Nat := none
  head : Nat := 0
  tail : Nat := 0
  used : Nat := 0
  deriving DecidableEq, Repr

/-- A staged strip of the web history (R475 to R477): strip, first line and its time, rows of the selected planes, lines
compressed, whether the strip has ended, and whether it was abandoned. -/
structure HStrip where
  strip : Int
  n : Int
  sec : Nat
  ns : Nat
  rows : List (List (List Nat)) := []
  done : Nat := 0
  ended : Bool := false
  dead : Bool := false
  deriving DecidableEq, Repr

/-- A history record (R477, R479): its first line, lines, and bytes. -/
structure HRec where
  seq : Nat
  n : Int
  lines : Nat
  bytes : List Nat
  /-- P_md of its strip, nm. -/
  pitch : Nat := 1
  deriving DecidableEq, Repr

/-- A job (R480 to R484): its descriptor, the submitting session, whether a delivery has released it and that
delivery's origin, its source bytes once it has begun, lines done, and whether its cancellation was asked for. -/
structure Job where
  id : Nat
  desc : List Nat
  session : Nat
  /-- The submitting command's tag, which TBC_NOTIFY echoes (R74, R488). -/
  tag : Nat := 0
  released : Bool := false
  origin : Option Nat := none
  src : Option (List Nat) := none
  lines : Nat := 0
  cancel : Bool := false
  deriving DecidableEq, Repr

/-- A completion (R484). -/
structure JobDone where
  id : Nat
  tag : Nat
  result : Nat
  bytes : Nat
  lines : Nat
  failLine : Nat := 0
  failOff : Nat := 0
  deriving DecidableEq, Repr

/-- A tile that the engine is to compress, or compresses (R453, R474): its number, its content, storage code, result queue and home cluster, and the lines
coded. -/
structure TileJob where
  no : Nat
  cut : Cut
  storage : Nat
  queue : Nat
  home : Nat
  done : Nat := 0
  deriving DecidableEq, Repr

/-- The Tombac engine (chapter 12): the job buffer lists its bytes other than 0 by address. -/
structure Tbc where
  heads : Tab THead := []
  strips : List HStrip := []
  hist : List HRec := []
  histNext : Nat := 1
  histLost : Nat := 0
  jobs : List Job := []
  dones : List JobDone := []
  jobNext : Nat := 1
  buf : Tab Nat := []
  busy : Nat := 0
  load : Meter := {}
  tiles : List TileJob := []
  tileNo : Nat := 1
  deriving DecidableEq, Repr


/-- A task input of the event router (R493, R496, R497). -/
structure TaskIn where
  /-- First cycle in which it is no longer busy. -/
  busyTo : Nat := 0
  pend : Option Nat := none
  ovr : Bool := false
  delivered : Nat := 0
  collide : Nat := 0
  drop : Nat := 0
  deriving DecidableEq, Repr

/-- A delivery on its way (R490): its cycle, task input, origin tag and channel. -/
structure Flight where
  cyc : Nat
  task : Nat
  tag : Nat
  ch : Nat
  deriving DecidableEq, Repr

/-- An event still to be presented: its cycle, its source (or 65,536 + channel for a software event) and its origin tag (R493,
R498, R502). -/
structure EvEmit where
  cyc : Nat
  src : Nat
  origin : Option Nat
  deriving DecidableEq, Repr

/-- The event router (chapter 13): events still to be presented, deliveries in flight, task inputs, divider counts, and the cycle of
each channel's last publication. -/
structure Evr where
  emits : List EvEmit := []
  flight : List Flight := []
  tasks : Tab TaskIn := []
  div : Tab Nat := []
  lastPub : Tab Nat := []
  deriving DecidableEq, Repr

/-- A DMA channel (R536 to R544): its setting and the session that made it, its state (0 IDLE, 1 RUNNING, 2 WAITING, 3 HALTED),
the descriptor's address and bytes (none while it is being fetched), bytes moved, retries used, the end of a retry wait, whether
every write has left the engine, the origin tag of the delivery that started it, and the result and tag of the last descriptor. -/
structure DmaCh where
  set : Option PDmaChannel := none
  /-- The session that configured it, while it stays open (R550). -/
  session : Option Nat := none
  state : Nat := 0
  addr : Nat := 0
  desc : Option (List Nat) := none
  done : Nat := 0
  retries : Nat := 0
  waitTo : Option Nat := none
  left : Bool := false
  /-- An abort was asked for and takes effect at the next 64-byte unit (R544). -/
  abort : Bool := false
  origin : Option Nat := none
  result : Nat := 0
  tag : Nat := 0
  deriving DecidableEq, Repr

/-- A DRAM channel (R507 to R528): its DIMMs (capacity GiB, width, ranks, density code), hottest DIMM and training temperature in
s8.8 °C as read (0x8000 none), quality figure and load class of the training, whether it is provisional, a retraining in progress
or waiting, whether a DIMM is above 95 °C, and the times of its uncorrectable reads within 1 s. -/
structure DramCh where
  dimms : List (Nat × Nat × Nat × Nat) := []
  temp : Nat := 0x8000
  trained : Nat := 0x8000
  /-- The junction temperature at the training in use, in 0.01 °C (R526). -/
  tj : Int := 0
  qf : Nat := 0
  cls : Nat := 0
  prov : Bool := false
  retrain : Bool := false
  queued : Bool := false
  retrains : Nat := 0
  hot : Bool := false
  ues : List Nat := []
  failed : Bool := false
  /-- The DIMMs' refresh management modes, the rolling activate counts by bank, the neighbour refreshes scheduled (place, row, and the instant by which each is issued), the bank that the next
  same-bank refresh takes, and when the last retraining slice ran (R523 to R527). -/
  rfm : List RfmMode := []
  acts : Tab Nat := []
  nbr : List (Nat × Nat × Nat) := []
  refBank : Nat := 0
  sliceAt : Option Nat := none
  /-- Whether R507 supports the DIMMs apart from capacity, ranks and number, and the highest rate that every SPD supports (R509, R510). -/
  supported : Bool := false
  maxRate : Nat := 0
  /-- Read and write DQ delays of the training in use, in ps (R526, R527). -/
  rdDelay : Int := 0
  wrDelay : Int := 0
  /-- When the last same-bank refresh was issued (R523). -/
  refAt : Option Nat := none
  /-- The 64-byte units whose writes wait in the write queue, oldest first (R529, R530). -/
  wq : List Nat := []
  deriving DecidableEq, Repr

/-- An entry of the ECC log (R522). -/
structure EccEnt where
  addr : Nat
  ch : Nat
  rank : Nat
  bank : Nat
  pos : Nat
  kind : Nat
  time : Nat
  deriving DecidableEq, Repr

/-- The DRAM controller (chapter 14): the channels of the interleave set, the grain, rate and degraded mask in force, whether the
start kept DRAM, whether a layout awaits a start, times of the
corrections within 24 h per device (channel × 256 + rank × 32 + position), the ECC log, newest
first, with the number of its newest entry, the user buffer's bytes other than 0, and the 64-byte units known to hold an error: the
space (0 user buffer, 5 job buffer, 255 any other DRAM), the unit's number in it, and 0 corrected, 1 uncorrectable (R519, R652). -/
structure Dmc where
  set : List Nat := []
  grain : Nat := 0
  rate : Nat := 0
  mask : Nat := 0
  retained : Bool := false
  /-- A channel failure has made the contents untrustworthy: the reset that ends the fault does not keep DRAM (R515). -/
  lose : Bool := false
  chans : Tab DramCh := []
  pending : Bool := false
  marked : Tab (List Nat) := []
  log : List EccEnt := []
  logNo : Nat := 0
  user : Tab Nat := []
  bad : List (Nat × Nat × Nat) := []
  /-- A start has formed or kept the set since the last reset: until then the registers read their reset values (R547). -/
  ready : Bool := false
  /-- Grain, mask and maximum rate of the layout in force (R512). -/
  layout : Nat × Nat × Nat := (0, 0, 0)
  /-- Devices above CE_LIMIT, keyed as `marked` (R520). -/
  above : List Nat := []
  /-- Where the patrol scrub goes on, and since when (R521). -/
  scrubAt : Nat × Nat := (0, 0)
  /-- Every DIMM is in self-refresh, and the controller's and PHY's clocks have stopped (R533). -/
  selfRef : Bool := false
  deriving DecidableEq, Repr

/-- The DMA block (chapter 14). -/
structure Dma where
  chans : Tab DmaCh := []
  deriving DecidableEq, Repr

/-- A reset entry held for writes in progress (R569 to R571): when its source was asserted; whether the flash was programming or erasing then, whether that
has ended, and whether 5 ms passed first; and the same of an eFuse program pulse. -/
structure Defer where
  since : Nat
  flash : Bool := false
  flashDone : Bool := false
  late : Bool := false
  pulse : Bool := false
  pulseDone : Bool := false
  deriving DecidableEq, Repr

/-- A DIAG_RESET whose reset is still to be asserted (R651): when, its fields, and the session and tag of its command. -/
structure DiagReq where
  at_ : Nat
  reach : Nat
  wrapper : Nat
  keep : Bool
  cause : Option (Nat × Nat) := none
  deriving DecidableEq, Repr

/-- A Babbitt wrapper that is not open (R578 to R582): 0 a Block reset was requested, 1 it holds its block in reset, 2 the block
restores its configuration, 3 closed after a forced release; whether a level source holds it, and whether the clock failure of its
domain does. -/
structure Wrap where
  stage : Nat := 0
  level : Bool := false
  clock : Bool := false
  /-- The writes in progress that a Block reset of NVS waits for (R572). -/
  waits : Option Defer := none
  /-- A Block reset was requested while the wrapper was closed after a forced release (R580). -/
  again : Bool := false
  /-- When the block's reset was asserted (R578). -/
  at_ : Nat := 0
  /-- Session and tag of the command that asked for the reset (R74, R683). -/
  cause : Option (Nat × Nat) := none
  deriving DecidableEq, Repr

/-- A reset of System reach or wider in progress (R565 to R573): when its first source was asserted, the widest reach so far (1
System, 2 Chip, 3 Full), whether every source keeps DRAM, the level sources still asserted (RST_CAUSE bit, and link for PCIE),
the deferral of its entry, and the reach whose entry has been performed (0 none). -/
structure Rst where
  since : Nat
  reach : Nat
  keep : Bool
  level : List (Nat × Nat) := []
  defer : Option Defer := none
  entered : Nat := 0
  /-- When its minimum assertion ends, and when its last source was released (R575). -/
  freeAt : Nat := 0
  /-- The release sequence has reached the boot ROM's start (R565, R575). -/
  released : Bool := false
  deriving DecidableEq, Repr

/-- The reset controller and the clocks (chapter 15): crystal, REF and per PLL and domain in the order SYS, MGMT, ENG, PIX, MEDIA, IO,
DRAM the lock and the monitor's report; ports on the substitute clock; recent losses of lock (PLL, time) and PLLs held unlocked; the
reset in progress; wrappers that are not open; whether the backup domain runs from VBAT; whether the device has not reached STANDBY since
the entry of a reset (R643), whether a thermal trip condition holds (R640), and the levels of FAULT_N and THERM_N. -/
structure Rcp where
  xtal : Bool := false
  ref : Bool := false
  lock : Nat := 0
  good : Nat := 0
  sub : Nat := 0
  unlocks : List (Nat × Nat) := []
  heldPll : Nat := 0
  rst : Option Rst := some { since := 0, reach := 3, keep := false, entered := 3 }
  wraps : Tab Wrap := []
  onVbat : Bool := false
  /-- Every host link runs in SRIS mode: PCIE_REFCLK showed no edges at step 1 of the boot (R678). -/
  sris : Bool := false
  starting : Bool := true
  tripped : Bool := false
  faultN : Bool := true
  thermN : Bool := false
  /-- Reset requests of DIAG_RESET, oldest first (R651). -/
  diag : List DiagReq := []
  /-- The head gate of R347 holds since a reset source was asserted. -/
  gate : Bool := true
  deriving DecidableEq, Repr

/-- A thermal sensor (R620, R637): its reading in 1/16 °C, whether one has been taken, whether it is bad, and cross-checks in a row
that it failed. -/
structure Sensor where
  temp : Int := 0
  read : Bool := false
  bad : Bool := false
  fails : Nat := 0
  deriving DecidableEq, Repr

/-- An entry of an error log (R648). -/
structure LogEnt where
  no : Nat
  time : Nat
  kind : Nat
  sev : Nat
  cls : Nat
  unit : Nat
  d0 : Nat
  d1 : Nat
  deriving DecidableEq, Repr

/-- What the calibration scheduler keeps of an item (R635); its provisional flag is kept with the lane or DRAM channel. -/
structure CalItem where
  count : Nat := 0
  last : Nat := 0
  quality : Int := 0
  tj : Int := 0
  cls : Nat := 0
  deriving DecidableEq, Repr

/-- A regulator as last read over PMBus (R634). -/
structure Telem where
  mv : Nat
  ma : Nat
  temp : Int
  status : Nat
  deriving DecidableEq, Repr

/-- A plan (R627): ENG clock in MHz and the three setpoints in mV. -/
structure Plan where
  mhz : Nat := 2000
  mv : List Nat := [800, 775, 800]
  deriving DecidableEq, Repr

/-- Health and margins (chapter 17). `engKhz` is the ENG PLL clock in force, `divT` and `divM` the thermal and the margin guard's
post-divider stage, `plan` the latest plan and `held` one that is held. Times are instants: since when P_est allows each change of class, since
when the sensors allow each change of the divider, when the guard last raised each rail and took its step 2, and each rail's droop
events of the last second. -/
structure Mon where
  engKhz : Nat := 2000000
  divT : Nat := 0
  divM : Nat := 0
  plan : Plan := {}
  held : Option Plan := none
  /-- A plan is being formed, and who waits for it (R627, R650): kind 0 ENVELOPE_SET, 1 PLAN_RUN. -/
  planning : Bool := false
  planWait : List (Ticket × Nat) := []
  /-- Lowest passing mV of VDD_ENG by ENG MHz, from the latest plan's scan (R627, R630). -/
  vEng : Tab Nat := []
  mv : List Nat := [800, 775, 800]
  readMv : List Nat := [0, 0, 0]
  avsOk : Bool := false
  frozen : Bool := false
  /-- The last start's AVSBus failed, so this one runs in the Rated envelope (R633). -/
  avsLost : Bool := false
  /-- Setpoint moves still to be commanded (rail, mV), and failures of the first in a row (R629, R633). -/
  moves : List (Nat × Nat) := []
  avsFails : Nat := 0
  /-- When each rail was last commanded (R629). -/
  avsAt : Tab Nat := []
  sensors : List Sensor := List.replicate 24 {}
  /-- Tj in 0.01 °C. -/
  tj : Int := 0
  tjOk : Bool := false
  tjSensor : Nat := 0
  pEst : Nat := 0
  loadClass : Nat := 0
  rising : Tab Nat := []
  falling : Option Nat := none
  tmm : List Int := []
  ageIdx : Nat := 0
  shift : Nat := 0
  ageSeen : List Nat := []
  warnAt : Int := 9500
  throttleAt : Int := 10300
  warned : Bool := false
  hotSince : Tab Nat := []
  coolSince : Option Nat := none
  raised : Tab Nat := []
  divAt : Option Nat := none
  droopMv : Nat := 40
  droopLimit : Nat := 1000
  droops : Tab (List Nat) := []
  tele : Option PTelemetryConfig := none
  telem : Tab Telem := []
  log : List LogEnt := []
  logNo : Nat := 0
  blog : List LogEnt := []
  blogNo : Nat := 0
  cal : Tab CalItem := []
  /-- When the device entered FAULT, for FAULT_HOLD (R641). -/
  faultAt : Nat := 0
  /-- When the backup domain was powered: backup log times count from it (R648). -/
  aonAt : Nat := 0
  deriving DecidableEq, Repr


/-- The working configuration set (R77, R78): the accepted parameters of each command of classes C, S and T. -/
structure Cfg where
  ports : Tab PPortOpen := []
  streams : Tab PStreamSet := []
  lanePower : Tab PLanePower := []
  calPolicy : PCalPolicy := ⟨40, 600, 40⟩
  trims : Tab Int := []
  expo : Nat := 2000
  geom : Option PFeGeometry := none
  maps : Tab PFeStreamMap := []
  seams : Tab PFeSeam := []
  kernel : Option (List Int) := none
  banks : Tab Nat := []
  shading : Tab PFeShading := []
  setLat : Tab PFeSettingLatency := []
  metaKeys : Tab PFeMetaKey := []
  enc : Tab PEncConfig := []
  obs : Tab PObserverSet := []
  ltg : Tab PLtgConfig := []
  ltgOn : Tab Nat := []
  cmp : Tab PCmpConfig := []
  cmpOn : Tab Nat := []
  latches : Tab PLatchConfig := []
  chans : Tab PEvrChannel := []
  taskMode : Tab Nat := []
  dividers : Tab Nat := []
  heads : Tab PMrkHeadConfig := []
  graph : GraphSet := {}
  select : Option Nat := none
  verify : Option PVerifyGraph := none
  gbudget : Tab PGraphBudget := []
  gating : Nat := 50
  queues : Tab PResultQueueConfig := []
  pool : Nat := 1024
  tileEffort : Nat := 0
  /-- Remapping entries at head × 1,024 + nozzle (R350); one never loaded is 0. -/
  remap : Tab Nat := []
  preheat : Tab PMrkPreheat := []
  thermal : Tab PMrkThermal := []
  style : PMrkStyle := ⟨[5000000, 5000000, 2000000, 10000000, 20000000], 4⟩
  lineMode : PMrkLineMode := ⟨0, 64, 192, 90, 2000, 10000000⟩
  headMode : Tab Nat := []
  overlap : Tab PMrkOverlap := []
  pattern : Tab (List Nat) := []
  verifyGeo : Tab PMrkVerifyGeometry := []
  area : Tab PAreaStream := []
  live : Tab PLiveView := []
  heads2 : Tab PHeadConfig := []
  /-- Scaler tables at head × 2 + axis, and curves at head × 4 + channel. -/
  kernels : Tab (List Int) := []
  curves : Tab Curve := []
  senders : Tab PSt2110Config := []
  rings : Tab PHostRing := []
  vctx : Tab PVcuContext := []
  vcoding : Tab PVcuCoding := []
  vrate : Tab PVcuRate := []
  vout : Tab PVcuOutput := []
  tbcHeads : Tab PTbcHeadOutput := []
  tbcHist : Option PTbcHistory := none
  tbcPool : Nat := 0
  dmcPolicy : PDmcPolicy := ⟨10, 25, 12, 24, 1024, 48, 16, 10, 2, 1⟩
  userMib : Nat := 0
  deriving DecidableEq, Repr
/-- The slot state record's payload (R606). -/
structure SlotSt where
  active : Nat := 0
  previous : Nat := 0
  trial : Nat := 0
  staged : Nat := 0
  tries : Nat := 0
  result : Nat := 0
  check : Nat := 0
  verA : Nat := 0
  verB : Nat := 0
  stagedVer : Nat := 0
  stagedLen : Nat := 0
  deriving DecidableEq, Repr

/-- The settings record's contents (R615): envelope, goal and power limit; RCP_CFG; pending grain, mask and maximum rate; network configurations; confirmation window and mode; FAULT_HOLD; autoload slot and autocommit. -/
structure Settings where
  env : Nat := 0
  goal : Nat := 0
  watts : Nat := 190
  rcpCfg : Option Nat := none
  grain : Nat := 4096
  mask : Nat := 0
  rate : Nat := 6400
  net : Tab PNetConfig := []
  window : Nat := 120
  mode : Nat := 0
  hold : Nat := 10
  autoload : Nat := 255
  autocommit : Nat := 0
  deriving DecidableEq, Repr

/-- A record of the user calibration store (R612). -/
structure CalRec where
  typ : Nat
  inst : Nat
  gen : Nat
  time : Nat
  bytes : List Nat
  deriving DecidableEq, Repr

/-- The contents of a two-copy record: the slot state, the settings, the calibration store, or a configuration slot with its colour
banks (R596, R616). -/
inductive NPay where
  | slot (x : SlotSt)
  | settings (x : Settings)
  | cal (xs : List CalRec)
  | cfg (c : Cfg) (banks : Tab ColBank)
  deriving DecidableEq, Repr

/-- A copy of a record that is valid: GENERATION, TIME and contents (R597, R599). -/
structure NCopy where
  gen : Nat
  time : Nat
  pay : NPay
  deriving DecidableEq, Repr

/-- Who waits for a record write, the reply's fields, and what follows it: 0 nothing, 1 ENVELOPE_SET's wait for
a plan that is still being formed (R627), 2 the end of staging (R606), 3 a network configuration (R111). -/
structure NWait where
  tk : Ticket
  ps : List RV := []
  next : Nat := 0
  deriving DecidableEq, Repr

/-- A record write (R598, R600): record (0 slot state, 1 settings, 2 calibration store, 3 + s configuration slot), its contents once
it has begun, and who waits for it. -/
structure NWrite where
  rec_ : Nat
  pay : Option NPay := none
  retried : Bool := false
  waiters : List NWait := []
  /-- The flash works on it: not where a deferral holds its second attempt (R571). -/
  on : Bool := true
  /-- The record's image before the first command that waits for the write changed it, taken back when they are refused (none: the record was empty; R82,
  R600, log 172). -/
  undo : Option (Option NPay) := none
  deriving DecidableEq, Repr

/-- An eFuse programming operation (R591): its command and field (0 security version, 1 the revocation of a key slot), the bits still to
be programmed, and the pulses given to the first. -/
structure FusePgm where
  tk : Ticket
  key : Option Nat
  bits : List Nat
  tries : Nat := 0
  /-- A pulse is in progress, and when it began; none is while a deferral holds the next (R571, R591). -/
  on : Bool := false
  at_ : Nat := 0
  deriving DecidableEq, Repr

/-- What a staging command asks for (R606): erasing for a length, a piece at an offset, the check of the image, the end of staging. -/
inductive StageAct where
  | erase
  | piece (offset : Nat) (bytes : List Nat)
  | check
  | abort
  deriving DecidableEq, Repr

/-- A staging command that NVS has queued, or whose flash operation is in progress (R600, R606). -/
structure StageOp where
  tk : Ticket
  act : StageAct
  retried : Bool := false
  /-- The flash has begun it: not while a record is written or a deferral holds it (R571, R600). -/
  on : Bool := false
  deriving DecidableEq, Repr

/-- Boot, firmware and stores (chapter 16). eFuse: revocation bits by key slot, and the security version's bits. Flash: whether it was
found, its size, both copies of every record (record × 2 + copy), the firmware slots and staging (bytes; staging's are those written
by offset), the length begun, the record images in memory, the write in progress and those queued, the staging operations in progress and queued.
`shadowKeys` and `shadowSec` are the shadow of the eFuse's field bits (R590). `boot` is the last completed step
of R603, 0 while held in reset; `trialEnd` is the end of the confirmation window and `hostOk` that FW_CONFIRM was given. -/
structure Nvs where
  revoked : Tab Nat := []
  secBits : List Nat := []
  shadowKeys : Tab Nat := []
  shadowSec : List Nat := []
  found : Bool := false
  sizeMib : Nat := 0
  copies : Tab NCopy := []
  slotA : List Nat := []
  slotB : List Nat := []
  staging : Tab (List Nat) := []
  stageLen : Option Nat := none
  slotImg : SlotSt := {}
  set : Settings := {}
  cal : List CalRec := []
  cfgs : Tab (Cfg × Tab ColBank) := []
  cur : Option NWrite := none
  queue : List NWrite := []
  fuse : Option FusePgm := none
  stage : List StageOp := []
  boot : Nat := 0
  running : Nat := 0
  runVer : Nat := 0
  runSec : Nat := 0
  trial : Bool := false
  trialEnd : Nat := 0
  hostOk : Bool := false
  recovery : Bool := false
  /-- Neither factory calibration copy is valid (R594), and the user trims in force (R613). -/
  factoryBad : Bool := false
  trim : List (Nat × Int) := []
  recoverAt : Option Nat := none
  /-- FW_NOTIFY due at the first STANDBY: kind and result (R619). -/
  tell : Option (Nat × Nat) := none
  deriving DecidableEq, Repr


/-- The state of the block. `now` is the instant, in ps, up to which it has run (log 1); `free` counts the free values
taken (the model's own field, log 3); `regs` holds the register fields of R27 that no other structure holds, by BAR0
address, listing only values other than the reset value; `limits` holds, per rate-limited notification, when it was last
sent and what it has counted since; `out` is the record of outputs; `pending` is the queue of waiting commands. -/
structure State where
  now : Nat := 0
  free : Nat := 0
  dev : Dev := {}
  cfg : Cfg := {}
  regs : Tab Nat := []
  limits : Tab (Nat × Nat) := []
  lnk : Lnk := {}
  fep : Fep := {}
  pos : Pos := {}
  tmu : Tmu := {}
  evr : Evr := {}
  elx : Elx := {}
  models : Models := {}
  res : Res_ := {}
  mrk : Mrk := {}
  clp : Clp := {}
  vcu : Vcu := {}
  tbc : Tbc := {}
  dmc : Dmc := {}
  dma : Dma := {}
  rcp : Rcp := {}
  nvs : Nvs := {}
  mon : Mon := {}
  out : List Out := []
  pending : List Instr := []
  deriving DecidableEq, Repr

/-- The machine right after power is applied to every domain (R561, R569): every field at its reset value. -/
def State.reset : State := {}

end Sys2Proof.Machine
end

