-- ==== Sys2Proof/Machine/Ops.lean ====
section
/-! DEFINITION. Sys2Proof/Machine/Ops.lean: the named operations every meaning is written over: tables, bytes and check
words, the register file, notifications and replies, the device state, and the publication of events. -/

namespace Sys2Proof.Machine

/-! ## Tables -/

/-- The value listed at index `i`. -/
def tabGet {α : Type} : Tab α → Nat → Option α
  | [], _ => none
  | (k, v) :: r, i => if k = i then some v else tabGet r i

/-- The table with `v` at index `i`. -/
def tabPut {α : Type} : Tab α → Nat → α → Tab α
  | [], i, v => [(i, v)]
  | (k, w) :: r, i, v =>
    if i < k then (i, v) :: (k, w) :: r else if k = i then (i, v) :: r else (k, w) :: tabPut r i v

/-- The table with nothing at index `i`. -/
def tabDel {α : Type} : Tab α → Nat → Tab α
  | [], _ => []
  | (k, w) :: r, i => if k = i then tabDel r i else (k, w) :: tabDel r i

/-- The table with the value at `i` changed by `f`, or unchanged where none is listed. -/
def tabMod {α : Type} (t : Tab α) (i : Nat) (f : α → α) : Tab α :=
  match tabGet t i with
  | some v => tabPut t i (f v)
  | none => t

/-- The list with its element at index `i` changed by `f`. -/
def listMod {α : Type} : List α → Nat → (α → α) → List α
  | [], _, _ => []
  | x :: r, 0, f => f x :: r
  | x :: r, i + 1, f => x :: listMod r i f

/-- Element `i` of a list of naturals, 0 beyond its end. -/
def nth (xs : List Nat) (i : Nat) : Nat := xs.getD i 0

/-- Element `i` of a list of integers, 0 beyond its end. -/
def nthI (xs : List Int) (i : Nat) : Int := xs.getD i 0

/-! ## Numbers -/

def clampI (lo hi x : Int) : Int := if x < lo then lo else if hi < x then hi else x

def clampN (lo hi x : Nat) : Nat := if x < lo then lo else if hi < x then hi else x

/-- x rounded to an integer quotient, halves upwards: floor(a / b + 1/2). -/
def roundDivUp (a : Int) (b : Nat) : Int := Int.fdiv (2 * a + b) (2 * b)

/-- Ceiling of a / b. -/
def ceilDiv (a b : Nat) : Nat := (a + b - 1) / b

/-- Ceiling of a / b for an integer a. -/
def ceilDivI (a : Int) (b : Nat) : Int := - Int.fdiv (-a) b

/-- The two's-complement reading of the low `w` bits of x. -/
def toSigned (w x : Nat) : Int := if x % 2 ^ w < 2 ^ (w - 1) then (x % 2 ^ w : Nat) else (x % 2 ^ w : Nat) - (2 ^ w : Nat)

/-- The low `w` bits of an integer's two's complement. -/
def toUnsigned (w : Nat) (x : Int) : Nat := (Int.emod x (2 ^ w : Nat)).toNat

/-- Bits hi down to lo of x. -/
def bits (x hi lo : Nat) : Nat := x / 2 ^ lo % 2 ^ (hi + 1 - lo)

def bit (x i : Nat) : Bool := Nat.testBit x i

def boolNat (b : Bool) : Nat := if b then 1 else 0

/-! ## Bytes and check words -/

/-- The `n` low bytes of a number's two's complement, little-endian (R10). -/
def leBytes (n : Nat) (x : Int) : List Nat := (List.range n).map fun i => toUnsigned (8 * n) x / 2 ^ (8 * i) % 256

/-- The number a little-endian string of bytes holds. -/
def leNat : List Nat → Nat
  | [] => 0
  | b :: r => b + 256 * leNat r

/-- The little-endian number of `n` bytes at offset `o` of a string. -/
def leAt (bs : List Nat) (o n : Nat) : Nat := leNat ((bs.drop o).take n)

def leAtI (bs : List Nat) (o n : Nat) : Int := toSigned (8 * n) (leAt bs o n)

/-- A string padded with zero bytes to a multiple of n. -/
def padTo (n : Nat) (bs : List Nat) : List Nat := bs ++ List.replicate ((n - bs.length % n) % n) 0

/-- `k` of `n`, where evaluation finishes `n` first. -/
def forced {α : Type} (n : Nat) (k : Nat → α) : α :=
  match n with
  | 0 => k 0
  | m + 1 => k (m + 1)

def crc32cBits : Nat → Nat → Nat
  | 0, c => c
  | k + 1, c => crc32cBits k (if c % 2 = 1 then (c / 2) ^^^ 0x82F63B78 else c / 2)

def crc32cFold (c : Nat) : List Nat → Nat
  | [] => c
  | b :: r => forced (crc32cBits 8 (c ^^^ (b % 256))) fun x => crc32cFold x r

/-- CRC-32C of a string of bytes (R67). -/
def crc32c (bs : List Nat) : Nat := crc32cFold 0xFFFFFFFF bs ^^^ 0xFFFFFFFF

def crc16Bits : Nat → Nat → Nat
  | 0, c => c
  | k + 1, c => crc16Bits k (if c / 32768 % 2 = 1 then (c * 2 % 65536) ^^^ 0x1021 else c * 2 % 65536)

def crc16Fold (c : Nat) : List Nat → Nat
  | [] => c
  | b :: r => forced (crc16Bits 8 (c ^^^ (b % 256 * 256))) fun x => crc16Fold x r

/-- CRC-16 of a string of bytes (R126). -/
def crc16 (bs : List Nat) : Nat := crc16Fold 0xFFFF bs

/-! ## Byte memories: buffers in DRAM whose bytes not listed read 0 (log 43) -/

/-- The byte at an address. -/
def memByte (m : Tab Nat) (a : Nat) : Nat := (tabGet m a).getD 0

/-- Writes one byte; a byte of 0 is not listed. -/
def memSet (m : Tab Nat) (a v : Nat) : Tab Nat := if v % 256 = 0 then tabDel m a else tabPut m a (v % 256)

def memRead (m : Tab Nat) (a n : Nat) : List Nat := (List.range n).map fun i => memByte m (a + i)

def memWrite (m : Tab Nat) (a : Nat) : List Nat → Tab Nat
  | [] => m
  | b :: r => memWrite (memSet m a b) (a + 1) r

/-- The canonical form of a byte memory: addresses rising, every listed byte other than 0 and below 256. -/
def Memory.wfFrom (lo : Nat) : Tab Nat → Bool
  | [] => true
  | (a, v) :: r => decide (lo ≤ a) && decide (0 < v) && decide (v < 256) && Memory.wfFrom (a + 1) r

def Memory.wf (m : Tab Nat) : Bool := Memory.wfFrom 0 m

/-- Errors of 64-byte units that are left after a write of the n bytes from `a` on of a space: a full write of a unit clears its error (R519). -/
def clearBad (sp a n : Nat) (bad : List (Nat × Nat × Nat)) : List (Nat × Nat × Nat) :=
  bad.filter fun e => ! (e.1 == sp && decide (a ≤ e.2.1 * 64 ∧ e.2.1 * 64 + 64 ≤ a + n))

/-! ## Load meters -/

/-- The meter at second `sec`: a second that has ended gives the last load, in ‰ of `cap` units of work. -/
def meterAt (sec cap : Nat) (m : Meter) : Meter :=
  if m.sec = sec then m else
  let last := if m.sec + 1 = sec then min 65535 (m.acc * 1000 / max 1 cap) else 0
  { sec := sec, acc := 0, last := last, peak := max m.peak (max last (min 65535 (m.acc * 1000 / max 1 cap))) }

def meterAdd (sec cap n : Nat) (m : Meter) : Meter := let x := meterAt sec cap m; { x with acc := x.acc + n }

/-- A load register: LAST and PEAK. -/
def meterReg (m : Meter) : Nat := m.last + m.peak * 65536

/-! ## Reply layout (R680) -/

/-- The bytes of one value placed after `off` bytes. -/
def rvAt (off : Nat) : RV → List Nat
  | .num n v => List.replicate ((n - off % n) % n) 0 ++ leBytes n v
  | .block xs => List.replicate ((4 - off % 4) % 4) 0 ++ xs
  | .align n => List.replicate ((n - off % n) % n) 0

def rvBytesFrom (acc : List Nat) : List RV → List Nat
  | [] => padTo 4 acc
  | r :: rs => rvBytesFrom (acc ++ rvAt acc.length r) rs

/-- The parameter area of a reply or notification (R680). -/
def rvBytes (ps : List RV) : List Nat := rvBytesFrom [] ps

def u8 (x : Nat) : RV := .num 1 x
def u16 (x : Nat) : RV := .num 2 x
def u32 (x : Nat) : RV := .num 4 x
def u64 (x : Nat) : RV := .num 8 x
def s16 (x : Int) : RV := .num 2 x
def s32 (x : Int) : RV := .num 4 x
def s64 (x : Int) : RV := .num 8 x

/-- A reply or notification packet as sent (R65 to R67). -/
def packetBytes (r : Reply) : List Nat :=
  let area := rvBytes r.ps
  let head := leBytes 2 0x4B44 ++ [1, if r.note then 9 else 1] ++ leBytes 2 r.op ++ leBytes 2 r.session ++
    leBytes 4 r.seq ++ leBytes 4 r.tag ++ leBytes 4 area.length ++ leBytes 2 r.status ++ [r.state % 256, 0] ++
    leBytes 4 r.adj
  head ++ leBytes 4 (crc32c (head ++ area)) ++ area

/-! ## Status codes (R82) -/

def stOk : Nat := 0x0000
def stClamped : Nat := 0x0001
def stQueued : Nat := 0x0002
def stLate : Nat := 0x0003
def eVersion : Nat := 0x8001
def eLength : Nat := 0x8002
def eCrc : Nat := 0x8003
def eSession : Nat := 0x8004
def eSequence : Nat := 0x8005
def eOpcode : Nat := 0x8006
def eOwner : Nat := 0x8007
def eState : Nat := 0x8008
def eAbsent : Nat := 0x8009
def eParam : Nat := 0x800A
def eBudget : Nat := 0x800B
def eSize : Nat := 0x800C
def eSessions : Nat := 0x800D
def eQueueFull : Nat := 0x800E
def eStale : Nat := 0x800F
def eBusy : Nat := 0x8010
def eFormat : Nat := 0x8011
def eAuth : Nat := 0x8012
def eLoop : Nat := 0x8013
def eStore : Nat := 0x8014
def eCancelled : Nat := 0x8015
def eDevice : Nat := 0x8016

/-! ## Time (log 1) -/

def ms : Nat := 1000000000
def us : Nat := 1000000
def ns : Nat := 1000
def secPs : Nat := 1000000000000

/-- The SYS cycle that holds the present instant: 1.6 GHz, 625 ps (R490). -/
def sysCycle (s : State) : Nat := s.now / 625

/-! ## Free values (log 3) -/

/-- A free natural number, and the state with it taken. -/
def takeNat (s : State) : Nat × State := (Config.freeNat s.free, { s with free := s.free + 1 })

def takeInt (s : State) : Int × State := (Config.freeInt s.free, { s with free := s.free + 1 })

/-- A free string of n bytes, and the state with it taken. -/
def takeBytes (n : Nat) (s : State) : List Nat × State :=
  ((List.range n).map fun i => ((Config.freeBytes s.free n).getD i 0).toNat, { s with free := s.free + 1 })

/-! ## Outputs -/

/-- Outputs that a reset of System reach or wider holds low, silent or down from its assertion on (R574). -/
def outHeld (r : Rcp) (o : Out) : Bool :=
  r.rst.isSome && match o with
    | .pin ball _ up => up && decide (ball < 8)
    | .event _ | .bus .. | .spi .. | .dram .. | .flash .. => false
    | .reply .. | .note .. | .hostWr .. | .hostFill .. | .hostRd .. | .msix .. | .back .. | .block .. | .frame .. | .fired .. | .shift .. | .latch .. | .preheat .. => true

/-- An output leaves the block, unless a reset holds it (R574). -/
def emit (o : Out) (s : State) : State := { s with out := if outHeld s.rcp o then s.out else o :: s.out }

/-- The level of a ball. -/
def pinHeadEn : Nat := 0
def pinMhFire : Nat := 1
def pinCmp : Nat := 2
def pinTio : Nat := 3
def pinPpsOut : Nat := 4
def pinSlowreq : Nat := 5
def pinStopreq : Nat := 6
def pinRevreq : Nat := 7
def pinFaultN : Nat := 8
def pinThermN : Nat := 9
def pinFlashRst : Nat := 10

/-! ## The register file (R27, R161 and the other chapters' register rules) -/

def devBase : Nat := 0x00000000
def rcpBase : Nat := 0x00100000
def evrBase : Nat := 0x00200000
def tmuBase : Nat := 0x00300000
def posBase : Nat := 0x00400000
def mrkBase : Nat := 0x00500000
def dmaBase : Nat := 0x00600000
def cptBase (n : Nat) : Nat := 0x00800000 + n * 0x10000
def fepBase : Nat := 0x00A00000
def clpBase : Nat := 0x00C00000
def vcuBase : Nat := 0x00E00000
def tbcBase : Nat := 0x00F00000
def dmcBase : Nat := 0x01000000
def elxBase : Nat := 0x01100000
def monBase : Nat := 0x01200000
def lncBase : Nat := 0x01300000
def resBase : Nat := 0x01500000
def nvsBase : Nat := 0x01600000

/-- The reset value of a register held in `State.regs` (the Reset columns). -/
def regReset (a : Nat) : Nat :=
  if a = devBase + 0x20 then 0xE000
  else if a = rcpBase + 0x08 then 0x10
  else if a = rcpBase + 0x10 then 0x07D0
  else if a = tmuBase + 0x0C then 1
  else if mrkBase + 0x100 ≤ a ∧ a < mrkBase + 0x300 ∧ a % 0x20 = 0 then 0x80000000
  else if dmcBase + 0x100 ≤ a ∧ a < dmcBase + 0x1C0 ∧ a % 0x10 = 8 then 0x80008000
  else if a = monBase + 0x08 then 0x8000
  else if monBase + 0x100 ≤ a ∧ a < monBase + 0x160 then 0x8000
  else 0

def rget (a : Nat) (s : State) : Nat := (tabGet s.regs a).getD (regReset a)

/-- The register file with `v` at `a`, in canonical form: no entry holds its register's reset value. -/
def rput (a v : Nat) (s : State) : State :=
  { s with regs := if v % 2 ^ 32 = regReset a then tabDel s.regs a else tabPut s.regs a (v % 2 ^ 32) }

/-- Writes bits lo + w − 1 down to lo of a register. -/
def rfield (a lo w v : Nat) (s : State) : State :=
  let old := rget a s
  rput a (old - (old / 2 ^ lo % 2 ^ w) * 2 ^ lo + (v % 2 ^ w) * 2 ^ lo) s

/-- Adds n to a 32-bit counter, which saturates (R161). -/
def bump (a n : Nat) (s : State) : State := rput a (min (rget a s + n) 0xFFFFFFFF) s

/-- Sets bit i of a register. -/
def rset (a i : Nat) (s : State) : State := rput a (rget a s ||| 2 ^ i) s

/-- Returns every listed register of [lo, hi) to its reset value. -/
def rclear (lo hi : Nat) (s : State) : State :=
  { s with regs := s.regs.filter fun e => ! (lo ≤ e.1 && e.1 < hi) }

def irqStatus (l : Nat) : Nat := 0x1010 + l * 0x1000
def irqMask (l : Nat) : Nat := 0x1014 + l * 0x1000

/-- Sets IRQ_STATUS[L] bit b on one link; MSI-X vector 64 where the mask enables it (R108), at every set and at no write of the mask
(log 200). -/
def irqLink (b : Nat) (s : State) (l : Nat) : State :=
  let s := rset (irqStatus l) b s
  if bit (rget (irqMask l) s) b then emit (.msix l 64) s else s

/-- Sets IRQ_STATUS[L] bit b on every host link (R108, R110). -/
def irqAll (b : Nat) (s : State) : State := [0, 1, 2, 3].foldl (irqLink b) s

/-! ## Queue pairs (R59 to R64) -/

/-- The fields of a submission entry (R59). -/
def pktAddr (e : List Nat) : Nat := leAt e 0 8
def rplAddr (e : List Nat) : Nat := leAt e 8 8
def pktLen (e : List Nat) : Nat := leAt e 16 4
def rplCap (e : List Nat) : Nat := leAt e 20 4

def pairKey (link pair : Nat) : Nat := link * 64 + pair

/-- Writes one completion, with its reply or notification, into the pair's rings and signals its vector (R60, R61, R64). -/
def writeCompl (link pair : Nat) (q : QPair) (c : Compl) (s : State) : QPair × State :=
  let bytes := packetBytes c.r
  let cap := if c.r.note then 256 else c.cap
  let addr := if c.r.note then q.area + 256 * q.cqTail else c.addr
  let flags := boolNat q.phase + 2 * boolNat (cap < bytes.length) + 4 * boolNat c.r.note
  let entry := leBytes 4 (if c.r.note then c.r.seq else c.r.tag) ++ leBytes 2 c.r.status ++ leBytes 2 flags ++
    leBytes 4 bytes.length ++ leBytes 2 q.sqHead ++ [0, 0]
  let s := emit (.msix link pair) (emit (.hostWr link (q.cq + 16 * q.cqTail) entry) (emit (.hostWr link addr (bytes.take cap)) s))
  let wrap := q.cqTail + 1 = q.entries
  ({ q with cqTail := if wrap then 0 else q.cqTail + 1, phase := if wrap then ! q.phase else q.phase, used := q.used + 1 }, s)

def flushList (link pair : Nat) : List Compl → QPair → State → QPair × State
  | [], q, s => ({ q with waiting := [] }, s)
  | c :: cs, q, s =>
    if q.used < q.entries then
      let r := writeCompl link pair q c s
      flushList link pair cs r.1 r.2
    else ({ q with waiting := c :: cs }, s)

/-- Writes the waiting completions for which the completion ring has room (R62). -/
def flushPair (link pair : Nat) (s : State) : State :=
  match tabGet s.dev.pairs (pairKey link pair) with
  | none => s
  | some q =>
    let r := flushList link pair q.waiting q s
    { r.2 with dev := { r.2.dev with pairs := tabPut r.2.dev.pairs (pairKey link pair) r.1 } }

/-- Hands a completion to a pair; where the pair no longer exists it is lost. -/
def postCompl (link pair : Nat) (c : Compl) (s : State) : State :=
  flushPair link pair
    { s with dev := { s.dev with pairs := tabMod s.dev.pairs (pairKey link pair) fun q => { q with waiting := q.waiting ++ [c] } } }

/-- Whether an interface takes jumbo frames (R56). -/
def jumboOn (s : State) (via : Via) : Bool :=
  match via with
  | .udp p .. => match tabGet s.dev.net p with | some c => bit c.flags 0 | none => false
  | .pcie .. => false

/-- The largest packet that a transport carries (R57). -/
def maxPacket (s : State) (via : Via) : Nat :=
  match via with
  | .pcie .. => 65568
  | .udp _ v6 _ _ => (if jumboOn s via then 9000 else 1500) - (if v6 then 40 else 20) - 8

/-- Sends a reply on the transport that carried its command (R55). -/
def sendReply (via : Via) (r : Reply) (s : State) : State :=
  match via with
  | .pcie link pair e => postCompl link pair ⟨r, rplAddr e, rplCap e⟩ s
  | .udp .. => emit (.reply via r) s

/-- Sends a notification on a session's route; a pair without a notification area gets none (R55, R64). -/
def sendNoteVia (via : Via) (r : Reply) (s : State) : State :=
  match via with
  | .pcie link pair _ =>
    match tabGet s.dev.pairs (pairKey link pair) with
    | some q => if q.area = 0 then s else postCompl link pair ⟨r, 0, 256⟩ s
    | none => s
  | .udp .. => emit (.note via r) s

/-! ## Notifications (R81, R105) -/

/-- The code of a device state (R69). -/
def stateCode : DevState → Nat
  | .boot => 0 | .standby => 1 | .configured => 2 | .armed => 3
  | .running => 4 | .draining => 5 | .fault => 6 | .update => 7

def runningState : DevState → Bool
  | .armed | .running | .draining => true
  | .boot | .standby | .configured | .fault | .update => false

/-- Sends one notification to an open session, with that session's next notification number (R81). -/
def notify (sid op tag status : Nat) (ps : List RV) (s : State) : State :=
  match tabGet s.dev.sessions sid with
  | none => s
  | some x =>
    let s := { s with dev := { s.dev with sessions := tabPut s.dev.sessions sid { x with noteNo := (x.noteNo + 1) % 2 ^ 32 } } }
    sendNoteVia x.via ⟨op, sid, (x.noteNo + 1) % 2 ^ 32, tag, status, stateCode s.dev.state, 0, true, ps⟩ s

/-- Sends a notification to every open session that `who` picks; one that a command causes echoes its tag (R74; log 201). -/
def notifyWhere (who : Nat → Sess → Bool) (op status : Nat) (ps : List RV) (s : State) : State :=
  (s.dev.sessions.filter fun e => who e.1 e.2).foldl (fun s e => notify e.1 op ((s.dev.cause.map fun c => c.2).getD 0) status ps s) s

/-- `f` as something that a command causes, by its session and tag (R74). -/
def causing (c : Option (Nat × Nat)) (f : State → State) (s : State) : State :=
  let old := s.dev.cause
  let s := f { s with dev := { s.dev with cause := c } }
  { s with dev := { s.dev with cause := old } }

def causedBy (tk : Ticket) (f : State → State) (s : State) : State := causing (some (tk.session, tk.tag)) f s

/-- Sends a notification to the sessions subscribed to its opcode's family (R105). -/
def notifySubs (op : Nat) (ps : List RV) (s : State) : State :=
  notifyWhere (fun _ x => bit x.mask (op / 256)) op 0 ps s

/-- Sends a notification to the family's subscribers and to one session, once (R683). -/
def notifySubsAnd (sid : Option Nat) (op : Nat) (ps : List RV) (s : State) : State :=
  notifyWhere (fun i x => bit x.mask (op / 256) || sid == some i) op 0 ps s

/-- Counts n towards a rate-limited notification and says whether it may go out now, with the total since the last:
at most once per opcode, kind and index in each 100 ms (R205, R251, R506 and the like). -/
def limited (op kind idx n : Nat) (s : State) : Option Nat × State :=
  let key := (op * 256 + kind) * 2 ^ 24 + idx
  match tabGet s.limits key with
  | none => (some n, { s with limits := tabPut s.limits key (s.now, 0) })
  | some (last, c) =>
    if last + 100 * ms ≤ s.now then (some (c + n), { s with limits := tabPut s.limits key (s.now, 0) })
    else (none, { s with limits := tabPut s.limits key (last, c + n) })

/-- A rate-limited notification to a family's subscribers whose fields are built from its count. -/
def notifyLimited (op kind idx n : Nat) (mk : Nat → List RV) (s : State) : State :=
  match limited op kind idx n s with
  | (some c, s) => notifySubs op (mk c) s
  | (none, s) => s

/-- Changes the device state; STATE_NOTIFY to every session that is not QUIET, and IRQ STATE_CHG (R81, R105, R108). -/
def setState (st : DevState) (cause : Nat) (s : State) : State :=
  if s.dev.state = st then s else
    let old := s.dev.state
    let s := irqAll 0 { s with dev := { s.dev with state := st } }
    notifyWhere (fun _ x => ! x.quiet) 0x01F0 0 [u8 (stateCode old), u8 (stateCode st), u16 cause] s

/-- OWNER_NOTIFY to every open session (R103). -/
def ownerNote (cause : Nat) (s : State) : State := notifyWhere (fun _ _ => true) 0x00F0 0 [u16 (s.dev.owner.getD 0xFFFF), u8 cause] s

/-- A change of ownership: OWNER_NOTIFY, and IRQ OWNER_CHG (R103, R108). -/
def ownerNotify (cause : Nat) (s : State) : State := ownerNote cause (irqAll 1 s)

/-! ## Answers to operations in progress -/

/-- Files a reply as the retained reply of its sequence number, while that is one of the last 16 consumed (R72). -/
def retain (sid seq : Nat) (r : Option Reply) (s : State) : State :=
  { s with dev := { s.dev with sessions := tabMod s.dev.sessions sid fun x =>
      { x with kept := x.kept.map fun e => if e.1 = seq then (seq, r) else e } } }

/-- Answers a command: its reply, or for a command of the apply-at queue its APPLIED_NOTIFY (R75, R83, R91). A SILENT
command that is answered ST_OK gets no reply, and on a queue pair no completion entry (R66; log 241). -/
def answer (tk : Ticket) (status : Nat) (ps : List RV) (s : State) : State :=
  if tk.queued then
    let st := if status = stOk ∧ tk.late then stLate else if status = stOk ∧ tk.adj ≠ 0 then stClamped else status
    notify tk.session 0x01F1 tk.tag st [u16 tk.op, u32 tk.tag, u16 st] s
  else
    let st := if status = stOk ∧ tk.adj ≠ 0 then stClamped else status
    let r : Reply := ⟨tk.op, tk.session, tk.seq, tk.tag, st, stateCode s.dev.state, tk.adj, false, ps⟩
    let s := retain tk.session tk.seq (some r) s
    if tk.silent ∧ st = stOk then s else sendReply tk.via r s

/-! ## The event router: publication (R489 to R491, R498 to R503) -/

def evrNotify (kind ch task origin n : Nat) (s : State) : State :=
  notifyLimited 0x0DF0 kind (if task = 0xFFFF then ch else task) n
    (fun c => [u8 kind, u16 ch, u16 task, u16 origin, u32 c]) s

/-- Whether wrapper w isolates its block (R582). -/
def wrapClosed (w : Nat) (s : State) : Bool :=
  match tabGet s.rcp.wraps w with
  | some x => decide (0 < x.stage)
  | none => false

/-- Counts an access or a transfer that a closed wrapper answers (R582). -/
def isoErr (s : State) : State := bump (rcpBase + 0x44) 1 s

/-- A transfer towards the block behind wrapper `w`: refused and counted while the wrapper is closed (R582). -/
def toBlock (w : Nat) (f g : State → State) (s : State) : State := if wrapClosed w s then isoErr (g s) else f s

/-- A write of a service queue of DMA to host memory (R540); refused while DMA's wrapper is closed (R544, R582). -/
def serviceWr (link a : Nat) (bs : List Nat) (s : State) : State := toBlock 40 (emit (.hostWr link a bs)) (fun s => s) s

/-- The wrapper of the block that raises a source (R492, R581). -/
def srcWrap (src : Nat) : Nat :=
  if src < 0x0200 then src % 16 else if src < 0x0300 then 32 else if src < 0x0400 then 38 else if src < 0x0500 then 37
  else if src < 0x0600 then 16 + src % 16 else if src < 0x0700 then 39 else if src < 0x0800 then 33
  else if src < 0x0900 then 35 else if src < 0x0A00 then 40 else 36

/-- A second event on a channel in one cycle merges with the first: the lowest origin (R495). -/
def mergeTag (ch cyc tag : Nat) (f : Flight) : Flight := if f.ch = ch ∧ f.cyc = cyc + 2 then { f with tag := min f.tag tag } else f

/-- Publication of one event on an enabled channel: the loop rule, the count and watch flag, and the deliveries two
cycles later (R490, R491, R495, R498, R499, R501). -/
def publishOn (origin : Option Nat) (s : State) (c : PEvrChannel) : State :=
  let cyc := sysCycle s
  let tag := origin.getD c.ch
  if origin = some c.ch ∧ c.loopOk = 0 then
    let s := bump (evrBase + 0x0C) 1 (rset (evrBase + 0x04) 0 (rset (evrBase + 0x140 + c.ch / 32 * 4) (c.ch % 32) s))
    evrNotify 1 c.ch 0xFFFF c.ch 1 s
  else if tabGet s.evr.lastPub c.ch = some cyc then
    { s with evr := { s.evr with flight := s.evr.flight.map (mergeTag c.ch cyc tag) } }
  else
    let s := bump (evrBase + 0x1000 + c.ch * 4) 1 s
    let seen := bit (rget (evrBase + 0x100 + c.ch / 32 * 4) s) (c.ch % 32)
    let s := rset (evrBase + 0x100 + c.ch / 32 * 4) (c.ch % 32) s
    let s := if ! seen ∧ bit (rget (evrBase + 0x120 + c.ch / 32 * 4) s) (c.ch % 32) then irqAll 4 s else s
    let s := if c.notify = 1 then evrNotify 0 c.ch 0xFFFF tag 1 s else s
    { s with evr := { s.evr with
        lastPub := tabPut s.evr.lastPub c.ch cyc
        flight := s.evr.flight ++ ((c.tasks.take c.forks).filter fun k => k != 0xFFFF).eraseDups.map fun k => ⟨cyc + 2, k, tag, c.ch⟩ } }

/-- Raises an event source: every enabled channel that selects it publishes it (R491, R492). `origin` is the tag of the
delivery that caused it, none where no delivery did (R498). A block in reset raises none, and the router in reset loses all
(R504, R582). -/
def publishFrom (origin : Option Nat) (src : Nat) (s : State) : State :=
  if wrapClosed (srcWrap src) s ∨ wrapClosed 36 s then s else
  ((s.cfg.chans.map fun e => e.2).filter fun c => c.enable = 1 && c.source = src).foldl (publishOn origin) (emit (.event src) s)

def publish (src : Nat) (s : State) : State := publishFrom none src s

/-! ## Calibration items (R635) -/

def calKey (kind inst : Nat) : Nat := kind * 1024 + inst

/-- Notes a run of a calibration item (R635). -/
def calRan (kind inst : Nat) (quality : Int) (s : State) : State :=
  let old := (tabGet s.mon.cal (calKey kind inst)).getD {}
  let item : CalItem := { count := min (old.count + 1) 0xFFFFFFFF, last := s.tmu.acc / 2 ^ 32, quality := quality, tj := s.mon.tj, cls := s.mon.loadClass }
  { s with mon := { s.mon with cal := tabPut s.mon.cal (calKey kind inst) item } }

/-- The result of a command's own effect. -/
inductive Res where
  /-- Done: the state and the reply's parameter area. -/
  | ok (s : State) (ps : List RV)
  /-- Refused, with no side effect (R75). -/
  | no (status : Nat) (ps : List RV)
  /-- In progress: the reply follows later (R682, R165, R685). -/
  | later (s : State)

/-- Owner id as replies give it: 0xFFFF when vacant (R111). -/
def ownerId (s : State) : Nat := s.dev.owner.getD 0xFFFF

/-- Remaining lease in ms, rounded up (log 4); 0 when vacant. -/
def leaseLeft (s : State) : Nat := if s.dev.owner.isSome then ceilDiv (s.dev.leaseEnd - s.now) ms else 0

/-- Whether an index of `n` names an instance of the ordering code: the HA has half (R2). -/
def present (n i : Nat) (s : State) : Bool := if s.dev.ha then i < n / 2 else i < n

end Sys2Proof.Machine
end

