-- ==== Sys2Proof/Machine/Flags.lean ====
section
/-! DEFINITION. Sys2Proof/Machine/Flags.lean: how a write changes the flags and counters of the register file: W1C flags, counter clears
and owner-only fields (R23, R162). -/

namespace Sys2Proof.Machine

/-- A register write as it arrives: through the owning session's window or through BAR0, the link whose BAR0 it is, the value for RW
fields (bits not written keep theirs), and the bits written as 1. -/
structure RegWr where
  window : Bool
  via : Nat
  rw : Nat
  ones : Nat

/-- A write that R162 and R23's RW-O let take effect. -/
def wrAllowed (w : RegWr) (s : State) : Bool := w.window || s.dev.owner.isNone

/-- W1C: the bits of the mask that are written as 1 are cleared (R23). -/
def w1c (a mask : Nat) (w : RegWr) (s : State) : State := let old := rget a s; rput a (old - (old &&& (w.ones &&& mask))) s

def w1cTo (a bits_ : Nat) (w : RegWr) (s : State) : State := w1c a (2 ^ bits_ - 1) w s

/-- CLEAR of a counter-clear register (R162). -/
def clearIf (f : State → State) (w : RegWr) (s : State) : State := if wrAllowed w s ∧ bit w.ones 0 then f s else s

end Sys2Proof.Machine
end

