-- ==== Sys2Proof/Machine/Binary.lean ====
section
/-! DEFINITION. Sys2Proof/Machine/Binary.lean: the IEEE 754 binary64 arithmetic of R268, exact over integers: each operation
forms its exact result and rounds it once to 53 bits, halves to even. Exponents stay far from their limits. -/

namespace Sys2Proof.Machine

/-- The value m × 2^e. -/
structure F64 where
  m : Int
  e : Int
  deriving DecidableEq, Repr

/-- num / den × 2^e rounded to 53 bits. -/
def f64Round (num : Int) (den : Nat) (e : Int) : F64 :=
  if num = 0 then ⟨0, 0⟩ else
  let n := num.natAbs
  let k : Int := 53 + (Nat.log2 den : Int) - (Nat.log2 n : Int)
  let at_ : Int → Nat × Nat := fun k => (n * 2 ^ k.toNat, den * 2 ^ (-k).toNat)
  let k := if 2 ^ 53 ≤ (at_ k).1 / (at_ k).2 then k - 1 else k
  let p := at_ k
  let q := p.1 / p.2
  let r := p.1 % p.2
  let q := if p.2 < 2 * r ∨ (2 * r = p.2 ∧ q % 2 = 1) then q + 1 else q
  ⟨if num < 0 then -(q : Int) else q, e - k⟩

def f64Int (x : Int) : F64 := f64Round x 1 0

/-- The quotient of two integers, rounded once. -/
def f64Quot (a : Int) (b : Nat) : F64 := f64Round a b 0

def f64Mul (a b : F64) : F64 := f64Round (a.m * b.m) 1 (a.e + b.e)

/-- Both mantissas at the lower exponent. -/
def f64Align (a b : F64) : Int × Int × Int :=
  let e := min a.e b.e
  (a.m * 2 ^ (a.e - e).toNat, b.m * 2 ^ (b.e - e).toNat, e)

def f64Add (a b : F64) : F64 := let x := f64Align a b; f64Round (x.1 + x.2.1) 1 x.2.2

def f64Sub (a b : F64) : F64 := f64Add a ⟨-b.m, b.e⟩

def f64Half (a : F64) : F64 := ⟨a.m, a.e - 1⟩

def f64Div (a b : F64) : F64 :=
  if b.m = 0 then ⟨0, 0⟩ else f64Round (if b.m < 0 then -a.m else a.m) b.m.natAbs (a.e - b.e)

/-- Integer square root by digits: `k` bit pairs remain, `r` is the root so far. -/
def isqrtFrom (n : Nat) : Nat → Nat → Nat
  | 0, r => r
  | k + 1, r => isqrtFrom n k (if (r + 2 ^ k) * (r + 2 ^ k) ≤ n then r + 2 ^ k else r)

def isqrt (n : Nat) : Nat := isqrtFrom n (Nat.log2 n / 2 + 1) 0

def f64Sqrt (a : F64) : F64 :=
  if a.m ≤ 0 then ⟨0, 0⟩ else
  let s : Nat := 112 + (if Int.emod (a.e - 112) 2 = 0 then 0 else 1)
  let n := a.m.toNat * 2 ^ s
  let r := isqrt n
  f64Round (2 * r + (if r * r = n then 0 else 1) : Nat) 1 (Int.fdiv (a.e - s) 2 - 1)

/-- Terms of Euler's series for the arc tangent, scaled by 2^240: `t` is term n, `a`/`b` the ratio y² / (x² + y²). -/
def atanTerms (a b : Nat) : Nat → Nat → Nat → Nat
  | 0, _, _ => 0
  | k + 1, n, t => t + atanTerms a b k (n + 1) (t * (2 * n + 2) * a / ((2 * n + 3) * b))

/-- atan(y / x) × 2^240 for 0 ≤ y ≤ x, x > 0. -/
def atanFix (y x : Nat) : Nat := atanTerms (y * y) (x * x + y * y) 260 0 (2 ^ 240 * (x * y) / (x * x + y * y))

/-- π × 2^240. -/
def piFix : Nat := 4 * atanFix 1 1

/-- atan2 rounded to binary64. -/
def f64Atan2 (y x : F64) : F64 :=
  let al := f64Align y x
  let ya := al.1.natAbs
  let xa := al.2.1.natAbs
  let base := if ya = 0 then 0 else if ya ≤ xa then atanFix ya xa else piFix / 2 - atanFix xa ya
  let a := if al.2.1 < 0 then piFix - base else base
  f64Round (if al.1 < 0 then -(a : Int) else a) 1 (-240)

/-- The constant 180 / π as binary64. -/
def f64Deg : F64 := f64Round ((180 * 2 ^ 240 : Nat) : Int) piFix 0

/-- Largest integer at or below the value. -/
def f64Floor (a : F64) : Int := if 0 ≤ a.e then a.m * 2 ^ a.e.toNat else Int.fdiv a.m (2 ^ (-a.e).toNat)

/-- Nearest integer, halves upwards. -/
def f64HalfUp (a : F64) : Int := if 0 ≤ a.e then a.m * 2 ^ a.e.toNat else roundDivUp a.m (2 ^ (-a.e).toNat)

/-- ROUND_PM and ANGLE_MDEG from a component's exact sums and the two pitches, the CD pitch in 1/den nm (R268). -/
def roundAngle (pcd den pmd a : Nat) (sc : Int) (sn : Int) (scc snn : Int) (scn : Int) : Int × Int :=
  let mc := f64Quot sc a
  let mn := f64Quot sn a
  let pc := f64Quot pcd den
  let pm := f64Int pmd
  let xx := f64Mul (f64Mul pc pc) (f64Sub (f64Quot scc a) (f64Mul mc mc))
  let yy := f64Mul (f64Mul pm pm) (f64Sub (f64Quot snn a) (f64Mul mn mn))
  let xy := f64Mul (f64Mul pc pm) (f64Sub (f64Quot scn a) (f64Mul mc mn))
  let d := f64Half (f64Sub xx yy)
  let h := f64Sqrt (f64Add (f64Mul d d) (f64Mul xy xy))
  let m := f64Half (f64Add xx yy)
  let l1 := f64Add m h
  let l2 := f64Sub m h
  let l2 := if l2.m < 0 then ⟨0, 0⟩ else l2
  let ang := f64HalfUp (f64Mul (f64Int 1000) (f64Mul (f64Half (f64Atan2 ⟨2 * xy.m, xy.e⟩ (f64Sub xx yy))) f64Deg))
  (if l1.m = 0 then 1000 else f64Floor (f64Div (f64Mul (f64Int 1000) l2) l1), if ang = -90000 then 90000 else ang)

end Sys2Proof.Machine
end

