-- ==== Sys2Proof/Machine/ColourMath.lean ====
section
/-! DEFINITION. Sys2Proof/Machine/ColourMath.lean: colour science (R399 to R409) on frames as lists of rows: black level, defects,
demosaic, matrix, LUT, scaler, curves, Y′CbCr, chroma sampling and quantisation. The scaler's default table (R405) is formed in
fixed point with 120 fraction bits and rounded once; the presets (R406) are evaluated in binary64 (log 44). -/

namespace Sys2Proof.Machine

/-! ## Fixed point -/

def fxOne : Int := 2 ^ 120

def fxMul (a b : Int) : Int := a * b / fxOne
def fxDiv (a b : Int) : Int := if b = 0 then 0 else a * fxOne / b

/-- Σ (±1)^i z^(2i+1) / (2i+1): the inverse tangent, or with `alt` false its hyperbolic counterpart. -/
def atanSeries (alt : Bool) (z2 : Int) : Nat → Nat → Int → Int
  | 0, _, _ => 0
  | f + 1, i, p => (if alt ∧ i % 2 = 1 then -1 else 1) * (p / (2 * i + 1 : Nat)) + atanSeries alt z2 f (i + 1) (fxMul p z2)

def atanInv (n : Nat) : Int := let z := fxOne / n; atanSeries true (fxMul z z) 60 0 z

def fxPi : Int := 16 * atanInv 5 - 4 * atanInv 239

def atanh (z : Int) : Int := atanSeries false (fxMul z z) 60 0 z

def fxLn2 : Int := 2 * atanh (fxOne / 3)

/-- The natural logarithm of x > 0. -/
def fxLn (x : Int) : Int :=
  if x ≤ 0 then 0 else
  let e : Int := (Nat.log2 x.toNat : Int) - 120
  let m : Int := if 0 ≤ e then x / 2 ^ e.toNat else x * 2 ^ (-e).toNat
  e * fxLn2 + 2 * atanh (fxDiv (m - fxOne) (m + fxOne))

/-- Σ y^i / i!. -/
def expSeries (y : Int) : Nat → Nat → Int → Int
  | 0, _, _ => 0
  | f + 1, i, p => p + expSeries y f (i + 1) (fxMul p y / (i + 1 : Nat))

def fxExp (y : Int) : Int :=
  let k := Int.fdiv y fxLn2
  let v := expSeries (y - k * fxLn2) 40 0 fxOne
  if 0 ≤ k then v * 2 ^ k.toNat else v / 2 ^ (-k).toNat

/-- x^p for x ≥ 0. -/
def fxPow (x p : Int) : Int := if x ≤ 0 then 0 else fxExp (fxMul p (fxLn x))

/-- Σ (−1)^i y^(2i+1) / (2i+1)!. -/
def sinSeries (y2 : Int) : Nat → Nat → Int → Int
  | 0, _, _ => 0
  | f + 1, i, p => p + sinSeries y2 f (i + 1) (-(fxMul p y2) / ((2 * i + 2) * (2 * i + 3) : Nat))

/-- sin(π a / b). -/
def sinPi (a : Int) (b : Nat) : Int :=
  let r := Int.emod a (2 * b)
  let neg := decide ((b : Int) ≤ r)
  let r := if neg then r - b else r
  let r := if (b : Int) < 2 * r then b - r else r
  let y := fxPi * r / (b : Int)
  let v := sinSeries (fxMul y y) 40 0 y
  if neg then -v else v

/-- sin(π t) / (π t) at t = a / b. -/
def sinc (a : Int) (b : Nat) : Int := if a = 0 then fxOne else sinPi a b * fxOne / (fxPi * a / (b : Int))

/-- x / d rounded to the nearest integer, halves away from zero. -/
def roundMag (x : Int) (d : Int) : Int := if (x < 0) = (d < 0) then (2 * x.natAbs + d.natAbs : Nat) / (2 * d.natAbs : Nat) else -((2 * x.natAbs + d.natAbs : Nat) / (2 * d.natAbs : Nat) : Int)

/-! ## Stages (R399 to R403) -/

abbrev Plane := List (List Nat)

def pixAt (p : Plane) (x y : Int) : Int := if x < 0 ∨ y < 0 then 0 else nth (p.getD y.toNat []) x.toNat

/-- A plane whose pixels are `f` of their place. -/
def planeOf (w h : Nat) (f : Int → Int → Int) : Plane :=
  (List.range h).map fun (y : Nat) => (List.range w).map fun (x : Nat) => (clampI 0 65535 (f x y)).toNat

/-- Black level (R400). -/
def blackLevel (w h : Nat) (bl : List Nat) (p : Plane) : Plane :=
  planeOf w h fun x y => max (pixAt p x y - nth bl (y.toNat % 2 * 2 + x.toNat % 2)) 0

/-- One defective pixel's value (R400): `d` is the distance of same-colour neighbours. -/
def defectValue (w h : Nat) (bad : Int → Int → Bool) (p : Plane) (d x y : Int) : Int :=
  let ok : Int → Int → Bool := fun x y => decide (0 ≤ x ∧ x < w ∧ 0 ≤ y ∧ y < h) && ! bad x y
  let pair : Int → Int → Int → Int → Option Int := fun x1 y1 x2 y2 =>
    if ok x1 y1 ∧ ok x2 y2 then some ((pixAt p x1 y1 + pixAt p x2 y2 + 1) / 2)
    else if ok x1 y1 then some (pixAt p x1 y1) else if ok x2 y2 then some (pixAt p x2 y2) else none
  match pair (x - d) y (x + d) y with
  | some v => v
  | none => (pair x (y - d) x (y + d)).getD (pixAt p x y)

/-- Defect replacement by the bank's list (R400). -/
def fixDefects (w h : Nat) (mono : Bool) (list : List Nat) (p : Plane) : Plane :=
  if list.isEmpty then p else
  let bad : Int → Int → Bool := fun x y => list.contains (y.toNat * 65536 + x.toNat)
  planeOf w h fun x y => if bad x y then defectValue w h bad p (if mono then 1 else 2) x y else pixAt p x y

/-- The colour at a place: 0 R, 1 G, 2 B (R400). -/
def cfaAt (cfa : Nat) (x y : Int) : Nat :=
  let cell := match cfa with | 1 => [0, 1, 1, 2] | 2 => [1, 0, 2, 1] | 3 => [1, 2, 0, 1] | _ => [2, 1, 1, 0]
  nth cell ((Int.emod y 2).toNat * 2 + (Int.emod x 2).toNat)

/-- One reflection at the frame's edges (R401). -/
def reflectOnce (n : Nat) (x : Int) : Int := if x < 0 then -x else if (n : Int) ≤ x then 2 * ((n : Int) - 1) - x else x

/-- Reflection at the frame's edges (R401): in a frame of 2 columns or rows what one reflection leaves outside is reflected again. -/
def reflect (n : Nat) (x : Int) : Int := reflectOnce n (reflectOnce n (reflectOnce n x))

/-- Demosaic (R401): the red, green and blue planes. -/
def demosaic (cfa w h : Nat) (p : Plane) : List Plane :=
  let c : Int → Int → Int := fun x y => pixAt p (reflect w x) (reflect h y)
  let site : Int → Int → Nat := cfaAt cfa
  let green := planeOf w h fun x y =>
    if site x y = 1 then c x y else
    let dh := (c (x - 1) y - c (x + 1) y).natAbs + (2 * c x y - c (x - 2) y - c (x + 2) y).natAbs
    let dv := (c x (y - 1) - c x (y + 1)).natAbs + (2 * c x y - c x (y - 2) - c x (y + 2)).natAbs
    let gh := Int.fdiv (2 * (c (x - 1) y + c (x + 1) y) + 2 * c x y - c (x - 2) y - c (x + 2) y + 2) 4
    let gv := Int.fdiv (2 * (c x (y - 1) + c x (y + 1)) + 2 * c x y - c x (y - 2) - c x (y + 2) + 2) 4
    if dh < dv then gh else if dv < dh then gv else Int.fdiv (gh + gv + 1) 2
  let g : Int → Int → Int := fun x y => pixAt green (reflect w x) (reflect h y)
  let d : Int → Int → Int := fun x y => c x y - g x y
  let other : Nat → Plane := fun k => planeOf w h fun x y =>
    if site x y = k then c x y
    else if site x y = 1 then
      if site (x + 1) y = k then g x y + Int.fdiv (d (x - 1) y + d (x + 1) y + 1) 2
      else g x y + Int.fdiv (d x (y - 1) + d x (y + 1) + 1) 2
    else g x y + Int.fdiv (d (x - 1) (y - 1) + d (x + 1) (y - 1) + d (x - 1) (y + 1) + d (x + 1) (y + 1) + 2) 4
  [other 0, green, other 2]

/-- A node of a LUT slot: the identity's where none is listed (log 10). -/
def lutNode (lut : Tab Nat) (r g b ch : Nat) : Nat :=
  match tabGet lut ((r * 65 + g) * 65 + b) with
  | some v => v / 2 ^ (16 * (2 - ch)) % 65536
  | none => min 65535 (1024 * (match ch with | 0 => r | 1 => g | _ => b))

/-- Tetrahedral interpolation (R403). -/
def lutPixel (lut : Tab Nat) (v : List Nat) : List Nat :=
  let i := v.map (· / 1024)
  let f := v.map (· % 1024)
  let before : Nat → Nat → Bool := fun a b => decide (nth f b < nth f a) || (nth f a == nth f b && decide (a < b))
  let order := ([0, 1, 2].map fun a => (([0, 1, 2].filter fun b => before b a).length, a))
  let axisAt : Nat → Nat := fun k => match order.find? fun e => e.1 == k with | some e => e.2 | none => 0
  let step : Nat → List Nat → List Nat := fun a p => listMod p a (· + 1)
  let p1 := step (axisAt 0) i
  let p2 := step (axisAt 1) p1
  let node : List Nat → Nat → Nat := fun p ch => lutNode lut (nth p 0) (nth p 1) (nth p 2) ch
  let f1 := nth f (axisAt 0)
  let f2 := nth f (axisAt 1)
  let f3 := nth f (axisAt 2)
  [0, 1, 2].map fun ch => ((1024 - f1) * node i ch + (f1 - f2) * node p1 ch + (f2 - f3) * node p2 ch + f3 * node (i.map (· + 1)) ch + 512) / 1024

/-- White balance, matrix and LUT of one pixel (R402, R403). -/
def colourPixel (b : ColBank) (lut : Tab Nat) (v : List Nat) : List Nat :=
  let wb := v.mapIdx fun i x => min ((x * nth b.wb i + 2048) / 4096) 65535
  let m := [0, 1, 2].map fun i => (clampI 0 65535 (Int.fdiv (([0, 1, 2].map fun j => nthI b.mat (3 * i + j) * (nth wb j : Int)).foldl (· + ·) 2048) 4096)).toNat
  if b.lut = 255 then m else lutPixel lut m

/-- Three planes through a function of the pixel. -/
def mapPlanes (w h : Nat) (f : List Nat → List Nat) (ps : List Plane) : List Plane :=
  let out := (List.range h).map fun y => (List.range w).map fun x => f (ps.map fun p => nth (p.getD y []) x)
  [0, 1, 2].map fun ch => out.map fun row => row.map fun v => nth v ch

/-! ## The scaler (R405) -/

/-- The default taps of a phase for the ratio a / b. -/
def defaultPhase (a b ph : Nat) : List Int :=
  let v := (List.range 8).map fun (k : Nat) =>
    let d : Int := 64 * ((k : Int) - 3) - ph
    if 256 ≤ d.natAbs then 0 else fxMul (sinc (d * b) (64 * a)) (sinc d 256)
  let sum := v.foldl (· + ·) 0
  let r := v.map fun x => roundMag (16384 * x) sum
  let top := r.foldl max (-65536)
  let k := (r.findIdx? (· == top)).getD 0
  listMod r k (· + (16384 - r.foldl (· + ·) 0))

/-- One line scaled from wc to wo samples. -/
def scaleLine (taps : Nat → List Int) (wc wo : Nat) (s : List Nat) : List Nat :=
  (List.range wo).map fun (i : Nat) =>
    let q := Int.fdiv (64 * ((2 * (i : Int) + 1) * wc - wo) + wo) (2 * wo)
    let i0 := Int.fdiv q 64
    let h := taps (Int.emod q 64).toNat
    let v := ((List.range 8).map fun (k : Nat) => nthI h k * (nth s (clampI 0 ((wc : Int) - 1) (i0 - 3 + k)).toNat : Int)).foldl (· + ·) 8192
    (clampI 0 65535 (Int.fdiv v 16384)).toNat

/-- Rows to columns. -/
def transpose (w : Nat) (p : Plane) : Plane := (List.range w).map fun x => p.map fun row => nth row x

/-- Phases in use on an axis. -/
def axisTaps (table : Option (List Int)) (a b ph : Nat) : List Int :=
  match table with | some t => (t.drop (8 * ph)).take 8 | none => defaultPhase a b ph

/-- Horizontal, then vertical (R405). -/
def scalePlane (hx hy : Option (List Int)) (wc hc wo ho : Nat) (p : Plane) : Plane :=
  let px := (List.range 64).map (axisTaps hx wc wo)
  let py := (List.range 64).map (axisTaps hy hc ho)
  let a := p.map (scaleLine (fun ph => px.getD ph []) wc wo)
  transpose ho ((transpose wo a).map (scaleLine (fun ph => py.getD ph []) hc ho))

/-- The rectangle of a crop. -/
def cropPlane (x0 y0 wc hc : Nat) (p : Plane) : Plane := ((p.drop y0).take hc).map fun r => (r.drop x0).take wc

/-! ## Curves (R406): constants of BT.709 and BT.2100 (log 44) -/

def fxOf (a : F64) : Int := if -120 ≤ a.e then a.m * 2 ^ (a.e + 120).toNat else Int.fdiv a.m (2 ^ (-120 - a.e).toNat)

/-- A function of binary64 values, formed with 120 fraction bits and rounded once to 53 bits. -/
def f64Fx (x : Int) : F64 := f64Round x 1 (-120)

def f64Pow (a p : F64) : F64 := f64Fx (fxPow (fxOf a) (fxOf p))

def f64Ln (a : F64) : F64 := f64Fx (fxLn (fxOf a))

/-- E′ of a preset at v / 65,535, in binary64 (log 44). -/
def presetValue (preset peak v : Nat) : F64 :=
  let x := f64Quot v 65535
  match preset with
  | 2 => if v * 1000 < 18 * 65535 then f64Mul (f64Quot 9 2) x else f64Sub (f64Mul (f64Quot 1099 1000) (f64Pow x (f64Quot 45 100))) (f64Quot 99 1000)
  | 3 =>
    let y := f64Pow (f64Div (f64Mul x (f64Int peak)) (f64Int 10000)) (f64Quot 2610 16384)
    let num := f64Add (f64Quot 3424 4096) (f64Mul (f64Quot 2413 128) y)
    let den := f64Add (f64Int 1) (f64Mul (f64Quot 2392 128) y)
    f64Pow (f64Div num den) (f64Quot 2523 32)
  | 4 =>
    if 12 * v ≤ 65535 then f64Sqrt (f64Mul (f64Int 3) x)
    else f64Add (f64Mul (f64Quot 17883277 100000000) (f64Ln (f64Sub (f64Mul (f64Int 12) x) (f64Quot 28466892 100000000)))) (f64Quot 55991073 100000000)
  | _ => x

def presetNode (preset peak i : Nat) : Nat := (clampI 0 65535 (f64HalfUp (f64Mul (f64Int 65535) (presetValue preset peak (16 * i))))).toNat

/-- Point i of a curve; a channel with none set is LINEAR (log 45). -/
def curvePoint (c : Option Curve) (i : Nat) : Nat :=
  let i := min i 4095
  match c with
  | some c => if c.preset = 0 then nth c.table i else presetNode c.preset c.peak i
  | none => 16 * i

def curveValue (c : Option Curve) (v : Nat) : Nat :=
  (curvePoint c (v / 16) * (16 - v % 16) + curvePoint c (v / 16 + 1) * (v % 16) + 8) / 16

/-! ## Y′CbCr and quantisation (R407 to R409) -/

/-- Rows Y, Cb, Cr of the matrix in s2.14, for Kr and Kb in 1/10,000. -/
def yccMatrix (bt2020 : Bool) : List (List Int) :=
  let kr : Int := if bt2020 then 2627 else 2126
  let kb : Int := if bt2020 then 593 else 722
  let kg := 10000 - kr - kb
  let q : Int → Int → Int := fun n d => roundMag (16384 * n) d
  let yr := q kr 10000
  let yb := q kb 10000
  let cbr := q (-kr) (20000 - 2 * kb)
  let cbg := q (-kg) (20000 - 2 * kb)
  let crg := q (-kg) (20000 - 2 * kr)
  let crb := q (-kb) (20000 - 2 * kr)
  [[yr, 16384 - yr - yb, yb], [cbr, cbg, -(cbr + cbg)], [-(crg + crb), crg, crb]]

/-- One row of the matrix on a pixel. -/
def yccRow (m : List Int) (v : List Nat) : Int :=
  Int.fdiv (nthI m 0 * nth v 0 + nthI m 1 * nth v 1 + nthI m 2 * nth v 2 + 8192) 16384

/-- A luma, red, green or blue sample (R409). -/
def quantY (full : Bool) (n : Nat) (y : Int) : Nat :=
  let sc : Int := 2 ^ (n - 8)
  if full then (clampI 0 (2 ^ n - 1) (Int.fdiv (2 * (2 ^ n - 1) * y + 65535) 131070)).toNat
  else (clampI sc (2 ^ n - 1 - sc) (16 * sc + Int.fdiv (2 * 219 * sc * y + 65535) 131070)).toNat

/-- A chroma sample (R409). -/
def quantC (full : Bool) (n : Nat) (c : Int) : Nat :=
  let sc : Int := 2 ^ (n - 8)
  if full then (clampI 0 (2 ^ n - 1) (2 ^ (n - 1) + Int.fdiv (2 * (2 ^ n - 1) * c + 65535) 131070)).toNat
  else (clampI sc (2 ^ n - 1 - sc) (128 * sc + Int.fdiv (2 * 224 * sc * c + 65535) 131070)).toNat

/-- 4:2:2 samples of a chroma row (R408). -/
def chroma422 (c : List Int) : List Int :=
  let n := c.length
  (List.range (n / 2)).map fun (k : Nat) => Int.fdiv (nthI c (2 * k - 1) + 2 * nthI c (2 * k) + nthI c (min (2 * k + 1) (n - 1)) + 2) 4

/-- 4:2:0 rows from 4:2:2 rows (R408). -/
def chroma420 (rows : List (List Int)) : List (List Int) :=
  (List.range (rows.length / 2)).map fun m => List.zipWith (fun a b => Int.fdiv (a + b + 1) 2) (rows.getD (2 * m) []) (rows.getD (2 * m + 1) [])

/-- The planes of a COLOUR head's output from its curved R, G, B planes (R407 to R409). -/
def formatPlanes (fmt n : Nat) (full bt2020 : Bool) (ps : List Plane) : List Plane :=
  if fmt ≤ 1 then ps.map fun p => p.map fun row => row.map fun (v : Nat) => quantY full n v
  else
    let m := yccMatrix bt2020
    let rowsOf : Nat → List (List Int) := fun k =>
      (List.range ((ps.headD []).length)).map fun y =>
        let rs := ps.map fun p => p.getD y []
        (List.range (rs.headD []).length).map fun x =>
          let v := yccRow (m.getD k []) (rs.map fun r => nth r x)
          if k = 0 then v else clampI (-32767) 32767 v
    let luma := (rowsOf 0).map fun r => r.map (quantY full n)
    let chroma : Nat → Plane := fun k =>
      let rows := rowsOf k
      let rows := if fmt = 2 then rows else rows.map chroma422
      let rows := if fmt = 4 then chroma420 rows else rows
      rows.map fun r => r.map (quantC full n)
    [luma, chroma 1, chroma 2]

/-- Samples in memory (R409). -/
def planeBytes (n : Nat) (ps : List Plane) : List Nat :=
  ps.flatMap fun p => p.flatMap fun r => r.flatMap fun (v : Nat) => leBytes (if n = 8 then 1 else 2) v

end Sys2Proof.Machine
end

