-- ==== Sys2Proof/Machine/Net.lean ====
section
/-! DEFINITION. Sys2Proof/Machine/Net.lean: the frames that PTP and the ST 2110-20 senders put on an Ethernet or management port
(R237, R239, R412): Ethernet, IPv4, IPv6 and UDP headers as their standards give them (log 214). -/

namespace Sys2Proof.Machine

/-- The `n` bytes of x, most significant first. -/
def beBytes (n : Nat) (x : Nat) : List Nat := (leBytes n x).reverse

/-- The sum of 16-bit words, most significant byte first; an odd last byte counts as the high one. -/
def sumWords : List Nat → Nat
  | a :: b :: r => a * 256 + b + sumWords r
  | [a] => a * 256
  | [] => 0

/-- The Internet checksum of a sum of words: the complement of its ones' complement sum. -/
def netCheck (n : Nat) : Nat := if n = 0 then 65535 else if n % 65535 = 0 then 0 else 65535 - n % 65535

/-- A frame on a port: destination and source address, type, payload. -/
def ethFrame (port : Nat) (dst : List Nat) (type : Nat) (body : List Nat) : List Nat :=
  dst ++ beBytes 6 (Config.macAddr port).toNat ++ beBytes 2 type ++ body

/-- The source address of a port: that of NET_CONFIG, or one that the port takes by itself where none is stored (R615). -/
def ownIp (s : State) (port : Nat) (v6 : Bool) : List Nat :=
  match tabGet s.dev.net port, v6 with
  | some c, false => beBytes 4 c.ip4
  | some c, true => (c.ip6 ++ List.replicate 16 0).take 16
  | none, false => [169, 254] ++ beBytes 2 (Config.linkLocal port).toNat
  | none, true => beBytes 16 (Config.linkLocal6 port).toNat

/-- The Ethernet address of an IP destination: mapped where it is multicast, else the neighbour's. -/
def macFor (port : Nat) (v6 : Bool) (dst : List Nat) : List Nat :=
  if v6 ∧ nth dst 0 = 255 then [0x33, 0x33] ++ dst.drop 12
  else if ! v6 ∧ 224 ≤ nth dst 0 ∧ nth dst 0 < 240 then [0x01, 0x00, 0x5E, nth dst 1 % 128] ++ dst.drop 2
  else beBytes 6 (Config.neighbour port dst).toNat

/-- A UDP datagram on a port. `ck`: 0 the checksum zero, 1 the checksum formed, 2 the checksum formed before the payload's last two
bytes, which then make it valid (R239). -/
def udpFrame (s : State) (port : Nat) (v6 : Bool) (ttl : Nat) (dst : List Nat) (sp dp ck : Nat) (payload : List Nat) : List Nat :=
  let src := ownIp s port v6
  let body := if ck = 2 then payload ++ beBytes 2 (netCheck (sumWords payload)) else payload
  let len := 8 + body.length
  let head := beBytes 2 sp ++ beBytes 2 dp ++ beBytes 2 len
  let c := netCheck (sumWords (src ++ dst ++ head) + 17 + len + if ck = 2 then 0 else sumWords body)
  let udp := head ++ beBytes 2 (if ck = 0 then 0 else if c = 0 then 65535 else c) ++ body
  let open_ : Nat → Nat := fun i => (Config.ipOpen i).toNat
  if v6 then
    let hdr := [0x60 + open_ 0 % 256 / 16, open_ 0 % 16 * 16 + open_ 1 % 16] ++ beBytes 2 (open_ 2) ++ beBytes 2 len ++ [17, ttl % 256] ++ src ++ dst
    ethFrame port (macFor port true dst) 0x86DD (hdr ++ udp)
  else
    let hdr := [0x45, open_ 0 % 256] ++ beBytes 2 (20 + len) ++ beBytes 2 (open_ 3) ++ [0x40, 0, ttl % 256, 17]
    let full := hdr ++ beBytes 2 (netCheck (sumWords (hdr ++ src ++ dst))) ++ src ++ dst
    ethFrame port (macFor port false dst) 0x0800 (full ++ udp)

end Sys2Proof.Machine
end

