-- ==== Sys2Proof/Machine/Link.lean ====
section
/-! DEFINITION. Sys2Proof/Machine/Link.lean: the Rathal link below its packets (R117, R118, R120 to R125, R127 to R129): levels, codewords,
blocks, the scrambler, markers, the lock of a lane, and the packets that a port's lanes carry. -/

namespace Sys2Proof.Machine

/-! ## Levels and bits (R117) -/

/-- The two bits of a PAM4 level, the first transmitted as the more significant. -/
def pam4Bits (level : Int) : List Bool :=
  if level ≤ -2 then [false, false] else if level ≤ 0 then [false, true] else if level ≤ 2 then [true, true] else [true, false]

/-- The PAM4 level of a pair of bits. -/
def pam4Level (first second : Bool) : Int :=
  match first, second with
  | false, false => -3
  | false, true => -1
  | true, true => 1
  | true, false => 3

/-- The bits of a lane's levels at a rate: NRZ at rate 1, PAM4 above (R114), a lane of inverted polarity corrected (R118). -/
def levelBits (rate : Nat) (inv : Bool) (levels : List Int) : List Bool :=
  levels.flatMap fun x => let y := if inv then -x else x; if rate = 1 then [decide (0 < y)] else pam4Bits y

/-! ## Blocks (R120, R121) -/

/-- Bits as a number, the first bit the least significant. -/
def bitsNat : List Bool → Nat
  | [] => 0
  | b :: r => boolNat b + 2 * bitsNat r

/-- The low n bits of a number, the least significant first. -/
def natBits (n x : Nat) : List Bool := (List.range n).map fun i => bit x i

/-- A string cut into pieces of n. -/
def piecesOf {α : Type} (n : Nat) : Nat → List α → List (List α)
  | 0, _ => []
  | f + 1, xs => if xs.length < n then [] else xs.take n :: piecesOf n f (xs.drop n)

/-- The bytes of a string of bits, least significant bit first. -/
def bitsBytes (bs : List Bool) : List Nat := (piecesOf 8 bs.length bs).map bitsNat

/-- The bits of a string of bytes, least significant bit first. -/
def bytesBits (bs : List Nat) : List Bool := bs.flatMap (natBits 8)

def hdrData : Nat := 3
def hdrStart : Nat := 6
def hdrCtrl : Nat := 9
def hdrMarker : Nat := 12

/-- A block header that the table of R121 lists. -/
def hdrValid (h : Nat) : Bool := h == hdrData || h == hdrStart || h == hdrCtrl || h == hdrMarker

/-- The header of 132 bits: bit 3 is sent first. -/
def blockHdr (bs : List Bool) : Nat := bitsNat (bs.take 4).reverse

/-- A block as sent: its header, bit 3 first, then its payload. -/
def blockBits (h : Nat) (payload : List Bool) : List Bool := (natBits 4 h).reverse ++ payload

/-! ## The scrambler 1 + x^39 + x^58 (R122) -/

/-- Scrambles bits. The register holds the last 58 scrambled bits, the newest in bit 0. -/
def scramble : Nat → List Bool → List Bool × Nat
  | r, [] => ([], r)
  | r, b :: bs =>
    let x := xor b (xor (bit r 38) (bit r 57))
    let y := scramble ((2 * r + boolNat x) % 2 ^ 58) bs
    (x :: y.1, y.2)

/-- Descrambles bits. -/
def descramble : Nat → List Bool → List Bool × Nat
  | r, [] => ([], r)
  | r, x :: xs =>
    let b := xor x (xor (bit r 38) (bit r 57))
    let y := descramble ((2 * r + boolNat x) % 2 ^ 58) xs
    (b :: y.1, y.2)

/-! ## RS(544,514) over GF(2^10) (R123) -/

/-- The product in GF(2^10) with x^10 + x^3 + 1. -/
def gfMul (a b : Nat) : Nat :=
  (List.range 10).foldl (fun acc i =>
    let d := acc * 2
    let d := if 1024 ≤ d then d ^^^ 1033 else d
    if bit b (9 - i) then d ^^^ a else d) 0

/-- a to the power n, for n below 2^10. -/
def gfPow (a n : Nat) : Nat := (List.range 10).foldl (fun acc i => let q := gfMul acc acc; if bit n (9 - i) then gfMul q a else q) 1

def gfInv (a : Nat) : Nat := gfPow a 1022

/-- α^n. -/
def gfAlpha (n : Nat) : Nat := gfPow 2 (n % 1023)

/-- A polynomial, lowest coefficient first, at x. -/
def gfEval (p : List Nat) (x : Nat) : Nat := p.foldr (fun c acc => gfMul acc x ^^^ c) 0

/-- The sum of two polynomials. -/
def gfAdd : List Nat → List Nat → List Nat
  | [], q => q
  | p, [] => p
  | a :: p, b :: q => (a ^^^ b) :: gfAdd p q

def gfScale (c : Nat) (p : List Nat) : List Nat := p.map (gfMul c)

def gfPolyMul : List Nat → List Nat → List Nat
  | [], _ => []
  | a :: p, q => gfAdd (gfScale a q) (0 :: gfPolyMul p q)

/-- The generator: roots α^0 to α^29. -/
def rsGen : List Nat := (List.range 30).foldl (fun g i => gfPolyMul g [gfAlpha i, 1]) [1]

/-- The 30 parity symbols of 514 message symbols. The first symbol sent is the highest coefficient (log 204). -/
def rsParity (msg : List Nat) : List Nat :=
  let g := (rsGen.take 30).reverse
  msg.foldl (fun r m =>
    let f := m ^^^ r.headD 0
    List.zipWith (fun a c => a ^^^ gfMul f c) (r.drop 1 ++ [0]) g) (List.replicate 30 0)

/-- A codeword: 544 symbols. -/
def rsEncode (msg : List Nat) : List Nat := msg ++ rsParity msg

/-- The syndromes of a received word. -/
def rsSyndromes (w : List Nat) : List Nat := (List.range 30).map fun j => let x := gfAlpha j; w.foldl (fun acc c => gfMul acc x ^^^ c) 0

/-- Berlekamp and Massey: the error locator of the syndromes, lowest coefficient first, with its length. -/
def rsLocator (s : List Nat) : List Nat × Nat :=
  let st := (List.range 30).foldl (fun (st : List Nat × List Nat × Nat × Nat × Nat) n =>
    let (c, b, l, m, bb) := st
    let d := (List.range (l + 1)).foldl (fun acc i => if i ≤ n then acc ^^^ gfMul (nth c i) (nth s (n - i)) else acc) 0
    if d = 0 then (c, b, l, m + 1, bb)
    else
      let c' := gfAdd c (List.replicate m 0 ++ gfScale (gfMul d (gfInv bb)) b)
      if 2 * l ≤ n then (c', c, n + 1 - l, 1, d) else (c', b, l, m + 1, bb)) ([1], [1], 0, 1, 1)
  (st.1, st.2.2.1)

/-- The odd terms of a polynomial: its derivative in characteristic 2. -/
def gfDeriv (p : List Nat) : List Nat := (p.drop 1).mapIdx fun i c => if i % 2 = 0 then c else 0

/-- A received word corrected, with the count of symbols corrected; none where it is uncorrectable: more than 15 errors. -/
def rsDecode (w : List Nat) : Option (List Nat × Nat) :=
  let s := rsSyndromes w
  if s.all (· == 0) then some (w, 0) else
  let (loc, l) := rsLocator s
  if 15 < l then none else
  let omega := (gfPolyMul s loc).take 30
  let der := gfDeriv loc
  let hits := (List.range 544).filter fun i => gfEval loc (gfAlpha (1023 - (543 - i))) == 0
  if hits.length ≠ l then none else
  let fixed := hits.foldl (fun w i =>
    let x := gfAlpha (543 - i)
    let xi := gfAlpha (1023 - (543 - i))
    let e := gfMul x (gfMul (gfEval omega xi) (gfInv (gfEval der xi)))
    w.set i (nth w i ^^^ e)) w
  if (rsSyndromes fixed).all (· == 0) then some (fixed, l) else none

/-- What a lane's codewords held: the bits of their message parts, each with whether its codeword was uncorrectable, and the counts of
corrected and uncorrectable codewords and of corrected symbols. -/
structure CwRead where
  bits : List (Bool × Bool) := []
  corr : Nat := 0
  uncorr : Nat := 0
  syms : Nat := 0

/-- Reads whole codewords of 5,440 bits; symbols are 10 bits, sent bit 0 first. -/
def readCodewords (bs : List Bool) : CwRead :=
  (piecesOf 5440 (bs.length / 5440) bs).foldl (fun r cw =>
    let w := (piecesOf 10 544 cw).map bitsNat
    match rsDecode w with
    | some (w, n) => { r with bits := r.bits ++ ((w.take 514).flatMap (natBits 10)).map fun b => (b, false), corr := r.corr + (if n = 0 then 0 else 1), syms := r.syms + n }
    | none => { r with bits := r.bits ++ (cw.take 5140).map fun b => (b, true), uncorr := r.uncorr + 1 }) {}

/-! ## Markers (R125) -/

/-- A MARKER payload: SYNC, LANE, MSEQ, PTS and CHECK. -/
def markerBytes (lane mseq pts : Nat) : List Nat :=
  let b := leBytes 2 0xA5C3 ++ [lane % 256, 0] ++ leBytes 4 mseq ++ leBytes 6 pts
  b ++ leBytes 2 (crc16 b)

/-- SYNC and CHECK are right. -/
def markerOk (b : List Nat) : Bool := leAt b 0 2 == 0xA5C3 && leAt b 14 2 == crc16 (b.take 14)

/-- A payload as a lane of inverted polarity delivers it: every bit at NRZ, the first of each pair at PAM4. -/
def invertBytes (rate : Nat) (b : List Nat) : List Nat := b.map fun x => x ^^^ (if rate = 1 then 0xFF else 0x55)

/-! ## The lock of a lane (R118, R124) -/

/-- A marker as the lane delivers it: straight, or inverted; none where its check word fails. -/
def readMarker (rate : Nat) (b : List Nat) : Option (Bool × List Nat) :=
  if markerOk b then some (false, b) else if markerOk (invertBytes rate b) then some (true, invertBytes rate b) else none

/-- Codeword lock: 4 correctable ones in a row gain it, 3 uncorrectable ones in a row lose it, and what rests on it. -/
def hearCodeword (ok : Bool) (r : LaneRx) : LaneRx :=
  if ok then { r with cwBad := 0, cwGood := min 4 (r.cwGood + 1), cw := r.cw || decide (4 ≤ r.cwGood + 1) }
  else if 3 ≤ r.cwBad + 1 then { r with cw := false, cwGood := 0, cwBad := 3, blk := false, hdrRun := 0, hdrs := [], mlk := false, seen := none }
  else { r with cwGood := 0, cwBad := r.cwBad + 1 }

/-- Block lock: 64 valid headers in a row gain it, 16 invalid ones of the last 64 lose it. -/
def hearHeaders (ok : Bool) (n : Nat) (r : LaneRx) : LaneRx :=
  let hs := (List.replicate (min n 64) ok ++ r.hdrs).take 64
  let run := if ok then min 64 (r.hdrRun + n) else if n = 0 then r.hdrRun else 0
  if r.blk ∧ 16 ≤ (hs.filter fun b => ! b).length then { r with blk := false, hdrRun := 0, hdrs := [], mlk := false, seen := none }
  else { r with hdrs := hs, hdrRun := run, blk := r.blk || decide (run = 64) }

/-- n blocks that are no marker: markers that should have stood among them are missing; 3 in a row lose the lock. -/
def passBlocks (n : Nat) (r : LaneRx) : LaneRx :=
  if r.mlk then
    let miss := r.miss + (r.pos + n) / 4096
    { r with pos := (r.pos + n) % 4096, miss := miss, mlk := decide (miss < 3) }
  else { r with seen := r.seen.map fun e => (e.1, e.2 + n) }

/-- Marker lock: two good markers 4,096 blocks apart with consecutive MSEQ gain it. -/
def hearMarker (rate t : Nat) (b : List Nat) (r : LaneRx) : LaneRx :=
  match readMarker rate b with
  | none => passBlocks 1 r
  | some (inv, b) =>
    let q := leAt b 4 4
    let r := { r with marks := ((q, t) :: r.marks).take 4, pts := some (leAt b 8 6, t) }
    if r.mlk then if r.pos = 4095 then { r with pos := 0, miss := 0 } else passBlocks 1 r
    else match r.seen with
      | some (m, 4095) =>
        if q = (m + 1) % 2 ^ 32 then { r with mlk := true, pos := 0, miss := 0, seen := none, id := leAt b 2 1, inv := inv } else { r with seen := some (q, 0) }
      | _ => { r with seen := some (q, 0) }

/-- One thing that a lane's receiver sees. Block lock needs codeword lock with FEC on, and marker lock needs block lock. -/
def hear (rate fec : Nat) (r : LaneRx) (x : Heard) : LaneRx :=
  match x with
  | .codewords ok n => if fec = 1 then (List.range (min n 4)).foldl (fun r _ => hearCodeword ok r) r else r
  | .blocks h n => if fec = 1 ∧ ! r.cw then r else
      let r := hearHeaders (hdrValid h) n r
      if r.blk then passBlocks n r else r
  | .marker t b => if fec = 1 ∧ ! r.cw then r else
      let r := hearHeaders true 1 r
      if r.blk then hearMarker rate t b r else r

/-- All that a lane's receiver sees in turn, and whether it lost marker lock on the way. -/
def hearAll (rate fec : Nat) (xs : List Heard) (r : LaneRx) : LaneRx × Bool :=
  xs.foldl (fun a x => let r := hear rate fec a.1 x; (r, a.2 || (a.1.mlk && ! r.mlk))) (r, false)

/-- The TMU time at which a lane's last marker arrived less its PTS modulo 2^48, in ns (R127; log 231). -/
def latencyLag (s : State) (r : LaneRx) : Option Int :=
  r.pts.map fun e =>
    let arrived : Int := (s.tmu.acc / 2 ^ 32 : Nat) - ((s.now : Int) - e.2) / 1000
    let d := Int.emod (arrived - e.1) (2 ^ 48)
    if d < 2 ^ 47 then d else d - 2 ^ 48

/-! ## Acquisition and deskew of a port (R118, R124, R127, R149) -/

/-- The physical lane that carries logical lane k: its markers say so. -/
def laneOf (rx : List LaneRx) (k : Nat) : Option Nat := rx.findIdx? fun r => r.mlk && r.id == k

/-- The arrivals of one marker on every lane, ps: the newest MSEQ that all of them have seen. -/
def sameMarker (rx : List LaneRx) : Option (List Nat) :=
  match rx with
  | [] => none
  | r :: _ => (r.marks.find? fun m => rx.all fun q => q.marks.any fun e => e.1 == m.1).map fun m =>
      rx.filterMap fun q => (q.marks.find? fun e => e.1 == m.1).map fun e => e.2

/-- The skew between the earliest and the latest lane, ps. -/
def skewOf (rx : List LaneRx) : Option Nat := (sameMarker rx).map fun ts => ts.foldl max 0 - ts.foldl min (ts.headD 0)

/-- The lanes' receivers in logical order once each of `count` is found, with the physical lane of each. -/
def lanesFound (rx : List LaneRx) (count : Nat) : Option (List (Nat × LaneRx)) :=
  (List.range count).mapM fun k => (laneOf rx k).map fun p => (p, rx.getD p {})

/-! ## From lanes to packets (R120 to R123, R128, R129) -/

/-- A block as a lane delivers it: its header, its payload and whether it lies in an uncorrectable codeword. -/
structure RxBlock where
  hdr : Nat
  bytes : List Nat
  bad : Bool
  deriving DecidableEq, Repr

/-- The blocks of a lane's bits, descrambled; blocks with another header are dropped and counted, and markers are left out. The payload of a dropped
block does not enter the descrambler (log 232). -/
def laneBlocks : List (List (Bool × Bool)) → Nat → List RxBlock × Nat
  | [], _ => ([], 0)
  | b :: rest, r =>
    let bits := b.map fun x => x.1
    let h := blockHdr bits
    let bad := b.any fun x => x.2
    if ! hdrValid h then let y := laneBlocks rest r; (⟨0, [], bad⟩ :: y.1, y.2 + 1)
    else if h = hdrMarker then laneBlocks rest r
    else
      let d := descramble r (bits.drop 4)
      let y := laneBlocks rest d.2
      (⟨h, bitsBytes d.1, bad⟩ :: y.1, y.2)

/-- What a lane received: its blocks and its counts. -/
structure LaneGot where
  blocks : List RxBlock := []
  hdrErr : Nat := 0
  cws : CwRead := {}

/-- One lane's part of a reception. -/
def laneGot (rate fec skip : Nat) (inv : Bool) (levels : List Int) : LaneGot :=
  let bs := levelBits rate inv levels
  let cw : CwRead := if fec = 1 then readCodewords bs else { bits := bs.map fun b => (b, false) }
  let xs := cw.bits.drop skip
  let y := laneBlocks (piecesOf 132 (xs.length / 132) xs) 0
  ⟨y.1, y.2, cw⟩

/-- The port's block sequence: block j from logical lane j mod L (R128). -/
def unstripe (n : Nat) (lanes : List (List RxBlock)) : List RxBlock :=
  (List.range n).flatMap fun j => lanes.filterMap fun l => l[j]?

/-- The first packet of type `ty` in a sequence of blocks: its START payload, the DATA payloads up to its end, whether it was cut short by
a START block and whether one of its blocks lies in an uncorrectable codeword (R128, R129, R131). A block with an invalid header is discarded
(R121), so that it is missing from its packet, or from the IDLE between. -/
def framePacket : List RxBlock → Nat → Option (List Nat × List Nat × Bool × Bool)
  | [], _ => none
  | b :: rest, ty =>
    if b.hdr = hdrStart ∧ nth b.bytes 0 = ty then
      let need := (leAt b.bytes 4 4 + 4 + 15) / 16
      let body := (rest.filter fun x => x.hdr != hdrCtrl && hdrValid x.hdr).takeWhile fun x => x.hdr != hdrStart
      let got := body.take need
      some (b.bytes, got.flatMap fun x => x.bytes, decide (got.length < need) || got.any fun x => x.hdr != hdrData, b.bad || got.any fun x => x.bad)
    else framePacket rest ty

/-- START blocks before that packet whose HCRC fails: packets that are discarded, whatever their corrupted TYPE (R131). -/
def badStarts : List RxBlock → Nat → Nat
  | [], _ => 0
  | b :: rest, ty =>
    if b.hdr = hdrStart then (if nth b.bytes 0 = ty then 0 else boolNat (leAt b.bytes 14 2 != crc16 (b.bytes.take 14)) + badStarts rest ty)
    else badStarts rest ty

/-- The packet of a START payload and its DATA bytes. -/
def parsePacket (port : Nat) (x : List Nat × List Nat × Bool × Bool) : Pkt :=
  let len := leAt x.1 4 4
  { port := port, stream := nth x.1 1, fmt := nth x.1 2, length := len, index := leAt x.1 8 6, hcrc := leAt x.1 14 2
    pcrc := leAt x.2.1 len 4, cut := x.2.2.1, uncorr := x.2.2.2, data := x.2.1.take len, wire := none }

/-- What the lanes of a port received, in logical order. -/
def portGot (p : Port) (w : Wire) : List LaneGot :=
  ((List.range p.nLanes).map fun k => p.lanes.getD k {}).map fun l => laneGot p.rate p.fec w.skip l.polInv (w.lanes.getD l.phys [])

/-- The port's block sequence as received. -/
def portBlocks (p : Port) (w : Wire) : List RxBlock :=
  let lanes := (portGot p w).map fun g => g.blocks
  unstripe (lanes.foldl (fun m l => max m l.length) 0) lanes

/-- The packet of type `ty` that a row carries: as its fields give it, or as the port's receivers make it of what their lanes received. -/
def received (p : Port) (ty : Nat) (k : Pkt) : Option Pkt :=
  match k.wire with
  | none => some k
  | some w => (framePacket (portBlocks p w) ty).map (parsePacket k.port)

/-! ## From packets to lanes (R120 to R122, R128, R129) -/

/-- The blocks of a packet: the START block, then its payload with CRC and padding. -/
def packetBlocks (head data : List Nat) : List (Nat × List Nat) :=
  let body := padTo 16 (data ++ leBytes 4 (crc32c data))
  (hdrStart, head ++ leBytes 2 (crc16 head)) :: (piecesOf 16 (body.length / 16) body).map fun b => (hdrData, b)

/-- Blocks as one lane sends them, scrambled. -/
def sendBlocks : Nat → List (Nat × List Nat) → List Bool
  | _, [] => []
  | r, (h, b) :: rest =>
    if h = hdrMarker then blockBits h (bytesBits b) ++ sendBlocks r rest
    else let x := scramble r (bytesBits b); blockBits h x.1 ++ sendBlocks x.2 rest

end Sys2Proof.Machine
end

