-- ==== Sys2Proof/Machine/Operands.lean ====
section
/-! DEFINITION. Sys2Proof/Machine/Operands.lean: the parameter fields of a command packet (R68), the checks 9 to 11 of R75
on them, clamping (R84 to R86), and what the sequencer must know of a command. -/

namespace Sys2Proof.Machine

/-- What a command table says of a field. Ranges are numeric (clamped, R84); codes, indices and runs are refused (R86). -/
inductive Rule where
  /-- Every value of the type is legal. -/
  | any
  /-- The bits of the mask are reserved or must be 0 (E_PARAM). -/
  | zero (mask : Nat)
  /-- A numeric range. -/
  | rng (lo hi : Int)
  /-- 0, or a numeric range. -/
  | zeroOr (lo hi : Int)
  /-- lo, lo + k, ... up to hi. -/
  | stp (lo hi k : Int)
  /-- Powers of two from lo to hi. -/
  | pow2 (lo hi : Nat)
  /-- One of the listed numeric values. -/
  | near (xs : List Int)
  /-- An index, or a count that must match its data. -/
  | idx (lo hi : Int)
  /-- The same, in steps of k. -/
  | idxStep (lo hi k : Int)
  /-- An enumerated code. -/
  | code (xs : List Int)
  /-- An enumerated code that the table forces to v under a condition (R86). -/
  | force (cond : Bool) (v : Int) (xs : List Int)
  /-- A camera port, cluster, DRAM channel or marking head: E_ABSENT when the ordering code lacks it (R4). -/
  | port | cluster | chan | mhead
  /-- A marking head or 0xFF; a mask of marking heads; a stream, port x 8 + stream ID. -/
  | mheadOrNone | mheadMask | stream
  /-- A mask of DRAM channels (R517). -/
  | chanMask
  /-- The data of a bulk load: exactly n elements (R68). -/
  | bulk (n : Nat)
  /-- 0, which takes a default, or a numeric range (R260). -/
  | dflt (lo hi : Int)
  /-- A rule for each element. -/
  | list (rs : List Rule)
  /-- A field that names a unit by way of a code, a kind or a count: the instance that only the AK-9640-FA has, where it names one (R4). -/
  | named (inst : Option Nat) (r : Rule)

/-- The rule of a field's values, whatever instance the field names. -/
def Rule.base : Rule → Rule
  | .named _ r => r
  | r => r

/-- One parameter field: the bytes of an element, its elements as sent, and its rule. -/
structure Fld where
  w : Nat
  xs : List Int
  rule : Rule

def fld (w : Nat) (x : Nat) (r : Rule) : Fld := ⟨w, [(x : Int)], r⟩
def fldI (w : Nat) (x : Int) (r : Rule) : Fld := ⟨w, [x], r⟩
def flds (w : Nat) (xs : List Nat) (r : Rule) : Fld := ⟨w, xs.map fun (x : Nat) => (x : Int), r⟩
def fldsI (w : Nat) (xs : List Int) (r : Rule) : Fld := ⟨w, xs, r⟩

/-- A field's bytes: its elements one after another, padded to a 4-byte boundary (R68). -/
def fldBytes (f : Fld) : List Nat := padTo 4 (f.xs.foldl (fun acc x => acc ++ leBytes f.w x) [])

/-- Check 9 on one element: every named unit is present (R4, R75). -/
def elemAbsent (s : State) (r : Rule) (x : Int) : Bool :=
  match r with
  | .port => 0 ≤ x && x < 16 && ! present 16 x.toNat s
  | .cluster => 0 ≤ x && x < 16 && ! present 16 x.toNat s
  | .chan => 0 ≤ x && x < 12 && ! present 12 x.toNat s
  | .mhead => 0 ≤ x && x < 16 && ! present 16 x.toNat s
  | .mheadOrNone => 0 ≤ x && x < 16 && ! present 16 x.toNat s
  | .mheadMask => s.dev.ha && 256 ≤ x
  | .chanMask => s.dev.ha && toUnsigned 12 x / 64 != 0
  | .stream => 0 ≤ x && x < 128 && ! present 16 (x.toNat / 8) s
  | _ => false

/-- Check 10 on one element (R75, R86). -/
def elemBad (r : Rule) (x : Int) : Bool :=
  match r with
  | .zero m => toUnsigned 64 x &&& m != 0
  | .idx lo hi => x < lo || hi < x
  | .idxStep lo hi k => x < lo || hi < x || Int.emod (x - lo) k != 0
  | .code xs => ! xs.contains x
  | .force _ _ xs => ! xs.contains x
  | .port => x < 0 || 16 ≤ x
  | .cluster => x < 0 || 16 ≤ x
  | .chan => x < 0 || 12 ≤ x
  | .mhead => x < 0 || 16 ≤ x
  | .mheadOrNone => (x < 0 || 16 ≤ x) && x != 0xFF
  | .stream => x < 0 || 128 ≤ x
  | .chanMask => x < 0 || 4096 ≤ x
  | _ => false

/-- Check 10 on a field: bulk data holds exactly its count of elements (R68). -/
def fldBad (f : Fld) : Bool :=
  match f.rule.base with
  | .bulk n => f.xs.length != n
  | .list rs => f.xs.length != rs.length || (List.zipWith elemBad rs f.xs).any (· == true)
  | r => f.xs.any (elemBad r)

/-- The nearer of two legal values; midway, the one of smaller magnitude (R84). -/
def nearer (x a b : Int) : Int :=
  if (x - a).natAbs < (x - b).natAbs then a
  else if (x - b).natAbs < (x - a).natAbs then b
  else if a.natAbs ≤ b.natAbs then a else b

def nearest (x : Int) : List Int → Int
  | [] => x
  | [a] => a
  | a :: r => nearer x a (nearest x r)

/-- The powers of two from lo to hi. -/
def pow2s (lo hi : Nat) : List Int := ((List.range 32).map fun i => 2 ^ i).filterMap fun (p : Nat) =>
  if lo ≤ p ∧ p ≤ hi then some (p : Int) else none

/-- The value of smallest step lo + j·k nearest to x within [lo, hi] (R84). -/
def clampStep (lo hi k x : Int) : Int :=
  let y := clampI lo hi x
  let a := lo + Int.fdiv (y - lo) k * k
  if a = y then y else if hi < a + k then a else nearer y a (a + k)

/-- Check 11 on one element: the value the command executes with (R84, R86). -/
def clampElem (r : Rule) (x : Int) : Int :=
  match r with
  | .rng lo hi => clampI lo hi x
  | .zeroOr lo hi => if x = 0 then 0 else if x < lo then nearer x 0 lo else clampI lo hi x
  | .stp lo hi k => clampStep lo hi k x
  | .pow2 lo hi => nearest x (pow2s lo hi)
  | .near xs => nearest x xs
  | .dflt lo hi => if x = 0 then 0 else clampI lo hi x
  | .force true v _ => v
  | _ => x

def clampFld (f : Fld) : List Int :=
  match f.rule.base with
  | .list rs => List.zipWith clampElem rs f.xs
  | r => f.xs.map (clampElem r)

/-- The ADJUSTED mask: bit n when field n was moved (R85). -/
def adjusted : Nat → List Fld → Nat
  | _, [] => 0
  | n, f :: r => (if clampFld f = f.xs then 0 else 2 ^ n) + adjusted (n + 1) r

/-- Classes of R78; `p` is GRAPH_PARAM's, C or S by its parameter, `n` a command of the other families. -/
inductive Cls where
  | c | s | t | d | r | p | n
  deriving DecidableEq, Repr

/-- The values of a command's fields after clamping, field by field. -/
abbrev Vals := List (List Int)

/-- Field i's value, as a natural number. -/
def vN (v : Vals) (i : Nat) : Nat := ((v.getD i []).headD 0).toNat
/-- Field i's value. -/
def vI (v : Vals) (i : Nat) : Int := (v.getD i []).headD 0
/-- Field i's elements. -/
def vIs (v : Vals) (i : Nat) : List Int := v.getD i []
def vNs (v : Vals) (i : Nat) : List Nat := (v.getD i []).map Int.toNat

/-- What the sequencer must know of a command: its opcode, the states its column lists, whether it is owner-only and AT,
its class, its fields, further checks of R75 that need more than one field or the state (with their replies), and its
effect, given the clamped values. -/
structure Cmd where
  opcode : Nat
  legal : List DevState
  owner : Bool
  ats : Bool
  cls : Cls
  flds : State → List Fld
  pre : Vals → State → Option (Nat × List RV) := fun _ _ => none
  act : Ticket → Vals → State → Res

def stAll : List DevState := [.standby, .configured, .armed, .running, .draining, .fault, .update]
def stAllBoot : List DevState := .boot :: stAll
def stSC : List DevState := [.standby, .configured]
def stRun : List DevState := [.armed, .running, .draining]
def stCRun : List DevState := .configured :: stRun
def stSCRun : List DevState := .standby :: stCRun

/-- A command without checks or effect beyond its reply. -/
def reads (f : Vals → State → List RV) : Ticket → Vals → State → Res := fun _ v s => .ok s (f v s)

end Sys2Proof.Machine
end

