-- ==== Sys2Proof/Machine/Params.lean ====
section
/-! DEFINITION. Sys2Proof/Machine/Params.lean: the command tables: for each command its opcode, legal states, owner and AT
columns, class (R78) and parameter fields; `mkX p act pre` is the command X with parameters p and the effect `act`. -/

namespace Sys2Proof.Machine

/-- The kernel codes of the graph (chapter 06). -/
def kernelCodes : List Int := [0x01, 0x10, 0x20, 0x21, 0x30, 0x40, 0x50, 0x60, 0x90, 0x70, 0x80, 0xA0, 0xB0]

/-- What a node input may name: a node, or 0xFF for none (R256). -/
def nodeInputs : List Int := (List.range 32).map (fun (i : Nat) => (i : Int)) ++ [255]

/-- The rules of a kernel's parameters P0 to P11 (R260), given the parameters sent; one not listed is reserved. -/
def nodeRules (kernel : Nat) (p : List Int) : List Rule :=
  let rs : List Rule := match kernel with
    | 0x01 => [.idx 0 127]
    | 0x10 => [.rng 0 12, .rng 0 65535, .rng 0 15, .rng 0 65535]
    | 0x20 => [.code [0, 1, 2, 3, 4], .dflt 1 65535]
    | 0x21 => [.code [0, 1, 2, 3]]
    | 0x30 => [.rng 1 32767, .rng (clampI 1 32767 (p.headD 0)) 32767, .code [0, 1, 2, 3]]
    | 0x40 => [.code [0, 1, 2, 3], .stp 1 31 2, .stp 1 31 2]
    | 0x50 => [.code [0, 4, 8], .dflt 1 255, .dflt 1 2147483647, .dflt 1 65535]
    | 0x90 => if p.headD 0 = 1 then [.code [0, 1], .rng 0 256, .rng 0 256, .code [0, 1], .dflt 256 65536]
              else [.code [0, 1], .stp 16 128 16, .stp 16 128 16, .code [0, 1], .dflt 256 65536]
    | 0x70 => [.idx 0 65535, .rng 0 65535, .dflt 16 4096]
    | 0xA0 => [.idx 0 63, .code [0, 1]]
    | 0xB0 => [.idx 0 15, .code [0, 1], .rng 0 65535, .rng 1 65535, .dflt 1 1024]
    | _ => []
  rs ++ List.replicate (12 - rs.length) (.zero 0xFFFFFFFFFFFFFFFF)

/-- The rule of parameter k of a node of the working configuration set. -/
def paramRule (s : State) (slot node k : Nat) : Rule :=
  match tabGet s.cfg.graph.nodes (slot * 32 + node) with
  | some x => (nodeRules x.kernel x.par).getD k .any
  | none => .any

/-- P_h of a configured marking head (R84). -/
def headPh (s : State) (h : Nat) : Int := match tabGet s.cfg.heads h with | some c => c.ph | none => 10000000

/-- A range of n event codes from `lo`. -/
def evrCodeOk (lo n c : Nat) : Bool := decide (lo ≤ c ∧ c < lo + n)

/-- The instance that an event source of R492 names, where only the AK-9640-FA has it (R4, R506). -/
def faSource (c : Nat) : Option Nat :=
  if 8 ≤ c % 16 ∧ (evrCodeOk 0x100 64 c ∨ evrCodeOk 0x500 48 c ∨ evrCodeOk 0x600 48 c) then some (c % 16) else none

/-- The port or cluster whose wrapper only the AK-9640-FA has (R4, R581). -/
def faWrap (w : Nat) : Option Nat := if w < 32 ∧ 8 ≤ w % 16 then some (w % 16) else none

/-- The port, channel, pair or sensor that a calibration item names, where only the AK-9640-FA has it (R4, R635). -/
def faCalItem (kind i : Nat) : Option Nat :=
  match kind with
  | 0 => if 32 ≤ i ∧ i < 64 then some (i / 4) else none
  | 1 => if 6 ≤ i ∧ i < 12 then some i else none
  | 2 => if 6 ≤ i ∧ i < 12 then some i else none
  | 3 => if 16 ≤ i ∧ i < 32 then some i else none
  | 4 => if (8 ≤ i ∧ i < 16) ∨ i = 22 then some i else none
  | _ => none

/-- F_max of a configured marking head. -/
def headFmax (s : State) (h : Nat) : Int := match tabGet s.cfg.heads h with | some c => c.fmax | none => 40000

/-- Width that a stream of a port may still take: 65,536 less the other streams' widths, at most 32,768 (R133). -/
def streamRoom (s : State) (n i : Nat) : Int :=
  min 32768 (65536 - (((s.cfg.streams.filter fun e => e.1 / 8 = n && e.1 != n * 8 + i).foldl (fun a e => a + e.2.width) 0 : Nat) : Int))

/-- Port `n`'s record. -/
def port (s : State) (n : Nat) : Port := s.lnk.ports.getD n {}

/-- L_head of the head on a port, ps (R135, R140). -/
def lHead (s : State) (n : Nat) : Int := nth (port s n).head 3

/-- The largest trim of a port: in a running state D + L_head + 25.6 ns stays at or below E (R167). -/
def trimMax (s : State) (n : Nat) : Int :=
  if runningState s.dev.state then
    max (-5000) (min 5000 ((s.lnk.eUse : Int) * 1000 - (port s n).d0 - lHead s n - 25600))
  else 5000

/-- PIX clocks a port's correction lane takes for one line of each of its line streams (R170). -/
def laneClocks (s : State) (n : Nat) : Nat :=
  if (match tabGet s.cfg.ports n with | some c => c.kind == 1 | none => false) then 0 else
  (s.cfg.streams.filter fun e => e.1 / 8 = n).foldl (fun a e => a + ceilDiv e.2.width 16 + 8) 0

/-- The highest line rate that every lane and the stitcher carry, at most 400 kHz (R170, R171, R202). -/
def feFmax (s : State) (w planes : Nat) : Int :=
  let lanes := (List.range 16).foldl (fun m n => let k := laneClocks s n; if k = 0 then m else min m (1250000000 / k)) 400000
  max 1 (min lanes (320000000000 / max 1 (w * planes)) : Nat)

/-- MD offsets of the other mapped streams (R191). -/
def otherOmd (s : State) (i : Nat) : List Int := (s.cfg.maps.filter fun e => e.1 != i).map fun e => e.2.omd

/-- The least O_md whose delay stays within 65,535 lines (R191). -/
def omdLo (s : State) (i : Nat) (o : Int) : Int :=
  match s.cfg.geom with
  | some g => (otherOmd s i).foldl (fun m x => max m (x - 65535 * (g.mdPitch : Int))) (min o (-(2 ^ 63)))
  | none => -(2 ^ 63)

/-- The greatest O_md that keeps every other stream's delay within 65,535 lines (R191). -/
def omdHi (s : State) (i : Nat) (o : Int) : Int :=
  match s.cfg.geom with
  | some g => (otherOmd s i).foldl (fun m x => min m (x + 65535 * (g.mdPitch : Int))) (max o (2 ^ 63 - 1))
  | none => 2 ^ 63 - 1

/-- View columns of a live view (R418): the web width by d_c, made even. -/
def viewWidth (s : State) (dc : Nat) : Int :=
  match s.cfg.geom with | some g => let u := ceilDiv g.width (max 1 dc); ((u + u % 2 : Nat) : Int) | none => 0

/-- Pixels per 1,000 seconds that the contexts other than `k` take of the pipeline (R394). -/
def areaOthers (s : State) (k : Nat) : Nat :=
  (s.cfg.area.filter fun e => e.1 != k && e.2.enable == 1).foldl (fun a e => a + e.2.w * e.2.h * e.2.f) 0 +
    (s.cfg.live.filter fun e => e.1 != k && e.2.enable == 1).foldl (fun a e => a + (viewWidth s e.2.dc).toNat * e.2.hv * e.2.f) 0

/-- The highest frame rate in mHz that the pipeline leaves a context of w × h (R394). -/
def areaFmax (s : State) (k : Nat) (w h : Int) (top : Nat) : Int :=
  max 1 (min top ((10000000000000 - areaOthers s k) / max 1 (w * h).toNat) : Nat)

/-- An output size for a crop: even, the ratio from 1 to 8; unscaled for the RAW taps (R404). -/
def outRules (tap : Nat) (wc hc : Int) : List Rule :=
  let w := clampStep 2 12288 2 wc
  let h := clampStep 2 8192 2 hc
  if tap = 2 then [.stp (2 * ceilDivI w 16) w 2, .stp (2 * ceilDivI h 16) h 2] else [.rng w w, .rng h h]

/-- A size padded to a multiple of 8 (R426). -/
def padded8 (x : Nat) : Nat := ceilDiv x 8 * 8

/-- Slices of a picture of a codec context (R435). -/
def vcuSlices (s : State) (k h : Nat) : Nat :=
  let rs := match tabGet s.cfg.vcoding k with | some c => c.rs | none => 68
  ceilDiv (ceilDiv (padded8 h) 64) (max 1 rs)

/-- The engine time of one picture in 1/6,000,000,000 s: weighted samples and switches (R428, R429). -/
def vcuCost (s : State) (k profile w h : Nat) : Nat :=
  padded8 w * padded8 h * (if profile = 2 then 4 else 3) + 9000 * vcuSlices s k h

def vcuOthers (s : State) (k : Nat) : Nat :=
  (s.cfg.vctx.filter fun e => e.1 != k && e.2.kind != 0).foldl (fun a e => a + e.2.f * vcuCost s e.1 e.2.profile e.2.w e.2.h) 0

/-- The highest rate in mHz that keeps hevc_figure within 1,000 (R429). -/
def vcuFmax (s : State) (k kind profile : Nat) (w h : Int) : Int :=
  if kind = 0 then 240000 else max 1 (min 240000 ((6000000000000 - vcuOthers s k) / max 1 (vcuCost s k profile w.toNat h.toNat)) : Nat)

/-- The least QP of a context: −12 at 10 bits, 0 at 8 (R437). -/
def qpLo (s : State) (k : Nat) : Int := match tabGet s.cfg.vctx k with | some c => if c.profile = 0 then 0 else -12 | none => -12

/-- The host size of VCU_OUTPUT: bytes for an encoder, slots for a decoder (R450). -/
def vcuSizeRule (s : State) (k : Nat) : Rule :=
  match tabGet s.cfg.vctx k with
  | some c => if c.kind = 3 then .pow2 2 64 else .stp 1048576 1073741824 4096
  | none => .stp 1048576 1073741824 4096

/-! ## The session and ownership commands (R111) -/

def ofSessionOpen (v : Vals) : PSessionOpen := ⟨vN v 0, vN v 1⟩
def mkSessionOpen (p : PSessionOpen) (act : Ticket → PSessionOpen → State → Res) (pre : PSessionOpen → State → Option (Nat × List RV) := fun _ _ => none) : Cmd :=
  { opcode := 0x0001, legal := stAllBoot, owner := false, ats := false, cls := .n
    flds := fun _ => [fld 4 p.idle (.rng 1 3600), fld 4 p.flags (.zero 0xFFFFFFFE)]
    pre := fun v s => pre (ofSessionOpen v) s, act := fun tk v s => act tk (ofSessionOpen v) s }

def mkSessionClose (act : Ticket → State → Res) (pre : State → Option (Nat × List RV) := fun _ => none) : Cmd :=
  { opcode := 0x0002, legal := stAllBoot, owner := false, ats := false, cls := .n
    flds := fun _ => [], pre := fun _ s => pre s, act := fun tk _ s => act tk s }

def mkHeartbeat (act : Ticket → State → Res) (pre : State → Option (Nat × List RV) := fun _ => none) : Cmd :=
  { opcode := 0x0003, legal := stAllBoot, owner := false, ats := false, cls := .n
    flds := fun _ => [], pre := fun _ s => pre s, act := fun tk _ s => act tk s }

def ofClaim (v : Vals) : PClaim := ⟨vN v 0⟩
def mkClaim (p : PClaim) (act : Ticket → PClaim → State → Res) (pre : PClaim → State → Option (Nat × List RV) := fun _ _ => none) : Cmd :=
  { opcode := 0x0004, legal := stAll, owner := false, ats := false, cls := .n
    flds := fun _ => [fld 4 p.lease (.rng 100 60000)]
    pre := fun v s => pre (ofClaim v) s, act := fun tk v s => act tk (ofClaim v) s }

def mkRelease (act : Ticket → State → Res) (pre : State → Option (Nat × List RV) := fun _ => none) : Cmd :=
  { opcode := 0x0005, legal := stAll, owner := true, ats := false, cls := .n
    flds := fun _ => [], pre := fun _ s => pre s, act := fun tk _ s => act tk s }

def ofTransfer (v : Vals) : PTransfer := ⟨vN v 0, vN v 1⟩
def mkTransfer (p : PTransfer) (act : Ticket → PTransfer → State → Res) (pre : PTransfer → State → Option (Nat × List RV) := fun _ _ => none) : Cmd :=
  { opcode := 0x0006, legal := stAll, owner := true, ats := false, cls := .n
    flds := fun _ => [fld 2 p.target (.any), fld 4 p.lease (.rng 100 60000)]
    pre := fun v s => pre (ofTransfer v) s, act := fun tk v s => act tk (ofTransfer v) s }

def mkOwnerQuery (act : Ticket → State → Res) (pre : State → Option (Nat × List RV) := fun _ => none) : Cmd :=
  { opcode := 0x0007, legal := stAll, owner := false, ats := false, cls := .n
    flds := fun _ => [], pre := fun _ s => pre s, act := fun tk _ s => act tk s }

def ofSessionList (v : Vals) : PSessionList := ⟨vN v 0, vN v 1⟩
def mkSessionList (p : PSessionList) (act : Ticket → PSessionList → State → Res) (pre : PSessionList → State → Option (Nat × List RV) := fun _ _ => none) : Cmd :=
  { opcode := 0x0008, legal := stAll, owner := false, ats := false, cls := .n
    flds := fun _ => [fld 2 p.first (.any), fld 2 p.count (.rng 1 256)]
    pre := fun v s => pre (ofSessionList v) s, act := fun tk v s => act tk (ofSessionList v) s }

def ofQueueCreate (v : Vals) : PQueueCreate := ⟨vN v 0, vN v 1, vN v 2, vN v 3, vN v 4, vN v 5⟩
/-- A notification area address that is not 256-byte aligned is refused with E_PARAM: an address is not clamped (R84, R111; log 244). -/
def mkQueueCreate (p : PQueueCreate) (act : Ticket → PQueueCreate → State → Res) (pre : PQueueCreate → State → Option (Nat × List RV) := fun _ _ => none) : Cmd :=
  { opcode := 0x0009, legal := stAll, owner := false, ats := false, cls := .n
    flds := fun _ => [fld 1 p.link (.code [0,1,2,3,255]), fld 1 p.pair (.idx 1 63), fld 2 p.entries (.pow2 16 4096),
      fld 8 p.sq (.any), fld 8 p.cq (.any), fld 8 p.area (.zero 0xFF)]
    pre := fun v s => pre (ofQueueCreate v) s, act := fun tk v s => act tk (ofQueueCreate v) s }

def ofQueueDelete (v : Vals) : PQueueDelete := ⟨vN v 0, vN v 1⟩
def mkQueueDelete (p : PQueueDelete) (act : Ticket → PQueueDelete → State → Res) (pre : PQueueDelete → State → Option (Nat × List RV) := fun _ _ => none) : Cmd :=
  { opcode := 0x000A, legal := stAll, owner := false, ats := false, cls := .n
    flds := fun _ => [fld 1 p.link (.code [0,1,2,3,255]), fld 1 p.pair (.idx 1 63)]
    pre := fun v s => pre (ofQueueDelete v) s, act := fun tk v s => act tk (ofQueueDelete v) s }

def mkIdentify (act : Ticket → State → Res) (pre : State → Option (Nat × List RV) := fun _ => none) : Cmd :=
  { opcode := 0x000B, legal := stAllBoot, owner := false, ats := false, cls := .n
    flds := fun _ => [], pre := fun _ s => pre s, act := fun tk _ s => act tk s }

def ofNotifySubscribe (v : Vals) : PNotifySubscribe := ⟨vN v 0⟩
def mkNotifySubscribe (p : PNotifySubscribe) (act : Ticket → PNotifySubscribe → State → Res) (pre : PNotifySubscribe → State → Option (Nat × List RV) := fun _ _ => none) : Cmd :=
  { opcode := 0x000C, legal := stAll, owner := false, ats := false, cls := .n
    flds := fun _ => [fld 4 p.mask (.zero 0xFFFC0000)]
    pre := fun v s => pre (ofNotifySubscribe v) s, act := fun tk v s => act tk (ofNotifySubscribe v) s }

/-! ## The state and configuration commands (R111) -/

def mkStateQuery (act : Ticket → State → Res) (pre : State → Option (Nat × List RV) := fun _ => none) : Cmd :=
  { opcode := 0x0100, legal := stAll, owner := false, ats := false, cls := .n
    flds := fun _ => [], pre := fun _ s => pre s, act := fun tk _ s => act tk s }

def mkConfigCommit (act : Ticket → State → Res) (pre : State → Option (Nat × List RV) := fun _ => none) : Cmd :=
  { opcode := 0x0101, legal := stSC, owner := true, ats := false, cls := .n
    flds := fun _ => [], pre := fun _ s => pre s, act := fun tk _ s => act tk s }

def mkConfigClear (act : Ticket → State → Res) (pre : State → Option (Nat × List RV) := fun _ => none) : Cmd :=
  { opcode := 0x0102, legal := stSC, owner := true, ats := false, cls := .n
    flds := fun _ => [], pre := fun _ s => pre s, act := fun tk _ s => act tk s }

def ofConfigSave (v : Vals) : PConfigSave := ⟨vN v 0⟩
def mkConfigSave (p : PConfigSave) (act : Ticket → PConfigSave → State → Res) (pre : PConfigSave → State → Option (Nat × List RV) := fun _ _ => none) : Cmd :=
  { opcode := 0x0103, legal := stSCRun, owner := true, ats := false, cls := .n
    flds := fun _ => [fld 1 p.slot (.idx 0 7)]
    pre := fun v s => pre (ofConfigSave v) s, act := fun tk v s => act tk (ofConfigSave v) s }

def ofConfigLoad (v : Vals) : PConfigLoad := ⟨vN v 0⟩
def mkConfigLoad (p : PConfigLoad) (act : Ticket → PConfigLoad → State → Res) (pre : PConfigLoad → State → Option (Nat × List RV) := fun _ _ => none) : Cmd :=
  { opcode := 0x0104, legal := stSC, owner := true, ats := false, cls := .n
    flds := fun _ => [fld 1 p.slot (.idx 0 7)]
    pre := fun v s => pre (ofConfigLoad v) s, act := fun tk v s => act tk (ofConfigLoad v) s }

def mkConfigCheck (act : Ticket → State → Res) (pre : State → Option (Nat × List RV) := fun _ => none) : Cmd :=
  { opcode := 0x0105, legal := stAll, owner := false, ats := false, cls := .n
    flds := fun _ => [], pre := fun _ s => pre s, act := fun tk _ s => act tk s }

def mkArm (act : Ticket → State → Res) (pre : State → Option (Nat × List RV) := fun _ => none) : Cmd :=
  { opcode := 0x0106, legal := [.configured], owner := true, ats := false, cls := .n
    flds := fun _ => [], pre := fun _ s => pre s, act := fun tk _ s => act tk s }

def mkDisarm (act : Ticket → State → Res) (pre : State → Option (Nat × List RV) := fun _ => none) : Cmd :=
  { opcode := 0x0107, legal := [.armed], owner := true, ats := false, cls := .n
    flds := fun _ => [], pre := fun _ s => pre s, act := fun tk _ s => act tk s }

def mkStart (act : Ticket → State → Res) (pre : State → Option (Nat × List RV) := fun _ => none) : Cmd :=
  { opcode := 0x0108, legal := [.armed], owner := true, ats := true, cls := .n
    flds := fun _ => [], pre := fun _ s => pre s, act := fun tk _ s => act tk s }

def ofStop (v : Vals) : PStop := ⟨vN v 0⟩
def mkStop (p : PStop) (act : Ticket → PStop → State → Res) (pre : PStop → State → Option (Nat × List RV) := fun _ _ => none) : Cmd :=
  { opcode := 0x0109, legal := [.running], owner := true, ats := true, cls := .n
    flds := fun _ => [fld 4 p.limit (.rng 100 600000)]
    pre := fun v s => pre (ofStop v) s, act := fun tk v s => act tk (ofStop v) s }

def mkFaultClear (act : Ticket → State → Res) (pre : State → Option (Nat × List RV) := fun _ => none) : Cmd :=
  { opcode := 0x010A, legal := [.fault], owner := true, ats := false, cls := .n
    flds := fun _ => [], pre := fun _ s => pre s, act := fun tk _ s => act tk s }

def mkSleep (act : Ticket → State → Res) (pre : State → Option (Nat × List RV) := fun _ => none) : Cmd :=
  { opcode := 0x010B, legal := [.standby], owner := true, ats := false, cls := .n
    flds := fun _ => [], pre := fun _ s => pre s, act := fun tk _ s => act tk s }

def ofApplyCancel (v : Vals) : PApplyCancel := ⟨vN v 0⟩
def mkApplyCancel (p : PApplyCancel) (act : Ticket → PApplyCancel → State → Res) (pre : PApplyCancel → State → Option (Nat × List RV) := fun _ _ => none) : Cmd :=
  { opcode := 0x010C, legal := stRun, owner := true, ats := false, cls := .n
    flds := fun _ => [fld 4 p.ctag (.any)]
    pre := fun v s => pre (ofApplyCancel v) s, act := fun tk v s => act tk (ofApplyCancel v) s }

def ofApplyList (v : Vals) : PApplyList := ⟨vN v 0, vN v 1⟩
def mkApplyList (p : PApplyList) (act : Ticket → PApplyList → State → Res) (pre : PApplyList → State → Option (Nat × List RV) := fun _ _ => none) : Cmd :=
  { opcode := 0x010D, legal := stAll, owner := false, ats := false, cls := .n
    flds := fun _ => [fld 2 p.first (.any), fld 2 p.count (.rng 1 64)]
    pre := fun v s => pre (ofApplyList v) s, act := fun tk v s => act tk (ofApplyList v) s }

def ofNetConfig (v : Vals) : PNetConfig := ⟨vN v 0, vN v 1, vN v 2, vNs v 3, vN v 4, vN v 5⟩
def mkNetConfig (p : PNetConfig) (act : Ticket → PNetConfig → State → Res) (pre : PNetConfig → State → Option (Nat × List RV) := fun _ _ => none) : Cmd :=
  { opcode := 0x010E, legal := stSC, owner := true, ats := false, cls := .n
    flds := fun _ => [fld 1 p.iface (.code [0,1,2]), fld 4 p.ip4 (.any), fld 1 p.pfx (.rng 0 32), flds 1 p.ip6 (.any),
      fld 2 p.port (.rng 1024 65535), fld 4 p.flags (.zero 0xFFFFFFFC)]
    pre := fun v s => pre (ofNetConfig v) s, act := fun tk v s => act tk (ofNetConfig v) s }

/-! ## The camera port commands (R164) -/

def ofPortOpen (v : Vals) : PPortOpen := ⟨vN v 0, vN v 1, vN v 2, vN v 3, vN v 4⟩
def mkPortOpen (p : PPortOpen) (act : Ticket → PPortOpen → State → Res) (pre : PPortOpen → State → Option (Nat × List RV) := fun _ _ => none) : Cmd :=
  { opcode := 0x0201, legal := stSC, owner := true, ats := false, cls := .c
    flds := fun _ => [fld 1 p.port (.port), fld 1 p.kind (.code [0,1,2]), fld 1 p.rate (.code [1,2,3]),
      fld 1 p.fec (.force (decide (2 ≤ p.rate)) 1 [0,1]), fld 1 p.lanes (.code [1,2,4])]
    pre := fun v s => pre (ofPortOpen v) s, act := fun tk v s => act tk (ofPortOpen v) s }

def ofPortClose (v : Vals) : PPortClose := ⟨vN v 0⟩
def mkPortClose (p : PPortClose) (act : Ticket → PPortClose → State → Res) (pre : PPortClose → State → Option (Nat × List RV) := fun _ _ => none) : Cmd :=
  { opcode := 0x0202, legal := stSC, owner := true, ats := false, cls := .c
    flds := fun _ => [fld 1 p.port (.port)]
    pre := fun v s => pre (ofPortClose v) s, act := fun tk v s => act tk (ofPortClose v) s }

def ofStreamSet (v : Vals) : PStreamSet := ⟨vN v 0, vN v 1, vN v 2, vN v 3, vN v 4⟩
def mkStreamSet (p : PStreamSet) (act : Ticket → PStreamSet → State → Res) (pre : PStreamSet → State → Option (Nat × List RV) := fun _ _ => none) : Cmd :=
  { opcode := 0x0203, legal := stSC, owner := true, ats := false, cls := .c
    flds := fun s => [fld 1 p.port (.port), fld 1 p.stream (.idx 0 7),
      fld 4 p.width (.rng 1 (streamRoom s p.port p.stream)), fld 1 p.fmt (.code [0,1,2,3,4,5,6,7]),
      fld 1 p.trig (.code [0,1,2,3,4,5,6,7,255])]
    pre := fun v s => pre (ofStreamSet v) s, act := fun tk v s => act tk (ofStreamSet v) s }

def ofPortProbe (v : Vals) : PPortProbe := ⟨vN v 0⟩
def mkPortProbe (p : PPortProbe) (act : Ticket → PPortProbe → State → Res) (pre : PPortProbe → State → Option (Nat × List RV) := fun _ _ => none) : Cmd :=
  { opcode := 0x0204, legal := stSC, owner := true, ats := false, cls := .d
    flds := fun _ => [fld 1 p.port (.port)]
    pre := fun v s => pre (ofPortProbe v) s, act := fun tk v s => act tk (ofPortProbe v) s }

def ofPortStatus (v : Vals) : PPortStatus := ⟨vN v 0⟩
def mkPortStatus (p : PPortStatus) (act : Ticket → PPortStatus → State → Res) (pre : PPortStatus → State → Option (Nat × List RV) := fun _ _ => none) : Cmd :=
  { opcode := 0x0205, legal := stAll, owner := false, ats := false, cls := .r
    flds := fun _ => [fld 1 p.port (.port)]
    pre := fun v s => pre (ofPortStatus v) s, act := fun tk v s => act tk (ofPortStatus v) s }

def ofPortCounters (v : Vals) : PPortCounters := ⟨vN v 0⟩
def mkPortCounters (p : PPortCounters) (act : Ticket → PPortCounters → State → Res) (pre : PPortCounters → State → Option (Nat × List RV) := fun _ _ => none) : Cmd :=
  { opcode := 0x0206, legal := stAll, owner := false, ats := false, cls := .r
    flds := fun _ => [fld 1 p.port (.port)]
    pre := fun v s => pre (ofPortCounters v) s, act := fun tk v s => act tk (ofPortCounters v) s }

def ofPortCountersClear (v : Vals) : PPortCountersClear := ⟨vN v 0⟩
def mkPortCountersClear (p : PPortCountersClear) (act : Ticket → PPortCountersClear → State → Res) (pre : PPortCountersClear → State → Option (Nat × List RV) := fun _ _ => none) : Cmd :=
  { opcode := 0x0207, legal := stAll, owner := true, ats := false, cls := .r
    flds := fun _ => [fld 1 p.port (.port)]
    pre := fun v s => pre (ofPortCountersClear v) s, act := fun tk v s => act tk (ofPortCountersClear v) s }

def ofLanePower (v : Vals) : PLanePower := ⟨vN v 0, vN v 1, vN v 2, vN v 3⟩
def mkLanePower (p : PLanePower) (act : Ticket → PLanePower → State → Res) (pre : PLanePower → State → Option (Nat × List RV) := fun _ _ => none) : Cmd :=
  { opcode := 0x0208, legal := [.configured, .armed, .running], owner := true, ats := true, cls := .s
    flds := fun _ => [fld 1 p.port (.port), fld 1 p.mode (.code [0,1,2,3]), fld 4 p.standbyMs (.rng 1 60000), fld 4 p.dormantMs (.rng 10 3600000)]
    pre := fun v s => pre (ofLanePower v) s, act := fun tk v s => act tk (ofLanePower v) s }

def ofHeadRegWrite (v : Vals) : PHeadRegWrite := ⟨vN v 0, vN v 1, vN v 2⟩
def mkHeadRegWrite (p : PHeadRegWrite) (act : Ticket → PHeadRegWrite → State → Res) (pre : PHeadRegWrite → State → Option (Nat × List RV) := fun _ _ => none) : Cmd :=
  { opcode := 0x0209, legal := [.armed, .running], owner := true, ats := true, cls := .d
    flds := fun _ => [fld 1 p.port (.port), fld 4 p.addr (.any), fld 4 p.data (.any)]
    pre := fun v s => pre (ofHeadRegWrite v) s, act := fun tk v s => act tk (ofHeadRegWrite v) s }

def ofHeadRegRead (v : Vals) : PHeadRegRead := ⟨vN v 0, vN v 1⟩
def mkHeadRegRead (p : PHeadRegRead) (act : Ticket → PHeadRegRead → State → Res) (pre : PHeadRegRead → State → Option (Nat × List RV) := fun _ _ => none) : Cmd :=
  { opcode := 0x020A, legal := stRun, owner := false, ats := false, cls := .r
    flds := fun _ => [fld 1 p.port (.port), fld 4 p.addr (.any)]
    pre := fun v s => pre (ofHeadRegRead v) s, act := fun tk v s => act tk (ofHeadRegRead v) s }

def ofCalRun (v : Vals) : PCalRun := ⟨vN v 0, vN v 1⟩
def mkCalRun (p : PCalRun) (act : Ticket → PCalRun → State → Res) (pre : PCalRun → State → Option (Nat × List RV) := fun _ _ => none) : Cmd :=
  { opcode := 0x020B, legal := stRun, owner := true, ats := false, cls := .d
    flds := fun _ => [fld 1 p.port (.port), fld 1 p.lanes (.zero 0xF0)]
    pre := fun v s => pre (ofCalRun v) s, act := fun tk v s => act tk (ofCalRun v) s }

def ofCalPolicy (v : Vals) : PCalPolicy := ⟨vN v 0, vN v 1, vN v 2⟩
def mkCalPolicy (p : PCalPolicy) (act : Ticket → PCalPolicy → State → Res) (pre : PCalPolicy → State → Option (Nat × List RV) := fun _ _ => none) : Cmd :=
  { opcode := 0x020C, legal := stSC, owner := true, ats := false, cls := .c
    flds := fun _ => [fld 4 p.tdelta (.rng 10 200), fld 4 p.period (.zeroOr 10 86400), fld 4 p.qfThr (.rng 20 90)]
    pre := fun v s => pre (ofCalPolicy v) s, act := fun tk v s => act tk (ofCalPolicy v) s }

def ofEyeScan (v : Vals) : PEyeScan := ⟨vN v 0, vN v 1, vN v 2, vN v 3, vN v 4⟩
def mkEyeScan (p : PEyeScan) (act : Ticket → PEyeScan → State → Res) (pre : PEyeScan → State → Option (Nat × List RV) := fun _ _ => none) : Cmd :=
  { opcode := 0x020D, legal := stRun, owner := false, ats := false, cls := .r
    flds := fun _ => [fld 1 p.port (.port), fld 1 p.lane (.idx 0 3), fld 1 p.eye (.idx 0 2), fld 4 p.offset (.any), fld 4 p.length (.rng 4 32768)]
    pre := fun v s => pre (ofEyeScan v) s, act := fun tk v s => act tk (ofEyeScan v) s }

def ofLatencyMeasure (v : Vals) : PLatencyMeasure := ⟨vN v 0⟩
def mkLatencyMeasure (p : PLatencyMeasure) (act : Ticket → PLatencyMeasure → State → Res) (pre : PLatencyMeasure → State → Option (Nat × List RV) := fun _ _ => none) : Cmd :=
  { opcode := 0x020E, legal := stRun, owner := true, ats := false, cls := .d
    flds := fun _ => [fld 1 p.port (.port)]
    pre := fun v s => pre (ofLatencyMeasure v) s, act := fun tk v s => act tk (ofLatencyMeasure v) s }

def ofLatencyTrim (v : Vals) : PLatencyTrim := ⟨vN v 0, vI v 1⟩
def mkLatencyTrim (p : PLatencyTrim) (act : Ticket → PLatencyTrim → State → Res) (pre : PLatencyTrim → State → Option (Nat × List RV) := fun _ _ => none) : Cmd :=
  { opcode := 0x020F, legal := [.standby, .configured, .armed], owner := true, ats := true, cls := .s
    flds := fun s => [fld 1 p.port (.port), fldI 4 p.trim (.rng (-5000) (trimMax s p.port))]
    pre := fun v s => pre (ofLatencyTrim v) s, act := fun tk v s => act tk (ofLatencyTrim v) s }

def ofExposureDelay (v : Vals) : PExposureDelay := ⟨vN v 0⟩
def mkExposureDelay (p : PExposureDelay) (act : Ticket → PExposureDelay → State → Res) (pre : PExposureDelay → State → Option (Nat × List RV) := fun _ _ => none) : Cmd :=
  { opcode := 0x0210, legal := stSC, owner := true, ats := false, cls := .c
    flds := fun _ => [fld 4 p.e (.rng 500 20000)]
    pre := fun v s => pre (ofExposureDelay v) s, act := fun tk v s => act tk (ofExposureDelay v) s }

/-! ## The front-end commands (R204) -/

def ofFeGeometry (v : Vals) : PFeGeometry := ⟨vN v 0, vN v 1, vN v 2, vN v 3, vN v 4, vN v 5, vN v 6, vN v 7⟩
def mkFeGeometry (p : PFeGeometry) (act : Ticket → PFeGeometry → State → Res) (pre : PFeGeometry → State → Option (Nat × List RV) := fun _ _ => none) : Cmd :=
  { opcode := 0x0301, legal := stSC, owner := true, ats := false, cls := .c
    flds := fun s => [fld 4 p.width (.rng 1 262144), fld 4 p.cdPitch (.rng 1000 10000000),
      fld 4 p.mdPitch (.rng 1000 10000000), fld 1 p.planes (.rng 1 4), fld 1 p.bands (.named (if 8 < p.bands then some 8 else none) (.rng 1 16)),
      fld 4 p.fmax (.rng 1 (feFmax s (clampN 1 262144 p.width) (clampN 1 4 p.planes))), fld 1 p.mdMode (.code [0,1]),
      fld 4 p.stitchWait (.rng 8 1024)]
    pre := fun v s => pre (ofFeGeometry v) s, act := fun tk v s => act tk (ofFeGeometry v) s }

def ofFeStreamMap (v : Vals) : PFeStreamMap := ⟨vN v 0, vN v 1, vI v 2, vN v 3, vN v 4, vIs v 5⟩
def mkFeStreamMap (p : PFeStreamMap) (act : Ticket → PFeStreamMap → State → Res) (pre : PFeStreamMap → State → Option (Nat × List RV) := fun _ _ => none) : Cmd :=
  { opcode := 0x0302, legal := stSC, owner := true, ats := false, cls := .c
    flds := fun s => [fld 1 p.stream (.stream), fld 1 p.plane (.idx 0 3),
      fldI 8 p.omd (.rng (omdLo s p.stream p.omd) (omdHi s p.stream p.omd)), fld 4 p.cFirst (.any),
      fld 4 p.cLast (.any), fldsI 8 p.a (.any)]
    pre := fun v s => pre (ofFeStreamMap v) s, act := fun tk v s => act tk (ofFeStreamMap v) s }

def ofFeSeam (v : Vals) : PFeSeam := ⟨vN v 0, vN v 1, vN v 2, vN v 3, vN v 4⟩
def mkFeSeam (p : PFeSeam) (act : Ticket → PFeSeam → State → Res) (pre : PFeSeam → State → Option (Nat × List RV) := fun _ _ => none) : Cmd :=
  { opcode := 0x0303, legal := stSC, owner := true, ats := false, cls := .c
    flds := fun _ => [fld 1 p.seam (.idx 0 127), fld 1 p.left (.stream), fld 1 p.right (.stream), fld 4 p.s0 (.any), fld 4 p.n (.rng 0 1024)]
    pre := fun v s => pre (ofFeSeam v) s, act := fun tk v s => act tk (ofFeSeam v) s }

def ofFeKernel (v : Vals) : PFeKernel := ⟨vN v 0, vIs v 1⟩
def mkFeKernel (p : PFeKernel) (act : Ticket → PFeKernel → State → Res) (pre : PFeKernel → State → Option (Nat × List RV) := fun _ _ => none) : Cmd :=
  { opcode := 0x0304, legal := stSC, owner := true, ats := false, cls := .c
    flds := fun _ => [fld 1 p.source (.code [0,1]), fldsI 2 p.table (.bulk 256)]
    pre := fun v s => pre (ofFeKernel v) s, act := fun tk v s => act tk (ofFeKernel v) s }

def ofFeCoefLoad (v : Vals) : PFeCoefLoad := ⟨vN v 0, vN v 1, vN v 2, vN v 3, vN v 4, vIs v 5⟩
def mkFeCoefLoad (p : PFeCoefLoad) (act : Ticket → PFeCoefLoad → State → Res) (pre : PFeCoefLoad → State → Option (Nat × List RV) := fun _ _ => none) : Cmd :=
  { opcode := 0x0305, legal := stSCRun, owner := true, ats := false, cls := .t
    flds := fun _ => [fld 1 p.stream (.stream), fld 1 p.bank (.code [0,1]), fld 1 p.kind (.code [0,1,2]),
      fld 4 p.first (.any), fld 4 p.count (.idx 1 16384), fldsI (if p.kind = 2 then 1 else 2) p.data (.bulk p.count)]
    pre := fun v s => pre (ofFeCoefLoad v) s, act := fun tk v s => act tk (ofFeCoefLoad v) s }

def ofFeBankSelect (v : Vals) : PFeBankSelect := ⟨vN v 0, vN v 1, vN v 2⟩
def mkFeBankSelect (p : PFeBankSelect) (act : Ticket → PFeBankSelect → State → Res) (pre : PFeBankSelect → State → Option (Nat × List RV) := fun _ _ => none) : Cmd :=
  { opcode := 0x0306, legal := [.standby, .configured, .armed], owner := true, ats := true, cls := .s
    flds := fun _ => [fld 1 p.port (.port), fld 1 p.streams (.any), fld 1 p.bank (.code [0,1])]
    pre := fun v s => pre (ofFeBankSelect v) s, act := fun tk v s => act tk (ofFeBankSelect v) s }

def ofFeShading (v : Vals) : PFeShading := ⟨vN v 0, vN v 1, vN v 2, vN v 3, vN v 4, vN v 5, vN v 6⟩
def mkFeShading (p : PFeShading) (act : Ticket → PFeShading → State → Res) (pre : PFeShading → State → Option (Nat × List RV) := fun _ _ => none) : Cmd :=
  { opcode := 0x0307, legal := [.standby, .configured, .armed], owner := true, ats := true, cls := .s
    flds := fun _ => [fld 1 p.stream (.stream), fld 1 p.mode (.code [0,1,2]), fld 2 p.t (.any),
      fld 4 p.k (.pow2 16 4096), fld 1 p.a (.rng 0 8), fld 2 p.lo (.any), fld 2 p.hi (.any)]
    pre := fun v s => pre (ofFeShading v) s, act := fun tk v s => act tk (ofFeShading v) s }

def ofFeSettingLatency (v : Vals) : PFeSettingLatency := ⟨vN v 0, vN v 1, vN v 2, vN v 3, vN v 4, vN v 5, vN v 6, vN v 7, vN v 8⟩
def mkFeSettingLatency (p : PFeSettingLatency) (act : Ticket → PFeSettingLatency → State → Res) (pre : PFeSettingLatency → State → Option (Nat × List RV) := fun _ _ => none) : Cmd :=
  { opcode := 0x0308, legal := stSC, owner := true, ats := false, cls := .c
    flds := fun _ => [fld 1 p.port (.port), fld 1 p.entry (.idx 0 15), fld 1 p.enable (.code [0,1]),
      fld 4 p.addr (.any), fld 4 p.m (.any), fld 4 p.v (.any), fld 4 p.lambda (.rng 0 255), fld 1 p.streams (.any),
      fld 1 p.bank (.code [0,1])]
    pre := fun v s => pre (ofFeSettingLatency v) s, act := fun tk v s => act tk (ofFeSettingLatency v) s }

def ofFeMetaKey (v : Vals) : PFeMetaKey := ⟨vN v 0, vN v 1, vN v 2, vN v 3, vN v 4, vN v 5, vNs v 6⟩
def mkFeMetaKey (p : PFeMetaKey) (act : Ticket → PFeMetaKey → State → Res) (pre : PFeMetaKey → State → Option (Nat × List RV) := fun _ _ => none) : Cmd :=
  { opcode := 0x0309, legal := stSC, owner := true, ats := false, cls := .c
    flds := fun _ => [fld 1 p.port (.port), fld 1 p.streams (.any), fld 1 p.enable (.code [0,1]),
      fld 2 p.offset (.rng 0 4095), fld 1 p.mask (.any), fld 1 p.shift (.rng 0 7), flds 1 p.map (.code [0,1,255])]
    pre := fun v s => pre (ofFeMetaKey v) s, act := fun tk v s => act tk (ofFeMetaKey v) s }

def ofFeStatus (v : Vals) : PFeStatus := ⟨vN v 0⟩
def mkFeStatus (p : PFeStatus) (act : Ticket → PFeStatus → State → Res) (pre : PFeStatus → State → Option (Nat × List RV) := fun _ _ => none) : Cmd :=
  { opcode := 0x030A, legal := stAll, owner := false, ats := false, cls := .r
    flds := fun _ => [fld 1 p.port (.port)]
    pre := fun v s => pre (ofFeStatus v) s, act := fun tk v s => act tk (ofFeStatus v) s }

def ofFeCapture (v : Vals) : PFeCapture := ⟨vN v 0, vN v 1, vN v 2, vN v 3⟩
def mkFeCapture (p : PFeCapture) (act : Ticket → PFeCapture → State → Res) (pre : PFeCapture → State → Option (Nat × List RV) := fun _ _ => none) : Cmd :=
  { opcode := 0x030B, legal := stRun, owner := false, ats := false, cls := .r
    flds := fun _ => [fld 1 p.stream (.stream), fld 1 p.stage (.code [0,1,2]), fld 4 p.offset (.any), fld 4 p.length (.rng 4 65536)]
    pre := fun v s => pre (ofFeCapture v) s, act := fun tk v s => act tk (ofFeCapture v) s }

def mkFeCountersClear (act : Ticket → State → Res) (pre : State → Option (Nat × List RV) := fun _ => none) : Cmd :=
  { opcode := 0x030C, legal := stAll, owner := true, ats := false, cls := .r
    flds := fun _ => [], pre := fun _ s => pre s, act := fun tk _ s => act tk s }

/-! ## The position commands (R250) -/

def ofEncConfig (v : Vals) : PEncConfig := ⟨vN v 0, vN v 1, vN v 2, vN v 3, vN v 4, vN v 5, vN v 6, vN v 7, vN v 8, vN v 9, vN v 10⟩
def mkEncConfig (p : PEncConfig) (act : Ticket → PEncConfig → State → Res) (pre : PEncConfig → State → Option (Nat × List RV) := fun _ _ => none) : Cmd :=
  { opcode := 0x0401, legal := stSC, owner := true, ats := false, cls := .c
    flds := fun _ => [fld 1 p.axis (.idx 0 3), fld 1 p.type (.code [0,1,2,3]), fld 1 p.filt (.rng 0 15),
      fld 8 p.scale (.rng 4294967296 281470681743360), fld 1 p.invert (.code [0,1]), fld 4 p.nz (.zeroOr 4 16777216),
      fld 1 p.wordBits (.rng 8 48), fld 1 p.gray (.code [0,1]), fld 4 p.clockKhz (.rng 100 10000),
      fld 4 p.sampleNs (.rng 1000 1000000), fld 4 p.lineDelayNs (.rng 0 2000)]
    pre := fun v s => pre (ofEncConfig v) s, act := fun tk v s => act tk (ofEncConfig v) s }

def ofObserverSet (v : Vals) : PObserverSet := ⟨vN v 0, vN v 1, vN v 2, vN v 3, vN v 4⟩
def mkObserverSet (p : PObserverSet) (act : Ticket → PObserverSet → State → Res) (pre : PObserverSet → State → Option (Nat × List RV) := fun _ _ => none) : Cmd :=
  { opcode := 0x0402, legal := stSCRun, owner := true, ats := true, cls := .s
    flds := fun _ => [fld 1 p.axis (.idx 0 3), fld 4 p.bw (.rng 10 5000), fld 4 p.hyst (.rng 1 255),
      fld 4 p.startDist (.rng 1 65535), fld 4 p.stopMs (.rng 1 10000)]
    pre := fun v s => pre (ofObserverSet v) s, act := fun tk v s => act tk (ofObserverSet v) s }

def ofPosOrigin (v : Vals) : PPosOrigin := ⟨vN v 0, vI v 1, vN v 2, vN v 3⟩
def mkPosOrigin (p : PPosOrigin) (act : Ticket → PPosOrigin → State → Res) (pre : PPosOrigin → State → Option (Nat × List RV) := fun _ _ => none) : Cmd :=
  { opcode := 0x0403, legal := stSCRun, owner := true, ats := true, cls := .d
    flds := fun _ => [fld 1 p.axis (.idx 0 3), fldI 8 p.md0 (.any), fld 1 p.mode (.code [0,1,2]), fld 1 p.latch (.idx 0 15)]
    pre := fun v s => pre (ofPosOrigin v) s, act := fun tk v s => act tk (ofPosOrigin v) s }

def ofLtgConfig (v : Vals) : PLtgConfig := ⟨vN v 0, vN v 1, vN v 2, vI v 3, vN v 4, vN v 5⟩
def mkLtgConfig (p : PLtgConfig) (act : Ticket → PLtgConfig → State → Res) (pre : PLtgConfig → State → Option (Nat × List RV) := fun _ _ => none) : Cmd :=
  { opcode := 0x0404, legal := stSC, owner := true, ats := false, cls := .c
    flds := fun _ => [fld 1 p.gen (.idx 0 7), fld 1 p.axis (.idx 0 3), fld 4 p.pitch (.rng 1000 10000000),
      fldI 8 p.phase (.any), fld 1 p.mode (.code [0,1,2]), fld 4 p.minInt (.rng 2500 1000000)]
    pre := fun v s => pre (ofLtgConfig v) s, act := fun tk v s => act tk (ofLtgConfig v) s }

def ofLtgEnable (v : Vals) : PLtgEnable := ⟨vN v 0, vN v 1⟩
def mkLtgEnable (p : PLtgEnable) (act : Ticket → PLtgEnable → State → Res) (pre : PLtgEnable → State → Option (Nat × List RV) := fun _ _ => none) : Cmd :=
  { opcode := 0x0405, legal := stCRun, owner := true, ats := true, cls := .s
    flds := fun _ => [fld 1 p.gen (.idx 0 7), fld 1 p.enable (.code [0,1])]
    pre := fun v s => pre (ofLtgEnable v) s, act := fun tk v s => act tk (ofLtgEnable v) s }

def ofCmpConfig (v : Vals) : PCmpConfig := ⟨vN v 0, vN v 1, vN v 2, vN v 3, vN v 4, vN v 5, vI v 6, vN v 7, vN v 8⟩
def mkCmpConfig (p : PCmpConfig) (act : Ticket → PCmpConfig → State → Res) (pre : PCmpConfig → State → Option (Nat × List RV) := fun _ _ => none) : Cmd :=
  { opcode := 0x0406, legal := stSC, owner := true, ats := false, cls := .c
    flds := fun _ => [fld 1 p.ch (.idx 0 15), fld 1 p.axis (.idx 0 3), fld 1 p.mode (.code [0,1]),
      fld 4 p.base (.idx 0 65535), fld 4 p.len (.rng 1 4096), fld 4 p.pulse (.rng 10 1000000), fldI 8 p.start (.any),
      fld 8 p.pitch (.rng 1000 10000000000), fld 4 p.count (if p.mode = 1 then .rng 1 4294967295 else .any)]
    pre := fun v s => pre (ofCmpConfig v) s, act := fun tk v s => act tk (ofCmpConfig v) s }

def ofCmpListLoad (v : Vals) : PCmpListLoad := ⟨vN v 0, vN v 1, vN v 2, vNs v 3⟩
def mkCmpListLoad (p : PCmpListLoad) (act : Ticket → PCmpListLoad → State → Res) (pre : PCmpListLoad → State → Option (Nat × List RV) := fun _ _ => none) : Cmd :=
  { opcode := 0x0407, legal := stSCRun, owner := true, ats := false, cls := .t
    flds := fun _ => [fld 1 p.ch (.idx 0 15), fld 4 p.first (.any), fld 4 p.count (.idx 1 64), flds 1 p.data (.bulk (16 * p.count))]
    pre := fun v s => pre (ofCmpListLoad v) s, act := fun tk v s => act tk (ofCmpListLoad v) s }

def ofCmpEnable (v : Vals) : PCmpEnable := ⟨vN v 0, vN v 1⟩
def mkCmpEnable (p : PCmpEnable) (act : Ticket → PCmpEnable → State → Res) (pre : PCmpEnable → State → Option (Nat × List RV) := fun _ _ => none) : Cmd :=
  { opcode := 0x0408, legal := stCRun, owner := true, ats := true, cls := .s
    flds := fun _ => [fld 1 p.ch (.idx 0 15), fld 1 p.enable (.code [0,1])]
    pre := fun v s => pre (ofCmpEnable v) s, act := fun tk v s => act tk (ofCmpEnable v) s }

def ofLatchConfig (v : Vals) : PLatchConfig := ⟨vN v 0, vN v 1, vN v 2, vN v 3⟩
def mkLatchConfig (p : PLatchConfig) (act : Ticket → PLatchConfig → State → Res) (pre : PLatchConfig → State → Option (Nat × List RV) := fun _ _ => none) : Cmd :=
  { opcode := 0x0409, legal := stSC, owner := true, ats := false, cls := .c
    flds := fun _ => [fld 1 p.latch (.idx 0 15), fld 1 p.axis (.idx 0 3), fld 1 p.source (.code [0,1,2]), fld 1 p.edge (.code [0,1,2])]
    pre := fun v s => pre (ofLatchConfig v) s, act := fun tk v s => act tk (ofLatchConfig v) s }

def ofLatchRead (v : Vals) : PLatchRead := ⟨vN v 0, vN v 1⟩
def mkLatchRead (p : PLatchRead) (act : Ticket → PLatchRead → State → Res) (pre : PLatchRead → State → Option (Nat × List RV) := fun _ _ => none) : Cmd :=
  { opcode := 0x040A, legal := stAll, owner := false, ats := false, cls := .r
    flds := fun _ => [fld 1 p.latch (.idx 0 15), fld 1 p.max (.rng 1 16)]
    pre := fun v s => pre (ofLatchRead v) s, act := fun tk v s => act tk (ofLatchRead v) s }

def ofPosStatus (v : Vals) : PPosStatus := ⟨vN v 0⟩
def mkPosStatus (p : PPosStatus) (act : Ticket → PPosStatus → State → Res) (pre : PPosStatus → State → Option (Nat × List RV) := fun _ _ => none) : Cmd :=
  { opcode := 0x040B, legal := stAll, owner := false, ats := false, cls := .r
    flds := fun _ => [fld 1 p.axis (.idx 0 3)]
    pre := fun v s => pre (ofPosStatus v) s, act := fun tk v s => act tk (ofPosStatus v) s }

def mkPosCountersClear (act : Ticket → State → Res) (pre : State → Option (Nat × List RV) := fun _ => none) : Cmd :=
  { opcode := 0x040C, legal := stAll, owner := true, ats := false, cls := .r
    flds := fun _ => [], pre := fun _ s => pre s, act := fun tk _ s => act tk s }

/-! ## The time commands (R251) -/

def ofTimeSource (v : Vals) : PTimeSource := ⟨vN v 0⟩
def mkTimeSource (p : PTimeSource) (act : Ticket → PTimeSource → State → Res) (pre : PTimeSource → State → Option (Nat × List RV) := fun _ _ => none) : Cmd :=
  { opcode := 0x0501, legal := stAll, owner := true, ats := false, cls := .d
    flds := fun _ => [fld 1 p.source (.code [0,1,2])]
    pre := fun v s => pre (ofTimeSource v) s, act := fun tk v s => act tk (ofTimeSource v) s }

def ofTimeSet (v : Vals) : PTimeSet := ⟨vN v 0, vN v 1⟩
def mkTimeSet (p : PTimeSet) (act : Ticket → PTimeSet → State → Res) (pre : PTimeSet → State → Option (Nat × List RV) := fun _ _ => none) : Cmd :=
  { opcode := 0x0502, legal := stAll, owner := true, ats := false, cls := .d
    flds := fun _ => [fld 8 p.sec (.zero 0xFFFF000000000000), fld 4 p.ns (.rng 0 999999999)]
    pre := fun v s => pre (ofTimeSet v) s, act := fun tk v s => act tk (ofTimeSet v) s }

def mkTimeRelearn (act : Ticket → State → Res) (pre : State → Option (Nat × List RV) := fun _ => none) : Cmd :=
  { opcode := 0x0503, legal := stAll, owner := true, ats := false, cls := .d
    flds := fun _ => [], pre := fun _ s => pre s, act := fun tk _ s => act tk s }

def mkTimeStatus (act : Ticket → State → Res) (pre : State → Option (Nat × List RV) := fun _ => none) : Cmd :=
  { opcode := 0x0504, legal := stAllBoot, owner := false, ats := false, cls := .r
    flds := fun _ => [], pre := fun _ s => pre s, act := fun tk _ s => act tk s }

def ofPtpConfig (v : Vals) : PPtpConfig := ⟨vN v 0, vN v 1, vN v 2, vN v 3, vN v 4, vI v 5, vI v 6, vI v 7, vN v 8, vN v 9, vN v 10⟩
def mkPtpConfig (p : PPtpConfig) (act : Ticket → PPtpConfig → State → Res) (pre : PPtpConfig → State → Option (Nat × List RV) := fun _ _ => none) : Cmd :=
  { opcode := 0x0505, legal := stAll, owner := true, ats := false, cls := .d
    flds := fun _ => [fld 1 p.iface (.code [0,1,2]), fld 1 p.profile (.code [0,1]), fld 1 p.transport (.code [0,1,2]),
      fld 1 p.oneStep (.code [0,1]), fld 1 p.domain (.any), fldI 1 p.syncLog (.rng (-7) 4),
      fldI 1 p.delayLog (.rng (-7) 4), fldI 1 p.annLog (.rng 0 4), fld 1 p.prio1 (.any), fld 1 p.prio2 (.any),
      fld 1 p.slaveOnly (.code [0,1])]
    pre := fun v s => pre (ofPtpConfig v) s, act := fun tk v s => act tk (ofPtpConfig v) s }

def ofPpsConfig (v : Vals) : PPpsConfig := ⟨vN v 0, vI v 1, vN v 2⟩
def mkPpsConfig (p : PPpsConfig) (act : Ticket → PPpsConfig → State → Res) (pre : PPpsConfig → State → Option (Nat × List RV) := fun _ _ => none) : Cmd :=
  { opcode := 0x0506, legal := stAll, owner := true, ats := false, cls := .d
    flds := fun _ => [fld 1 p.enable (.code [0,1]), fldI 4 p.offset (.rng (-500000000) 500000000), fld 4 p.width (.rng 1000 500000000)]
    pre := fun v s => pre (ofPpsConfig v) s, act := fun tk v s => act tk (ofPpsConfig v) s }

def ofTtrConfig (v : Vals) : PTtrConfig := ⟨vN v 0, vN v 1, vN v 2, vN v 3, vN v 4, vN v 5, vN v 6⟩
def mkTtrConfig (p : PTtrConfig) (act : Ticket → PTtrConfig → State → Res) (pre : PTtrConfig → State → Option (Nat × List RV) := fun _ _ => none) : Cmd :=
  { opcode := 0x0507, legal := stAll, owner := true, ats := true, cls := .d
    flds := fun _ => [fld 1 p.trig (.idx 0 15), fld 1 p.enable (.code [0,1]), fld 8 p.sec (.any), fld 4 p.ns (.any),
      fld 8 p.period (.zeroOr 1000 4000000000), fld 1 p.drive (.code [0,1]), fld 4 p.pulse (.rng 10 1000000)]
    pre := fun v s => pre (ofTtrConfig v) s, act := fun tk v s => act tk (ofTtrConfig v) s }

def ofTcpConfig (v : Vals) : PTcpConfig := ⟨vN v 0, vN v 1, vN v 2⟩
def mkTcpConfig (p : PTcpConfig) (act : Ticket → PTcpConfig → State → Res) (pre : PTcpConfig → State → Option (Nat × List RV) := fun _ _ => none) : Cmd :=
  { opcode := 0x0508, legal := stAll, owner := true, ats := false, cls := .d
    flds := fun _ => [fld 1 p.cap (.idx 0 15), fld 1 p.source (.code [0,1]), fld 1 p.edge (.code [0,1,2])]
    pre := fun v s => pre (ofTcpConfig v) s, act := fun tk v s => act tk (ofTcpConfig v) s }

def ofTcpRead (v : Vals) : PTcpRead := ⟨vN v 0, vN v 1⟩
def mkTcpRead (p : PTcpRead) (act : Ticket → PTcpRead → State → Res) (pre : PTcpRead → State → Option (Nat × List RV) := fun _ _ => none) : Cmd :=
  { opcode := 0x0509, legal := stAll, owner := false, ats := false, cls := .r
    flds := fun _ => [fld 1 p.cap (.idx 0 15), fld 1 p.max (.rng 1 16)]
    pre := fun v s => pre (ofTcpRead v) s, act := fun tk v s => act tk (ofTcpRead v) s }

def mkTimeRead (act : Ticket → State → Res) (pre : State → Option (Nat × List RV) := fun _ => none) : Cmd :=
  { opcode := 0x050A, legal := stAllBoot, owner := false, ats := false, cls := .r
    flds := fun _ => [], pre := fun _ s => pre s, act := fun tk _ s => act tk s }

/-! ## The analysis commands (R288) -/

def ofGraphNode (v : Vals) : PGraphNode := ⟨vN v 0, vN v 1, vN v 2, vNs v 3, vIs v 4⟩
def mkGraphNode (p : PGraphNode) (act : Ticket → PGraphNode → State → Res) (pre : PGraphNode → State → Option (Nat × List RV) := fun _ _ => none) : Cmd :=
  { opcode := 0x0601, legal := stSC, owner := true, ats := false, cls := .c
    flds := fun _ => [fld 1 p.slot (.idx 0 3), fld 1 p.node (.idx 0 31), fld 1 p.kernel (.code kernelCodes),
      flds 1 p.inputs (.code nodeInputs), fldsI 4 p.par (.list (nodeRules p.kernel p.par))]
    pre := fun v s => pre (ofGraphNode v) s, act := fun tk v s => act tk (ofGraphNode v) s }

def ofGraphClear (v : Vals) : PGraphClear := ⟨vN v 0⟩
def mkGraphClear (p : PGraphClear) (act : Ticket → PGraphClear → State → Res) (pre : PGraphClear → State → Option (Nat × List RV) := fun _ _ => none) : Cmd :=
  { opcode := 0x0602, legal := stSC, owner := true, ats := false, cls := .c
    flds := fun _ => [fld 1 p.slot (.idx 0 3)]
    pre := fun v s => pre (ofGraphClear v) s, act := fun tk v s => act tk (ofGraphClear v) s }

def ofGradeRules (v : Vals) : PGradeRules := ⟨vN v 0, vN v 1, vN v 2, vNs v 3⟩
def mkGradeRules (p : PGradeRules) (act : Ticket → PGradeRules → State → Res) (pre : PGradeRules → State → Option (Nat × List RV) := fun _ _ => none) : Cmd :=
  { opcode := 0x0603, legal := stSCRun, owner := true, ats := true, cls := .s
    flds := fun _ => [fld 1 p.slot (.idx 0 3), fld 1 p.first (.idx 0 63), fld 1 p.count (.idx 1 16), flds 1 p.data (.bulk (64 * p.count))]
    pre := fun v s => pre (ofGradeRules v) s, act := fun tk v s => act tk (ofGradeRules v) s }

def ofMarkTable (v : Vals) : PMarkTable := ⟨vN v 0, vN v 1, vN v 2, vNs v 3⟩
def mkMarkTable (p : PMarkTable) (act : Ticket → PMarkTable → State → Res) (pre : PMarkTable → State → Option (Nat × List RV) := fun _ _ => none) : Cmd :=
  { opcode := 0x0604, legal := stSCRun, owner := true, ats := true, cls := .s
    flds := fun _ => [fld 1 p.slot (.idx 0 3), fld 1 p.first (.any), fld 2 p.count (.idx 1 256), flds 1 p.data (.bulk (4 * p.count))]
    pre := fun v s => pre (ofMarkTable v) s, act := fun tk v s => act tk (ofMarkTable v) s }

def ofGraphSelect (v : Vals) : PGraphSelect := ⟨vN v 0⟩
def mkGraphSelect (p : PGraphSelect) (act : Ticket → PGraphSelect → State → Res) (pre : PGraphSelect → State → Option (Nat × List RV) := fun _ _ => none) : Cmd :=
  { opcode := 0x0605, legal := [.standby, .configured, .armed], owner := true, ats := true, cls := .s
    flds := fun _ => [fld 1 p.slot (.idx 0 3)]
    pre := fun v s => pre (ofGraphSelect v) s, act := fun tk v s => act tk (ofGraphSelect v) s }

def ofGraphParam (v : Vals) : PGraphParam := ⟨vN v 0, vN v 1, vN v 2, vI v 3⟩
def mkGraphParam (p : PGraphParam) (act : Ticket → PGraphParam → State → Res) (pre : PGraphParam → State → Option (Nat × List RV) := fun _ _ => none) : Cmd :=
  { opcode := 0x0606, legal := stSCRun, owner := true, ats := true, cls := .p
    flds := fun s => [fld 1 p.slot (.idx 0 3), fld 1 p.node (.idx 0 31), fld 1 p.par (.idx 0 11), fldI 4 p.value ((paramRule s p.slot p.node p.par))]
    pre := fun v s => pre (ofGraphParam v) s, act := fun tk v s => act tk (ofGraphParam v) s }

def ofVerifyGraph (v : Vals) : PVerifyGraph := ⟨vN v 0, vN v 1, vN v 2⟩
def mkVerifyGraph (p : PVerifyGraph) (act : Ticket → PVerifyGraph → State → Res) (pre : PVerifyGraph → State → Option (Nat × List RV) := fun _ _ => none) : Cmd :=
  { opcode := 0x0607, legal := stSC, owner := true, ats := false, cls := .c
    flds := fun _ => [fld 1 p.slot (.code [0,1,2,3,255]), fld 1 p.cluster (.cluster), fld 1 p.port (.port)]
    pre := fun v s => pre (ofVerifyGraph v) s, act := fun tk v s => act tk (ofVerifyGraph v) s }

def ofGraphBudget (v : Vals) : PGraphBudget := ⟨vN v 0, vN v 1, vN v 2⟩
def mkGraphBudget (p : PGraphBudget) (act : Ticket → PGraphBudget → State → Res) (pre : PGraphBudget → State → Option (Nat × List RV) := fun _ _ => none) : Cmd :=
  { opcode := 0x0608, legal := stSC, owner := true, ats := false, cls := .c
    flds := fun _ => [fld 1 p.slot (.idx 0 3), fld 4 p.rate (.rng 0 1000000), fld 4 p.backlogMax (.rng 1024 16384)]
    pre := fun v s => pre (ofGraphBudget v) s, act := fun tk v s => act tk (ofGraphBudget v) s }

def ofGraphCost (v : Vals) : PGraphCost := ⟨vN v 0⟩
def mkGraphCost (p : PGraphCost) (act : Ticket → PGraphCost → State → Res) (pre : PGraphCost → State → Option (Nat × List RV) := fun _ _ => none) : Cmd :=
  { opcode := 0x0609, legal := stAll, owner := false, ats := false, cls := .r
    flds := fun _ => [fld 1 p.slot (.idx 0 3)]
    pre := fun v s => pre (ofGraphCost v) s, act := fun tk v s => act tk (ofGraphCost v) s }

def ofElxStatus (v : Vals) : PElxStatus := ⟨vN v 0⟩
def mkElxStatus (p : PElxStatus) (act : Ticket → PElxStatus → State → Res) (pre : PElxStatus → State → Option (Nat × List RV) := fun _ _ => none) : Cmd :=
  { opcode := 0x060A, legal := stAll, owner := false, ats := false, cls := .r
    flds := fun _ => [fld 1 p.cluster (.cluster)]
    pre := fun v s => pre (ofElxStatus v) s, act := fun tk v s => act tk (ofElxStatus v) s }

def mkElxCountersClear (act : Ticket → State → Res) (pre : State → Option (Nat × List RV) := fun _ => none) : Cmd :=
  { opcode := 0x060B, legal := stAll, owner := true, ats := false, cls := .r
    flds := fun _ => [], pre := fun _ s => pre s, act := fun tk _ s => act tk s }

def ofElxGating (v : Vals) : PElxGating := ⟨vN v 0⟩
def mkElxGating (p : PElxGating) (act : Ticket → PElxGating → State → Res) (pre : PElxGating → State → Option (Nat × List RV) := fun _ _ => none) : Cmd :=
  { opcode := 0x060C, legal := stSC, owner := true, ats := false, cls := .c
    flds := fun _ => [fld 4 p.idleMs (.rng 1 10000)]
    pre := fun v s => pre (ofElxGating v) s, act := fun tk v s => act tk (ofElxGating v) s }

/-! ## The model commands (R315) -/

def ofModelStage (v : Vals) : PModelStage := ⟨vN v 0, vN v 1⟩
def mkModelStage (p : PModelStage) (act : Ticket → PModelStage → State → Res) (pre : PModelStage → State → Option (Nat × List RV) := fun _ _ => none) : Cmd :=
  { opcode := 0x0701, legal := stSCRun, owner := true, ats := false, cls := .d
    flds := fun _ => [fld 2 p.id (.idx 1 65535), fld 4 p.total (.rng 896 33571712)]
    pre := fun v s => pre (ofModelStage v) s, act := fun tk v s => act tk (ofModelStage v) s }

def ofModelWrite (v : Vals) : PModelWrite := ⟨vN v 0, vN v 1, vN v 2, vNs v 3⟩
def mkModelWrite (p : PModelWrite) (act : Ticket → PModelWrite → State → Res) (pre : PModelWrite → State → Option (Nat × List RV) := fun _ _ => none) : Cmd :=
  { opcode := 0x0702, legal := stSCRun, owner := true, ats := false, cls := .d
    flds := fun _ => [fld 2 p.id (.idx 1 65535), fld 4 p.offset (.any), fld 4 p.length (.idxStep 4 65536 4), flds 1 p.data (.bulk p.length)]
    pre := fun v s => pre (ofModelWrite v) s, act := fun tk v s => act tk (ofModelWrite v) s }

def ofModelCommit (v : Vals) : PModelCommit := ⟨vN v 0⟩
def mkModelCommit (p : PModelCommit) (act : Ticket → PModelCommit → State → Res) (pre : PModelCommit → State → Option (Nat × List RV) := fun _ _ => none) : Cmd :=
  { opcode := 0x0703, legal := stSCRun, owner := true, ats := false, cls := .d
    flds := fun _ => [fld 2 p.id (.idx 1 65535)]
    pre := fun v s => pre (ofModelCommit v) s, act := fun tk v s => act tk (ofModelCommit v) s }

def ofModelAbort (v : Vals) : PModelAbort := ⟨vN v 0⟩
def mkModelAbort (p : PModelAbort) (act : Ticket → PModelAbort → State → Res) (pre : PModelAbort → State → Option (Nat × List RV) := fun _ _ => none) : Cmd :=
  { opcode := 0x0704, legal := stSCRun, owner := true, ats := false, cls := .d
    flds := fun _ => [fld 2 p.id (.idx 1 65535)]
    pre := fun v s => pre (ofModelAbort v) s, act := fun tk v s => act tk (ofModelAbort v) s }

def ofModelUnload (v : Vals) : PModelUnload := ⟨vN v 0⟩
def mkModelUnload (p : PModelUnload) (act : Ticket → PModelUnload → State → Res) (pre : PModelUnload → State → Option (Nat × List RV) := fun _ _ => none) : Cmd :=
  { opcode := 0x0705, legal := stSCRun, owner := true, ats := false, cls := .d
    flds := fun _ => [fld 2 p.id (.idx 1 65535)]
    pre := fun v s => pre (ofModelUnload v) s, act := fun tk v s => act tk (ofModelUnload v) s }

def ofModelSwap (v : Vals) : PModelSwap := ⟨vN v 0, vN v 1⟩
def mkModelSwap (p : PModelSwap) (act : Ticket → PModelSwap → State → Res) (pre : PModelSwap → State → Option (Nat × List RV) := fun _ _ => none) : Cmd :=
  { opcode := 0x0706, legal := stSC, owner := true, ats := true, cls := .c
    flds := fun _ => [fld 2 p.old (.idx 1 65535), fld 2 p.new (.idx 1 65535)]
    pre := fun v s => pre (ofModelSwap v) s, act := fun tk v s => act tk (ofModelSwap v) s }

def ofModelList (v : Vals) : PModelList := ⟨vN v 0, vN v 1⟩
def mkModelList (p : PModelList) (act : Ticket → PModelList → State → Res) (pre : PModelList → State → Option (Nat × List RV) := fun _ _ => none) : Cmd :=
  { opcode := 0x0707, legal := stAll, owner := false, ats := false, cls := .r
    flds := fun _ => [fld 1 p.first (.idx 0 63), fld 1 p.count (.rng 1 64)]
    pre := fun v s => pre (ofModelList v) s, act := fun tk v s => act tk (ofModelList v) s }

def ofModelInfo (v : Vals) : PModelInfo := ⟨vN v 0⟩
def mkModelInfo (p : PModelInfo) (act : Ticket → PModelInfo → State → Res) (pre : PModelInfo → State → Option (Nat × List RV) := fun _ _ => none) : Cmd :=
  { opcode := 0x0708, legal := stAll, owner := false, ats := false, cls := .r
    flds := fun _ => [fld 2 p.id (.idx 1 65535)]
    pre := fun v s => pre (ofModelInfo v) s, act := fun tk v s => act tk (ofModelInfo v) s }

def ofModelTest (v : Vals) : PModelTest := ⟨vN v 0, vN v 1, vN v 2, vN v 3, vN v 4, vIs v 5⟩
def mkModelTest (p : PModelTest) (act : Ticket → PModelTest → State → Res) (pre : PModelTest → State → Option (Nat × List RV) := fun _ _ => none) : Cmd :=
  { opcode := 0x0709, legal := stSCRun, owner := false, ats := false, cls := .r
    flds := fun _ => [fld 2 p.id (.idx 1 65535), fld 2 p.width (.idx 1 1024), fld 2 p.height (.idx 1 1024),
      fld 1 p.inputs (.idx 1 4), fld 1 p.types (.any), fldsI 2 p.pixels (.bulk (p.width * p.height * p.inputs))]
    pre := fun v s => pre (ofModelTest v) s, act := fun tk v s => act tk (ofModelTest v) s }

/-! ## The result commands (R340) -/

def ofResultQueueConfig (v : Vals) : PResultQueueConfig := ⟨vN v 0, vN v 1, vN v 2, vN v 3⟩
def mkResultQueueConfig (p : PResultQueueConfig) (act : Ticket → PResultQueueConfig → State → Res) (pre : PResultQueueConfig → State → Option (Nat × List RV) := fun _ _ => none) : Cmd :=
  { opcode := 0x0801, legal := stSC, owner := true, ats := false, cls := .c
    flds := fun _ => [fld 1 p.queue (.idx 0 63), fld 4 p.entries (.pow2 1024 16777216), fld 1 p.policy (.code [0,1]), fld 1 p.extra (.idx 0 19)]
    pre := fun v s => pre (ofResultQueueConfig v) s, act := fun tk v s => act tk (ofResultQueueConfig v) s }

def ofTilePoolConfig (v : Vals) : PTilePoolConfig := ⟨vN v 0⟩
def mkTilePoolConfig (p : PTilePoolConfig) (act : Ticket → PTilePoolConfig → State → Res) (pre : PTilePoolConfig → State → Option (Nat × List RV) := fun _ _ => none) : Cmd :=
  { opcode := 0x0802, legal := stSC, owner := true, ats := false, cls := .c
    flds := fun _ => [fld 4 p.mib (.rng 64 262144)]
    pre := fun v s => pre (ofTilePoolConfig v) s, act := fun tk v s => act tk (ofTilePoolConfig v) s }

def ofResultSubscribe (v : Vals) : PResultSubscribe := ⟨vN v 0, vN v 1, vN v 2, vN v 3, vN v 4, vN v 5, vN v 6, vN v 7⟩
def mkResultSubscribe (p : PResultSubscribe) (act : Ticket → PResultSubscribe → State → Res) (pre : PResultSubscribe → State → Option (Nat × List RV) := fun _ _ => none) : Cmd :=
  { opcode := 0x0803, legal := stAll, owner := false, ats := false, cls := .r
    flds := fun _ => [fld 1 p.queue (.idx 0 63), fld 1 p.mode (.code [0,1,2]), fld 1 p.start (.code [0,1]),
      fld 4 p.window (.rng 64 65536), fld 1 p.link (.idx 0 3), fld 8 p.ring (.zero 0xFFF),
      fld 4 p.slots (.pow2 16 16777216), fld 4 p.coalesce (.rng 0 10000)]
    pre := fun v s => pre (ofResultSubscribe v) s, act := fun tk v s => act tk (ofResultSubscribe v) s }

def ofResultUnsubscribe (v : Vals) : PResultUnsubscribe := ⟨vN v 0⟩
def mkResultUnsubscribe (p : PResultUnsubscribe) (act : Ticket → PResultUnsubscribe → State → Res) (pre : PResultUnsubscribe → State → Option (Nat × List RV) := fun _ _ => none) : Cmd :=
  { opcode := 0x0804, legal := stAll, owner := false, ats := false, cls := .r
    flds := fun _ => [fld 1 p.queue (.idx 0 63)]
    pre := fun v s => pre (ofResultUnsubscribe v) s, act := fun tk v s => act tk (ofResultUnsubscribe v) s }

def ofResultRead (v : Vals) : PResultRead := ⟨vN v 0, vN v 1⟩
def mkResultRead (p : PResultRead) (act : Ticket → PResultRead → State → Res) (pre : PResultRead → State → Option (Nat × List RV) := fun _ _ => none) : Cmd :=
  { opcode := 0x0805, legal := stAll, owner := false, ats := false, cls := .r
    flds := fun _ => [fld 1 p.queue (.idx 0 63), fld 2 p.count (.rng 1 511)]
    pre := fun v s => pre (ofResultRead v) s, act := fun tk v s => act tk (ofResultRead v) s }

def ofResultAdvance (v : Vals) : PResultAdvance := ⟨vN v 0, vN v 1⟩
def mkResultAdvance (p : PResultAdvance) (act : Ticket → PResultAdvance → State → Res) (pre : PResultAdvance → State → Option (Nat × List RV) := fun _ _ => none) : Cmd :=
  { opcode := 0x0806, legal := stAll, owner := false, ats := false, cls := .r
    flds := fun _ => [fld 1 p.queue (.idx 0 63), fld 8 p.index (.any)]
    pre := fun v s => pre (ofResultAdvance v) s, act := fun tk v s => act tk (ofResultAdvance v) s }

def ofResultStatus (v : Vals) : PResultStatus := ⟨vN v 0⟩
def mkResultStatus (p : PResultStatus) (act : Ticket → PResultStatus → State → Res) (pre : PResultStatus → State → Option (Nat × List RV) := fun _ _ => none) : Cmd :=
  { opcode := 0x0807, legal := stAll, owner := false, ats := false, cls := .r
    flds := fun _ => [fld 1 p.queue (.idx 0 63)]
    pre := fun v s => pre (ofResultStatus v) s, act := fun tk v s => act tk (ofResultStatus v) s }

def ofTileInfo (v : Vals) : PTileInfo := ⟨vN v 0⟩
def mkTileInfo (p : PTileInfo) (act : Ticket → PTileInfo → State → Res) (pre : PTileInfo → State → Option (Nat × List RV) := fun _ _ => none) : Cmd :=
  { opcode := 0x0808, legal := stAll, owner := false, ats := false, cls := .r
    flds := fun _ => [fld 8 p.handle (.any)]
    pre := fun v s => pre (ofTileInfo v) s, act := fun tk v s => act tk (ofTileInfo v) s }

def ofTileFetch (v : Vals) : PTileFetch := ⟨vN v 0, vN v 1, vN v 2⟩
def mkTileFetch (p : PTileFetch) (act : Ticket → PTileFetch → State → Res) (pre : PTileFetch → State → Option (Nat × List RV) := fun _ _ => none) : Cmd :=
  { opcode := 0x0809, legal := stAll, owner := false, ats := false, cls := .r
    flds := fun _ => [fld 8 p.handle (.any), fld 4 p.offset (.any), fld 4 p.length (.stp 4 65536 4)]
    pre := fun v s => pre (ofTileFetch v) s, act := fun tk v s => act tk (ofTileFetch v) s }

def mkResCountersClear (act : Ticket → State → Res) (pre : State → Option (Nat × List RV) := fun _ => none) : Cmd :=
  { opcode := 0x080A, legal := stAll, owner := true, ats := false, cls := .r
    flds := fun _ => [], pre := fun _ s => pre s, act := fun tk _ s => act tk s }

/-! ## The marking commands (R388) -/

def ofMrkHeadConfig (v : Vals) : PMrkHeadConfig := ⟨vN v 0, vN v 1, vN v 2, vI v 3, vI v 4, vI v 5, vI v 6, vN v 7, vN v 8, vN v 9, vN v 10, vN v 11, vN v 12, vN v 13, vNs v 14, vN v 15⟩
def mkMrkHeadConfig (p : PMrkHeadConfig) (act : Ticket → PMrkHeadConfig → State → Res) (pre : PMrkHeadConfig → State → Option (Nat × List RV) := fun _ _ => none) : Cmd :=
  { opcode := 0x0901, legal := stSC, owner := true, ats := false, cls := .c
    flds := fun _ => [fld 1 p.head (.mhead), fld 2 p.nozzles (.rng 1 1024), fld 4 p.pitch (.rng 1000 10000000),
      fldI 8 p.x0 (.any), fldI 8 p.lo (.any), fldI 8 p.hi (.any), fldI 8 p.mh (.any), fld 4 p.ph (.rng 1000 10000000),
      fld 4 p.fmax (.rng 1 40000), fld 4 p.busKhz (.rng 25000 200000), fld 4 p.latchW (.rng 20 500),
      fld 4 p.wMain (.rng 100 1000000), fld 4 p.enSettle (.rng 0 100), fld 1 p.rows (.rng 1 4),
      flds 1 p.d (.rng 0 63), fld 4 p.ring (.pow2 4096 1048576)]
    pre := fun v s => pre (ofMrkHeadConfig v) s, act := fun tk v s => act tk (ofMrkHeadConfig v) s }

def ofMrkRemapLoad (v : Vals) : PMrkRemapLoad := ⟨vN v 0, vN v 1, vN v 2, vNs v 3⟩
def mkMrkRemapLoad (p : PMrkRemapLoad) (act : Ticket → PMrkRemapLoad → State → Res) (pre : PMrkRemapLoad → State → Option (Nat × List RV) := fun _ _ => none) : Cmd :=
  { opcode := 0x0902, legal := stSC, owner := true, ats := false, cls := .c
    flds := fun _ => [fld 1 p.head (.mhead), fld 2 p.first (.any), fld 2 p.count (.idx 1 1024), flds 2 p.data (.bulk p.count)]
    pre := fun v s => pre (ofMrkRemapLoad v) s, act := fun tk v s => act tk (ofMrkRemapLoad v) s }

def ofMrkPreheat (v : Vals) : PMrkPreheat := ⟨vN v 0, vN v 1, vNs v 2, vN v 3, vN v 4, vI v 5, vN v 6⟩
def mkMrkPreheat (p : PMrkPreheat) (act : Ticket → PMrkPreheat → State → Res) (pre : PMrkPreheat → State → Option (Nat × List RV) := fun _ _ => none) : Cmd :=
  { opcode := 0x0903, legal := stSCRun, owner := true, ats := true, cls := .s
    flds := fun s => [fld 1 p.head (.mhead), fld 1 p.count (.rng 0 4), flds 4 p.w (.rng 50 1000),
      fld 4 p.gap (.rng 50 1000), fld 4 p.adv (.rng 0 (headPh s p.head)), fldI 4 p.tref (.any),
      fld 4 p.tspan (.rng 100 10000)]
    pre := fun v s => pre (ofMrkPreheat v) s, act := fun tk v s => act tk (ofMrkPreheat v) s }

def ofMrkThermal (v : Vals) : PMrkThermal := ⟨vN v 0, vI v 1, vN v 2, vN v 3, vN v 4, vN v 5⟩
def mkMrkThermal (p : PMrkThermal) (act : Ticket → PMrkThermal → State → Res) (pre : PMrkThermal → State → Option (Nat × List RV) := fun _ _ => none) : Cmd :=
  { opcode := 0x0904, legal := stSCRun, owner := true, ats := true, cls := .s
    flds := fun _ => [fld 1 p.head (.mhead), fldI 4 p.tlim (.any), fld 4 p.hyst (.rng 10 2000),
      fld 4 p.suspend (.rng 1 65535), fld 4 p.tsPeriod (.rng 100 100000), fld 4 p.spiKhz (.rng 100 10000)]
    pre := fun v s => pre (ofMrkThermal v) s, act := fun tk v s => act tk (ofMrkThermal v) s }

def ofMrkStyle (v : Vals) : PMrkStyle := ⟨vNs v 0, vN v 1⟩
def mkMrkStyle (p : PMrkStyle) (act : Ticket → PMrkStyle → State → Res) (pre : PMrkStyle → State → Option (Nat × List RV) := fun _ _ => none) : Cmd :=
  { opcode := 0x0905, legal := stSCRun, owner := true, ats := true, cls := .s
    flds := fun _ => [flds 4 p.dims (.rng 0 1000000000), fld 1 p.kmax (.rng 1 16)]
    pre := fun v s => pre (ofMrkStyle v) s, act := fun tk v s => act tk (ofMrkStyle v) s }

def ofMrkLineMode (v : Vals) : PMrkLineMode := ⟨vN v 0, vN v 1, vN v 2, vN v 3, vN v 4, vN v 5⟩
def mkMrkLineMode (p : PMrkLineMode) (act : Ticket → PMrkLineMode → State → Res) (pre : PMrkLineMode → State → Option (Nat × List RV) := fun _ _ => none) : Cmd :=
  { opcode := 0x0906, legal := stSC, owner := true, ats := false, cls := .c
    flds := fun _ => [fld 1 p.mode (.code [0,1]), fld 2 p.low (.rng 16 240),
      fld 2 p.high (.rng ((clampI 16 240 p.low) + 16) 255), fld 1 p.slowPct (.rng 50 100),
      fld 4 p.stopMs (.rng 100 60000), fld 4 p.revMargin (.rng 0 1000000000)]
    pre := fun v s => pre (ofMrkLineMode v) s, act := fun tk v s => act tk (ofMrkLineMode v) s }

def ofMrkHeadMode (v : Vals) : PMrkHeadMode := ⟨vN v 0, vN v 1⟩
def mkMrkHeadMode (p : PMrkHeadMode) (act : Ticket → PMrkHeadMode → State → Res) (pre : PMrkHeadMode → State → Option (Nat × List RV) := fun _ _ => none) : Cmd :=
  { opcode := 0x0907, legal := stCRun, owner := true, ats := true, cls := .s
    flds := fun _ => [fld 1 p.head (.mhead), fld 1 p.mode (.code [0,1,2])]
    pre := fun v s => pre (ofMrkHeadMode v) s, act := fun tk v s => act tk (ofMrkHeadMode v) s }

def ofMrkOverlap (v : Vals) : PMrkOverlap := ⟨vN v 0, vN v 1, vI v 2⟩
def mkMrkOverlap (p : PMrkOverlap) (act : Ticket → PMrkOverlap → State → Res) (pre : PMrkOverlap → State → Option (Nat × List RV) := fun _ _ => none) : Cmd :=
  { opcode := 0x0908, legal := stSC, owner := true, ats := false, cls := .c
    flds := fun _ => [fld 1 p.head (.mhead), fld 1 p.neighbour (.mheadOrNone), fldI 2 p.dn (.rng (-1023) 1023)]
    pre := fun v s => pre (ofMrkOverlap v) s, act := fun tk v s => act tk (ofMrkOverlap v) s }

def ofMrkServicePattern (v : Vals) : PMrkServicePattern := ⟨vN v 0, vNs v 1⟩
def mkMrkServicePattern (p : PMrkServicePattern) (act : Ticket → PMrkServicePattern → State → Res) (pre : PMrkServicePattern → State → Option (Nat × List RV) := fun _ _ => none) : Cmd :=
  { opcode := 0x0909, legal := stCRun, owner := true, ats := false, cls := .t
    flds := fun _ => [fld 1 p.head (.mhead), flds 1 p.bitmap (.any)]
    pre := fun v s => pre (ofMrkServicePattern v) s, act := fun tk v s => act tk (ofMrkServicePattern v) s }

def ofMrkServiceFire (v : Vals) : PMrkServiceFire := ⟨vN v 0, vN v 1, vN v 2, vN v 3⟩
def mkMrkServiceFire (p : PMrkServiceFire) (act : Ticket → PMrkServiceFire → State → Res) (pre : PMrkServiceFire → State → Option (Nat × List RV) := fun _ _ => none) : Cmd :=
  { opcode := 0x090A, legal := stCRun, owner := true, ats := false, cls := .d
    flds := fun s => [fld 1 p.head (.mhead), fld 1 p.pattern (.code [0,1]), fld 4 p.rate (.rng 1 (headFmax s p.head)), fld 4 p.lines (.rng 1 1000000)]
    pre := fun v s => pre (ofMrkServiceFire v) s, act := fun tk v s => act tk (ofMrkServiceFire v) s }

def ofMrkVerifyGeometry (v : Vals) : PMrkVerifyGeometry := ⟨vN v 0, vI v 1, vN v 2, vI v 3, vN v 4⟩
def mkMrkVerifyGeometry (p : PMrkVerifyGeometry) (act : Ticket → PMrkVerifyGeometry → State → Res) (pre : PMrkVerifyGeometry → State → Option (Nat × List RV) := fun _ _ => none) : Cmd :=
  { opcode := 0x090B, legal := stSC, owner := true, ats := false, cls := .c
    flds := fun _ => [fld 1 p.stream (.stream), fldI 8 p.cd0 (.any), fld 4 p.pcd (.any), fldI 8 p.omd (.any), fld 4 p.takeoverMax (.any)]
    pre := fun v s => pre (ofMrkVerifyGeometry v) s, act := fun tk v s => act tk (ofMrkVerifyGeometry v) s }

def ofMrkTestPrint (v : Vals) : PMrkTestPrint := ⟨vN v 0, vI v 1, vN v 2, vN v 3⟩
def mkMrkTestPrint (p : PMrkTestPrint) (act : Ticket → PMrkTestPrint → State → Res) (pre : PMrkTestPrint → State → Option (Nat × List RV) := fun _ _ => none) : Cmd :=
  { opcode := 0x090C, legal := [.armed, .running], owner := true, ats := true, cls := .d
    flds := fun _ => [fld 1 p.head (.mhead), fldI 8 p.md (.any), fld 2 p.s (.rng 1 256), fld 1 p.r (.rng 1 16)]
    pre := fun v s => pre (ofMrkTestPrint v) s, act := fun tk v s => act tk (ofMrkTestPrint v) s }

def ofMrkDotRead (v : Vals) : PMrkDotRead := ⟨vN v 0, vN v 1, vN v 2⟩
def mkMrkDotRead (p : PMrkDotRead) (act : Ticket → PMrkDotRead → State → Res) (pre : PMrkDotRead → State → Option (Nat × List RV) := fun _ _ => none) : Cmd :=
  { opcode := 0x090D, legal := stAll, owner := false, ats := false, cls := .r
    flds := fun _ => [fld 1 p.head (.mhead), fld 2 p.first (.any), fld 2 p.count (.rng 1 128)]
    pre := fun v s => pre (ofMrkDotRead v) s, act := fun tk v s => act tk (ofMrkDotRead v) s }

def ofMrkCalRead (v : Vals) : PMrkCalRead := ⟨vN v 0, vN v 1⟩
def mkMrkCalRead (p : PMrkCalRead) (act : Ticket → PMrkCalRead → State → Res) (pre : PMrkCalRead → State → Option (Nat × List RV) := fun _ _ => none) : Cmd :=
  { opcode := 0x090E, legal := stAll, owner := false, ats := false, cls := .r
    flds := fun _ => [fld 1 p.head (.mhead), fld 1 p.which (.code [0,1])]
    pre := fun v s => pre (ofMrkCalRead v) s, act := fun tk v s => act tk (ofMrkCalRead v) s }

def ofMrkCalSet (v : Vals) : PMrkCalSet := ⟨vNs v 0⟩
def mkMrkCalSet (p : PMrkCalSet) (act : Ticket → PMrkCalSet → State → Res) (pre : PMrkCalSet → State → Option (Nat × List RV) := fun _ _ => none) : Cmd :=
  { opcode := 0x090F, legal := stSCRun, owner := true, ats := true, cls := .d
    flds := fun _ => [flds 1 p.block (.named (if 8 ≤ nth p.block 0 ∧ nth p.block 0 < 16 then some (nth p.block 0) else none) .any)]
    pre := fun v s => pre (ofMrkCalSet v) s, act := fun tk v s => act tk (ofMrkCalSet v) s }

def ofMrkCalAccept (v : Vals) : PMrkCalAccept := ⟨vN v 0⟩
def mkMrkCalAccept (p : PMrkCalAccept) (act : Ticket → PMrkCalAccept → State → Res) (pre : PMrkCalAccept → State → Option (Nat × List RV) := fun _ _ => none) : Cmd :=
  { opcode := 0x0910, legal := stSCRun, owner := true, ats := true, cls := .d
    flds := fun _ => [fld 1 p.head (.mhead)]
    pre := fun v s => pre (ofMrkCalAccept v) s, act := fun tk v s => act tk (ofMrkCalAccept v) s }

def ofMrkCalSave (v : Vals) : PMrkCalSave := ⟨vN v 0⟩
def mkMrkCalSave (p : PMrkCalSave) (act : Ticket → PMrkCalSave → State → Res) (pre : PMrkCalSave → State → Option (Nat × List RV) := fun _ _ => none) : Cmd :=
  { opcode := 0x0911, legal := stSCRun, owner := true, ats := false, cls := .d
    flds := fun _ => [fld 2 p.heads (.mheadMask)]
    pre := fun v s => pre (ofMrkCalSave v) s, act := fun tk v s => act tk (ofMrkCalSave v) s }

def ofMrkStatus (v : Vals) : PMrkStatus := ⟨vN v 0⟩
def mkMrkStatus (p : PMrkStatus) (act : Ticket → PMrkStatus → State → Res) (pre : PMrkStatus → State → Option (Nat × List RV) := fun _ _ => none) : Cmd :=
  { opcode := 0x0912, legal := stAll, owner := false, ats := false, cls := .r
    flds := fun _ => [fld 1 p.head (.mhead)]
    pre := fun v s => pre (ofMrkStatus v) s, act := fun tk v s => act tk (ofMrkStatus v) s }

def ofMrkMissRead (v : Vals) : PMrkMissRead := ⟨vN v 0, vN v 1⟩
def mkMrkMissRead (p : PMrkMissRead) (act : Ticket → PMrkMissRead → State → Res) (pre : PMrkMissRead → State → Option (Nat × List RV) := fun _ _ => none) : Cmd :=
  { opcode := 0x0913, legal := stAll, owner := false, ats := false, cls := .r
    flds := fun _ => [fld 8 p.first (.any), fld 2 p.count (.rng 1 40)]
    pre := fun v s => pre (ofMrkMissRead v) s, act := fun tk v s => act tk (ofMrkMissRead v) s }

def mkMrkCountersClear (act : Ticket → State → Res) (pre : State → Option (Nat × List RV) := fun _ => none) : Cmd :=
  { opcode := 0x0914, legal := stAll, owner := true, ats := false, cls := .r
    flds := fun _ => [], pre := fun _ s => pre s, act := fun tk _ s => act tk s }

/-! ## The area and colour commands (R421) -/

def ofAreaStream (v : Vals) : PAreaStream := ⟨vN v 0, vN v 1, vN v 2, vN v 3, vN v 4, vN v 5, vN v 6, vN v 7, vN v 8⟩
def mkAreaStream (p : PAreaStream) (act : Ticket → PAreaStream → State → Res) (pre : PAreaStream → State → Option (Nat × List RV) := fun _ _ => none) : Cmd :=
  { opcode := 0x0A01, legal := stSC, owner := true, ats := false, cls := .c
    flds := fun s => [fld 1 p.ctx (.idx 0 15), fld 1 p.enable (.code [0,1]), fld 1 p.stream (.stream),
      fld 1 p.cfa (.code [0,1,2,3,4]), fld 2 p.w (.stp 2 12288 2), fld 2 p.h (.stp 2 8192 2),
      fld 4 p.f (.rng 1 (areaFmax s p.ctx (clampStep 2 12288 2 p.w) (clampStep 2 8192 2 p.h) 2000000)),
      fld 1 p.role (.code [0,1]), fld 1 p.bk (.rng 1 16)]
    pre := fun v s => pre (ofAreaStream v) s, act := fun tk v s => act tk (ofAreaStream v) s }

def ofClpBlack (v : Vals) : PClpBlack := ⟨vN v 0, vN v 1, vNs v 2⟩
def mkClpBlack (p : PClpBlack) (act : Ticket → PClpBlack → State → Res) (pre : PClpBlack → State → Option (Nat × List RV) := fun _ _ => none) : Cmd :=
  { opcode := 0x0A02, legal := stSCRun, owner := true, ats := false, cls := .t
    flds := fun _ => [fld 1 p.ctx (.idx 0 15), fld 1 p.bank (.code [0,1]), flds 2 p.bl (.any)]
    pre := fun v s => pre (ofClpBlack v) s, act := fun tk v s => act tk (ofClpBlack v) s }

def ofClpDefectLoad (v : Vals) : PClpDefectLoad := ⟨vN v 0, vN v 1, vN v 2, vN v 3, vN v 4, vNs v 5⟩
def mkClpDefectLoad (p : PClpDefectLoad) (act : Ticket → PClpDefectLoad → State → Res) (pre : PClpDefectLoad → State → Option (Nat × List RV) := fun _ _ => none) : Cmd :=
  { opcode := 0x0A03, legal := stSCRun, owner := true, ats := false, cls := .t
    flds := fun _ => [fld 1 p.ctx (.idx 0 15), fld 1 p.bank (.code [0,1]), fld 4 p.len (.rng 0 65536),
      fld 4 p.first (.any), fld 4 p.count (.idx 1 8192), flds 2 p.data (.bulk (2 * p.count))]
    pre := fun v s => pre (ofClpDefectLoad v) s, act := fun tk v s => act tk (ofClpDefectLoad v) s }

def ofClpColour (v : Vals) : PClpColour := ⟨vN v 0, vN v 1, vNs v 2, vIs v 3, vN v 4⟩
def mkClpColour (p : PClpColour) (act : Ticket → PClpColour → State → Res) (pre : PClpColour → State → Option (Nat × List RV) := fun _ _ => none) : Cmd :=
  { opcode := 0x0A04, legal := stSCRun, owner := true, ats := false, cls := .t
    flds := fun _ => [fld 1 p.ctx (.idx 0 15), fld 1 p.bank (.code [0,1]), flds 2 p.wb (.any), fldsI 2 p.mat (.any),
      fld 1 p.lut (.code [0,1,2,3,255])]
    pre := fun v s => pre (ofClpColour v) s, act := fun tk v s => act tk (ofClpColour v) s }

def ofClpLutLoad (v : Vals) : PClpLutLoad := ⟨vN v 0, vN v 1, vN v 2, vNs v 3⟩
def mkClpLutLoad (p : PClpLutLoad) (act : Ticket → PClpLutLoad → State → Res) (pre : PClpLutLoad → State → Option (Nat × List RV) := fun _ _ => none) : Cmd :=
  { opcode := 0x0A05, legal := stSCRun, owner := true, ats := false, cls := .t
    flds := fun _ => [fld 1 p.slot (.idx 0 3), fld 4 p.first (.idx 0 274624), fld 4 p.count (.idx 1 10922), flds 2 p.data (.bulk (3 * p.count))]
    pre := fun v s => pre (ofClpLutLoad v) s, act := fun tk v s => act tk (ofClpLutLoad v) s }

def ofClpBankSelect (v : Vals) : PClpBankSelect := ⟨vN v 0, vN v 1⟩
def mkClpBankSelect (p : PClpBankSelect) (act : Ticket → PClpBankSelect → State → Res) (pre : PClpBankSelect → State → Option (Nat × List RV) := fun _ _ => none) : Cmd :=
  { opcode := 0x0A06, legal := [.standby, .configured, .armed], owner := true, ats := true, cls := .s
    flds := fun _ => [fld 1 p.ctx (.idx 0 15), fld 1 p.bank (.code [0,1])]
    pre := fun v s => pre (ofClpBankSelect v) s, act := fun tk v s => act tk (ofClpBankSelect v) s }

def ofHeadConfig (v : Vals) : PHeadConfig := ⟨vN v 0, vN v 1, vN v 2, vNs v 3, vNs v 4, vN v 5, vN v 6, vN v 7, vN v 8, vN v 9, vN v 10⟩
def mkHeadConfig (p : PHeadConfig) (act : Ticket → PHeadConfig → State → Res) (pre : PHeadConfig → State → Option (Nat × List RV) := fun _ _ => none) : Cmd :=
  { opcode := 0x0A07, legal := stSC, owner := true, ats := false, cls := .c
    flds := fun _ => [fld 1 p.head (.idx 0 3), fld 1 p.ctx (.idx 0 15), fld 1 p.tap (.code [0,1,2]),
      flds 2 p.crop (.list [.stp 0 65534 2, .stp 0 65534 2, .stp 2 12288 2, .stp 2 8192 2]),
      flds 2 p.out (.list (outRules p.tap (nthI (p.crop.map Int.ofNat) 2) (nthI (p.crop.map Int.ofNat) 3))),
      fld 1 p.fmt (.code [0,1,2,3,4]), fld 1 p.n (.code [8,10,12,16]), fld 1 p.range (.code [0,1]),
      fld 1 p.enc (.code [0,1,2,3]), fld 1 p.dest (.code [0,1,2,3,4]), fld 1 p.destIdx (.any)]
    pre := fun v s => pre (ofHeadConfig v) s, act := fun tk v s => act tk (ofHeadConfig v) s }

def ofHeadKernel (v : Vals) : PHeadKernel := ⟨vN v 0, vN v 1, vN v 2, vIs v 3⟩
def mkHeadKernel (p : PHeadKernel) (act : Ticket → PHeadKernel → State → Res) (pre : PHeadKernel → State → Option (Nat × List RV) := fun _ _ => none) : Cmd :=
  { opcode := 0x0A08, legal := stSC, owner := true, ats := false, cls := .c
    flds := fun _ => [fld 1 p.head (.idx 0 3), fld 1 p.axis (.code [0,1]), fld 1 p.source (.code [0,1]), fldsI 2 p.table (.bulk 512)]
    pre := fun v s => pre (ofHeadKernel v) s, act := fun tk v s => act tk (ofHeadKernel v) s }

def ofHeadCurve (v : Vals) : PHeadCurve := ⟨vN v 0, vN v 1, vN v 2, vN v 3, vNs v 4⟩
def mkHeadCurve (p : PHeadCurve) (act : Ticket → PHeadCurve → State → Res) (pre : PHeadCurve → State → Option (Nat × List RV) := fun _ _ => none) : Cmd :=
  { opcode := 0x0A09, legal := stSCRun, owner := true, ats := true, cls := .s
    flds := fun _ => [fld 1 p.head (.idx 0 3), fld 1 p.ch (.code [0,1,2,3]), fld 1 p.preset (.code [0,1,2,3,4]),
      fld 2 p.peak (.rng 100 10000), flds 2 p.table (.bulk (if p.preset = 0 then 4096 else 0))]
    pre := fun v s => pre (ofHeadCurve v) s, act := fun tk v s => act tk (ofHeadCurve v) s }

def ofSt2110Config (v : Vals) : PSt2110Config := ⟨vN v 0, vN v 1, vN v 2, vNs v 3, vN v 4, vN v 5, vN v 6, vN v 7, vN v 8⟩
def mkSt2110Config (p : PSt2110Config) (act : Ticket → PSt2110Config → State → Res) (pre : PSt2110Config → State → Option (Nat × List RV) := fun _ _ => none) : Cmd :=
  { opcode := 0x0A0A, legal := stSC, owner := true, ats := false, cls := .c
    flds := fun _ => [fld 1 p.sender (.idx 0 1), fld 1 p.iface (.code [0,1]), fld 1 p.ipVer (.code [4,6]),
      flds 1 p.dst (.any), fld 2 p.dport (.any), fld 2 p.sport (.any), fld 1 p.ptype (.rng 96 127),
      fld 4 p.ssrc (.any), fld 1 p.ttl (.any)]
    pre := fun v s => pre (ofSt2110Config v) s, act := fun tk v s => act tk (ofSt2110Config v) s }

def ofSt2110Sdp (v : Vals) : PSt2110Sdp := ⟨vN v 0, vN v 1, vN v 2⟩
def mkSt2110Sdp (p : PSt2110Sdp) (act : Ticket → PSt2110Sdp → State → Res) (pre : PSt2110Sdp → State → Option (Nat × List RV) := fun _ _ => none) : Cmd :=
  { opcode := 0x0A0B, legal := stAll, owner := false, ats := false, cls := .r
    flds := fun _ => [fld 1 p.sender (.idx 0 1), fld 4 p.offset (.any), fld 4 p.length (.rng 4 4096)]
    pre := fun v s => pre (ofSt2110Sdp v) s, act := fun tk v s => act tk (ofSt2110Sdp v) s }

def ofHostRing (v : Vals) : PHostRing := ⟨vN v 0, vN v 1, vN v 2, vN v 3, vN v 4⟩
def mkHostRing (p : PHostRing) (act : Ticket → PHostRing → State → Res) (pre : PHostRing → State → Option (Nat × List RV) := fun _ _ => none) : Cmd :=
  { opcode := 0x0A0C, legal := stSC, owner := true, ats := false, cls := .c
    flds := fun _ => [fld 1 p.head (.idx 0 3), fld 1 p.link (.idx 0 3), fld 8 p.addr (.zero 0xFFF),
      fld 4 p.slots (.pow2 2 4096), fld 4 p.bytes (.stp 4096 4294963200 4096)]
    pre := fun v s => pre (ofHostRing v) s, act := fun tk v s => act tk (ofHostRing v) s }

def ofLiveView (v : Vals) : PLiveView := ⟨vN v 0, vN v 1, vNs v 2, vN v 3, vN v 4, vN v 5, vN v 6, vN v 7, vN v 8, vN v 9⟩
def mkLiveView (p : PLiveView) (act : Ticket → PLiveView → State → Res) (pre : PLiveView → State → Option (Nat × List RV) := fun _ _ => none) : Cmd :=
  { opcode := 0x0A0D, legal := stSC, owner := true, ats := false, cls := .c
    flds := fun s => [fld 1 p.ctx (.idx 0 15), fld 1 p.enable (.code [0,1]), flds 1 p.planes (.code [0,1,2,3,255]),
      fld 1 p.dc (.rng 1 64), fld 1 p.dm (.rng 1 64), fld 2 p.hv (.stp 64 4320 2),
      fld 4 p.f (.rng 1 (areaFmax s p.ctx (viewWidth s (clampI 1 64 p.dc).toNat) (clampStep 64 4320 2 p.hv) 60000)),
      fld 1 p.orient (.code [0,1]), fld 1 p.role (.code [0,1]), fld 1 p.bk (.rng 1 16)]
    pre := fun v s => pre (ofLiveView v) s, act := fun tk v s => act tk (ofLiveView v) s }

def ofClpStatus (v : Vals) : PClpStatus := ⟨vN v 0⟩
def mkClpStatus (p : PClpStatus) (act : Ticket → PClpStatus → State → Res) (pre : PClpStatus → State → Option (Nat × List RV) := fun _ _ => none) : Cmd :=
  { opcode := 0x0A0E, legal := stAll, owner := false, ats := false, cls := .r
    flds := fun _ => [fld 1 p.ctx (.idx 0 15)]
    pre := fun v s => pre (ofClpStatus v) s, act := fun tk v s => act tk (ofClpStatus v) s }

def mkClpCountersClear (act : Ticket → State → Res) (pre : State → Option (Nat × List RV) := fun _ => none) : Cmd :=
  { opcode := 0x0A0F, legal := stAll, owner := true, ats := false, cls := .r
    flds := fun _ => [], pre := fun _ s => pre s, act := fun tk _ s => act tk s }

/-! ## The HEVC commands (R450) -/

def ofVcuContext (v : Vals) : PVcuContext := ⟨vN v 0, vN v 1, vN v 2, vN v 3, vN v 4, vN v 5, vN v 6, vN v 7, vNs v 8, vN v 9⟩
def mkVcuContext (p : PVcuContext) (act : Ticket → PVcuContext → State → Res) (pre : PVcuContext → State → Option (Nat × List RV) := fun _ _ => none) : Cmd :=
  { opcode := 0x0B01, legal := stSC, owner := true, ats := false, cls := .c
    flds := fun s => [fld 1 p.ctx (.idx 0 63), fld 1 p.kind (.code [0,1,2,3]), fld 1 p.profile (.code [0,1,2]),
      fld 2 p.w (.stp 64 8192 2), fld 2 p.h (.stp 64 4352 2),
      fld 4 p.f (.rng 1 (vcuFmax s p.ctx p.kind p.profile (clampStep 64 8192 2 p.w) (clampStep 64 4352 2 p.h))),
      fld 1 p.head (.idx 0 3), fld 1 p.qin (.rng 1 8), flds 1 p.colour (.any), fld 1 p.full (.code [0,1])]
    pre := fun v s => pre (ofVcuContext v) s, act := fun tk v s => act tk (ofVcuContext v) s }

def ofVcuCoding (v : Vals) : PVcuCoding := ⟨vN v 0, vN v 1, vN v 2, vN v 3, vN v 4, vN v 5, vN v 6⟩
def mkVcuCoding (p : PVcuCoding) (act : Ticket → PVcuCoding → State → Res) (pre : PVcuCoding → State → Option (Nat × List RV) := fun _ _ => none) : Cmd :=
  { opcode := 0x0B02, legal := stSC, owner := true, ats := false, cls := .c
    flds := fun _ => [fld 1 p.ctx (.idx 0 63), fld 1 p.struct (.code [0,1,2,3]), fld 4 p.g (.rng 1 65535),
      fld 1 p.mini (.code [2,4,8]), fld 1 p.rs (.rng 1 68), fld 1 p.sao (.code [0,1]), fld 1 p.stats (.code [0,1])]
    pre := fun v s => pre (ofVcuCoding v) s, act := fun tk v s => act tk (ofVcuCoding v) s }

def ofVcuRate (v : Vals) : PVcuRate := ⟨vN v 0, vN v 1, vN v 2, vN v 3, vIs v 4, vIs v 5⟩
def mkVcuRate (p : PVcuRate) (act : Ticket → PVcuRate → State → Res) (pre : PVcuRate → State → Option (Nat × List RV) := fun _ _ => none) : Cmd :=
  { opcode := 0x0B03, legal := stSCRun, owner := true, ats := true, cls := .s
    flds := fun s => [fld 1 p.ctx (.idx 0 63), fld 1 p.mode (.code [0,1,2]), fld 4 p.rate (.rng 100 480000),
      fld 1 p.iw (.rng 1 16), fldsI 1 p.qp (.rng (qpLo s p.ctx) 51), fldsI 1 p.qpLim (.rng (qpLo s p.ctx) 51)]
    pre := fun v s => pre (ofVcuRate v) s, act := fun tk v s => act tk (ofVcuRate v) s }

def ofVcuOutput (v : Vals) : PVcuOutput := ⟨vN v 0, vN v 1, vN v 2, vN v 3, vN v 4, vN v 5, vN v 6⟩
def mkVcuOutput (p : PVcuOutput) (act : Ticket → PVcuOutput → State → Res) (pre : PVcuOutput → State → Option (Nat × List RV) := fun _ _ => none) : Cmd :=
  { opcode := 0x0B04, legal := stSC, owner := true, ats := false, cls := .c
    flds := fun s => [fld 1 p.ctx (.idx 0 63), fld 4 p.mib (.rng 1 1024), fld 1 p.mirror (.code [0,1]),
      fld 1 p.link (.idx 0 3), fld 8 p.addr (.zero 0xFFF), fld 4 p.size (vcuSizeRule s p.ctx),
      fld 4 p.slotBytes (.stp 0 4294963200 4096)]
    pre := fun v s => pre (ofVcuOutput v) s, act := fun tk v s => act tk (ofVcuOutput v) s }

def ofVcuForceIrap (v : Vals) : PVcuForceIrap := ⟨vN v 0⟩
def mkVcuForceIrap (p : PVcuForceIrap) (act : Ticket → PVcuForceIrap → State → Res) (pre : PVcuForceIrap → State → Option (Nat × List RV) := fun _ _ => none) : Cmd :=
  { opcode := 0x0B05, legal := stRun, owner := true, ats := true, cls := .d
    flds := fun _ => [fld 1 p.ctx (.idx 0 63)]
    pre := fun v s => pre (ofVcuForceIrap v) s, act := fun tk v s => act tk (ofVcuForceIrap v) s }

def ofVcuEncSubmit (v : Vals) : PVcuEncSubmit := ⟨vN v 0, vN v 1, vN v 2, vN v 3, vN v 4, vN v 5⟩
def mkVcuEncSubmit (p : PVcuEncSubmit) (act : Ticket → PVcuEncSubmit → State → Res) (pre : PVcuEncSubmit → State → Option (Nat × List RV) := fun _ _ => none) : Cmd :=
  { opcode := 0x0B06, legal := [.armed, .running], owner := true, ats := false, cls := .d
    flds := fun _ => [fld 1 p.ctx (.idx 0 63), fld 1 p.link (.idx 0 3), fld 8 p.addr (.any), fld 8 p.frame (.any),
      fld 8 p.sec (.any), fld 4 p.ns (.any)]
    pre := fun v s => pre (ofVcuEncSubmit v) s, act := fun tk v s => act tk (ofVcuEncSubmit v) s }

def ofVcuDecWrite (v : Vals) : PVcuDecWrite := ⟨vN v 0, vN v 1, vNs v 2⟩
def mkVcuDecWrite (p : PVcuDecWrite) (act : Ticket → PVcuDecWrite → State → Res) (pre : PVcuDecWrite → State → Option (Nat × List RV) := fun _ _ => none) : Cmd :=
  { opcode := 0x0B07, legal := stCRun, owner := true, ats := false, cls := .d
    flds := fun _ => [fld 1 p.ctx (.idx 0 63), fld 4 p.length (.idx 1 65536), flds 1 p.data (.bulk p.length)]
    pre := fun v s => pre (ofVcuDecWrite v) s, act := fun tk v s => act tk (ofVcuDecWrite v) s }

def ofVcuRead (v : Vals) : PVcuRead := ⟨vN v 0, vN v 1, vN v 2, vN v 3⟩
def mkVcuRead (p : PVcuRead) (act : Ticket → PVcuRead → State → Res) (pre : PVcuRead → State → Option (Nat × List RV) := fun _ _ => none) : Cmd :=
  { opcode := 0x0B08, legal := stAll, owner := false, ats := false, cls := .r
    flds := fun _ => [fld 1 p.ctx (.idx 0 63), fld 8 p.seq (.any), fld 4 p.offset (.any), fld 4 p.length (.rng 4 65536)]
    pre := fun v s => pre (ofVcuRead v) s, act := fun tk v s => act tk (ofVcuRead v) s }

def ofVcuStatus (v : Vals) : PVcuStatus := ⟨vN v 0⟩
def mkVcuStatus (p : PVcuStatus) (act : Ticket → PVcuStatus → State → Res) (pre : PVcuStatus → State → Option (Nat × List RV) := fun _ _ => none) : Cmd :=
  { opcode := 0x0B09, legal := stAll, owner := false, ats := false, cls := .r
    flds := fun _ => [fld 1 p.ctx (.idx 0 63)]
    pre := fun v s => pre (ofVcuStatus v) s, act := fun tk v s => act tk (ofVcuStatus v) s }

def mkVcuCountersClear (act : Ticket → State → Res) (pre : State → Option (Nat × List RV) := fun _ => none) : Cmd :=
  { opcode := 0x0B0A, legal := stAll, owner := true, ats := false, cls := .r
    flds := fun _ => [], pre := fun _ s => pre s, act := fun tk _ s => act tk s }

/-! ## The Tombac commands (R487) -/

def ofTbcTileCoding (v : Vals) : PTbcTileCoding := ⟨vN v 0⟩
def mkTbcTileCoding (p : PTbcTileCoding) (act : Ticket → PTbcTileCoding → State → Res) (pre : PTbcTileCoding → State → Option (Nat × List RV) := fun _ _ => none) : Cmd :=
  { opcode := 0x0C01, legal := stSC, owner := true, ats := false, cls := .c
    flds := fun _ => [fld 1 p.effort (.rng 0 7)]
    pre := fun v s => pre (ofTbcTileCoding v) s, act := fun tk v s => act tk (ofTbcTileCoding v) s }

def ofTbcHeadOutput (v : Vals) : PTbcHeadOutput := ⟨vN v 0, vN v 1, vN v 2, vN v 3, vN v 4, vN v 5, vN v 6, vN v 7, vN v 8⟩
def mkTbcHeadOutput (p : PTbcHeadOutput) (act : Ticket → PTbcHeadOutput → State → Res) (pre : PTbcHeadOutput → State → Option (Nat × List RV) := fun _ _ => none) : Cmd :=
  { opcode := 0x0C02, legal := stSC, owner := true, ats := false, cls := .c
    flds := fun _ => [fld 1 p.head (.idx 0 3), fld 1 p.effort (.rng 0 7), fld 1 p.near (.rng 0 15),
      fld 4 p.keyInt (.rng 0 65535), fld 4 p.mib (.rng 16 16384), fld 1 p.mirror (.code [0,1]),
      fld 1 p.link (.idx 0 3), fld 8 p.addr (.zero 0xFFF), fld 4 p.bytes (.stp 1048576 1073741824 4096)]
    pre := fun v s => pre (ofTbcHeadOutput v) s, act := fun tk v s => act tk (ofTbcHeadOutput v) s }

def ofTbcHistory (v : Vals) : PTbcHistory := ⟨vN v 0, vN v 1, vN v 2, vN v 3, vN v 4⟩
def mkTbcHistory (p : PTbcHistory) (act : Ticket → PTbcHistory → State → Res) (pre : PTbcHistory → State → Option (Nat × List RV) := fun _ _ => none) : Cmd :=
  { opcode := 0x0C03, legal := stSC, owner := true, ats := false, cls := .c
    flds := fun _ => [fld 1 p.enable (.code [0,1]), fld 1 p.planes (.rng 1 15), fld 1 p.effort (.rng 0 7),
      fld 4 p.mib (.rng 64 1048576), fld 4 p.stage (.rng 1024 65536)]
    pre := fun v s => pre (ofTbcHistory v) s, act := fun tk v s => act tk (ofTbcHistory v) s }

def ofTbcPoolConfig (v : Vals) : PTbcPoolConfig := ⟨vN v 0⟩
def mkTbcPoolConfig (p : PTbcPoolConfig) (act : Ticket → PTbcPoolConfig → State → Res) (pre : PTbcPoolConfig → State → Option (Nat × List RV) := fun _ _ => none) : Cmd :=
  { opcode := 0x0C04, legal := stSC, owner := true, ats := false, cls := .c
    flds := fun _ => [fld 4 p.mib (.rng 0 65536)]
    pre := fun v s => pre (ofTbcPoolConfig v) s, act := fun tk v s => act tk (ofTbcPoolConfig v) s }

def ofTbcBufWrite (v : Vals) : PTbcBufWrite := ⟨vN v 0, vN v 1, vNs v 2⟩
def mkTbcBufWrite (p : PTbcBufWrite) (act : Ticket → PTbcBufWrite → State → Res) (pre : PTbcBufWrite → State → Option (Nat × List RV) := fun _ _ => none) : Cmd :=
  { opcode := 0x0C05, legal := stSCRun, owner := true, ats := false, cls := .d
    flds := fun _ => [fld 8 p.offset (.any), fld 4 p.length (.idxStep 4 65536 4), flds 1 p.data (.bulk p.length)]
    pre := fun v s => pre (ofTbcBufWrite v) s, act := fun tk v s => act tk (ofTbcBufWrite v) s }

def ofTbcBufRead (v : Vals) : PTbcBufRead := ⟨vN v 0, vN v 1⟩
def mkTbcBufRead (p : PTbcBufRead) (act : Ticket → PTbcBufRead → State → Res) (pre : PTbcBufRead → State → Option (Nat × List RV) := fun _ _ => none) : Cmd :=
  { opcode := 0x0C06, legal := stSCRun, owner := false, ats := false, cls := .r
    flds := fun _ => [fld 8 p.offset (.any), fld 4 p.length (.rng 4 65536)]
    pre := fun v s => pre (ofTbcBufRead v) s, act := fun tk v s => act tk (ofTbcBufRead v) s }

def ofTbcJobSubmit (v : Vals) : PTbcJobSubmit := ⟨vNs v 0⟩
def mkTbcJobSubmit (p : PTbcJobSubmit) (act : Ticket → PTbcJobSubmit → State → Res) (pre : PTbcJobSubmit → State → Option (Nat × List RV) := fun _ _ => none) : Cmd :=
  { opcode := 0x0C07, legal := stSCRun, owner := true, ats := false, cls := .d
    flds := fun _ => [flds 1 p.desc (.any)]
    pre := fun v s => pre (ofTbcJobSubmit v) s, act := fun tk v s => act tk (ofTbcJobSubmit v) s }

def ofTbcJobStatus (v : Vals) : PTbcJobStatus := ⟨vN v 0⟩
def mkTbcJobStatus (p : PTbcJobStatus) (act : Ticket → PTbcJobStatus → State → Res) (pre : PTbcJobStatus → State → Option (Nat × List RV) := fun _ _ => none) : Cmd :=
  { opcode := 0x0C08, legal := stAll, owner := false, ats := false, cls := .r
    flds := fun _ => [fld 4 p.job (.any)]
    pre := fun v s => pre (ofTbcJobStatus v) s, act := fun tk v s => act tk (ofTbcJobStatus v) s }

def ofTbcJobCancel (v : Vals) : PTbcJobCancel := ⟨vN v 0⟩
def mkTbcJobCancel (p : PTbcJobCancel) (act : Ticket → PTbcJobCancel → State → Res) (pre : PTbcJobCancel → State → Option (Nat × List RV) := fun _ _ => none) : Cmd :=
  { opcode := 0x0C09, legal := stSCRun, owner := true, ats := false, cls := .d
    flds := fun _ => [fld 4 p.job (.any)]
    pre := fun v s => pre (ofTbcJobCancel v) s, act := fun tk v s => act tk (ofTbcJobCancel v) s }

def ofTbcRead (v : Vals) : PTbcRead := ⟨vN v 0, vN v 1, vN v 2, vN v 3⟩
def mkTbcRead (p : PTbcRead) (act : Ticket → PTbcRead → State → Res) (pre : PTbcRead → State → Option (Nat × List RV) := fun _ _ => none) : Cmd :=
  { opcode := 0x0C0A, legal := stAll, owner := false, ats := false, cls := .r
    flds := fun _ => [fld 1 p.source (.code [0,1,2,3,4]), fld 8 p.seq (.any), fld 4 p.offset (.any), fld 4 p.length (.rng 4 65536)]
    pre := fun v s => pre (ofTbcRead v) s, act := fun tk v s => act tk (ofTbcRead v) s }

def ofTbcHistoryFind (v : Vals) : PTbcHistoryFind := ⟨vI v 0, vN v 1⟩
def mkTbcHistoryFind (p : PTbcHistoryFind) (act : Ticket → PTbcHistoryFind → State → Res) (pre : PTbcHistoryFind → State → Option (Nat × List RV) := fun _ _ => none) : Cmd :=
  { opcode := 0x0C0B, legal := stAll, owner := false, ats := false, cls := .r
    flds := fun _ => [fldI 8 p.md (.any), fld 8 p.bound (.any)]
    pre := fun v s => pre (ofTbcHistoryFind v) s, act := fun tk v s => act tk (ofTbcHistoryFind v) s }

def mkTbcStatus (act : Ticket → State → Res) (pre : State → Option (Nat × List RV) := fun _ => none) : Cmd :=
  { opcode := 0x0C0C, legal := stAll, owner := false, ats := false, cls := .r
    flds := fun _ => [], pre := fun _ s => pre s, act := fun tk _ s => act tk s }

def mkTbcCountersClear (act : Ticket → State → Res) (pre : State → Option (Nat × List RV) := fun _ => none) : Cmd :=
  { opcode := 0x0C0D, legal := stAll, owner := true, ats := false, cls := .r
    flds := fun _ => [], pre := fun _ s => pre s, act := fun tk _ s => act tk s }

/-! ## The event router commands (R505) -/

def ofEvrChannel (v : Vals) : PEvrChannel := ⟨vN v 0, vN v 1, vN v 2, vN v 3, vN v 4, vN v 5, vNs v 6⟩
def mkEvrChannel (p : PEvrChannel) (act : Ticket → PEvrChannel → State → Res) (pre : PEvrChannel → State → Option (Nat × List RV) := fun _ _ => none) : Cmd :=
  { opcode := 0x0D01, legal := stSC, owner := true, ats := false, cls := .c
    flds := fun _ => [fld 1 p.ch (.any), fld 2 p.source (.named (faSource p.source) .any), fld 1 p.enable (.code [0,1]),
      fld 1 p.loopOk (.code [0,1]), fld 1 p.notify (.code [0,1]), fld 1 p.forks (.rng 0 16), flds 2 p.tasks (.any)]
    pre := fun v s => pre (ofEvrChannel v) s, act := fun tk v s => act tk (ofEvrChannel v) s }

def ofEvrEnable (v : Vals) : PEvrEnable := ⟨vN v 0, vN v 1⟩
def mkEvrEnable (p : PEvrEnable) (act : Ticket → PEvrEnable → State → Res) (pre : PEvrEnable → State → Option (Nat × List RV) := fun _ _ => none) : Cmd :=
  { opcode := 0x0D02, legal := stCRun, owner := true, ats := true, cls := .s
    flds := fun _ => [fld 1 p.ch (.any), fld 1 p.enable (.code [0,1])]
    pre := fun v s => pre (ofEvrEnable v) s, act := fun tk v s => act tk (ofEvrEnable v) s }

def ofEvrTaskMode (v : Vals) : PEvrTaskMode := ⟨vN v 0, vN v 1⟩
def mkEvrTaskMode (p : PEvrTaskMode) (act : Ticket → PEvrTaskMode → State → Res) (pre : PEvrTaskMode → State → Option (Nat × List RV) := fun _ _ => none) : Cmd :=
  { opcode := 0x0D03, legal := stSC, owner := true, ats := false, cls := .c
    flds := fun _ => [fld 2 p.task (.any), fld 1 p.mode (.code [0,1])]
    pre := fun v s => pre (ofEvrTaskMode v) s, act := fun tk v s => act tk (ofEvrTaskMode v) s }

def ofEvrDivider (v : Vals) : PEvrDivider := ⟨vN v 0, vN v 1⟩
def mkEvrDivider (p : PEvrDivider) (act : Ticket → PEvrDivider → State → Res) (pre : PEvrDivider → State → Option (Nat × List RV) := fun _ _ => none) : Cmd :=
  { opcode := 0x0D04, legal := stSC, owner := true, ats := false, cls := .c
    flds := fun _ => [fld 1 p.div (.idx 0 15), fld 4 p.n (.rng 1 16777216)]
    pre := fun v s => pre (ofEvrDivider v) s, act := fun tk v s => act tk (ofEvrDivider v) s }

def ofEvrFire (v : Vals) : PEvrFire := ⟨vN v 0⟩
def mkEvrFire (p : PEvrFire) (act : Ticket → PEvrFire → State → Res) (pre : PEvrFire → State → Option (Nat × List RV) := fun _ _ => none) : Cmd :=
  { opcode := 0x0D05, legal := stCRun, owner := true, ats := true, cls := .d
    flds := fun _ => [fld 1 p.ch (.any)]
    pre := fun v s => pre (ofEvrFire v) s, act := fun tk v s => act tk (ofEvrFire v) s }

def ofEvrStatus (v : Vals) : PEvrStatus := ⟨vN v 0, vN v 1⟩
def mkEvrStatus (p : PEvrStatus) (act : Ticket → PEvrStatus → State → Res) (pre : PEvrStatus → State → Option (Nat × List RV) := fun _ _ => none) : Cmd :=
  { opcode := 0x0D06, legal := stAll, owner := false, ats := false, cls := .r
    flds := fun _ => [fld 1 p.first (.any), fld 2 p.count (.rng 1 256)]
    pre := fun v s => pre (ofEvrStatus v) s, act := fun tk v s => act tk (ofEvrStatus v) s }

def ofEvrTaskStatus (v : Vals) : PEvrTaskStatus := ⟨vN v 0⟩
def mkEvrTaskStatus (p : PEvrTaskStatus) (act : Ticket → PEvrTaskStatus → State → Res) (pre : PEvrTaskStatus → State → Option (Nat × List RV) := fun _ _ => none) : Cmd :=
  { opcode := 0x0D07, legal := stAll, owner := false, ats := false, cls := .r
    flds := fun _ => [fld 2 p.task (.any)]
    pre := fun v s => pre (ofEvrTaskStatus v) s, act := fun tk v s => act tk (ofEvrTaskStatus v) s }

def ofEvrTaskClear (v : Vals) : PEvrTaskClear := ⟨vN v 0⟩
def mkEvrTaskClear (p : PEvrTaskClear) (act : Ticket → PEvrTaskClear → State → Res) (pre : PEvrTaskClear → State → Option (Nat × List RV) := fun _ _ => none) : Cmd :=
  { opcode := 0x0D08, legal := stAll, owner := true, ats := false, cls := .r
    flds := fun _ => [fld 2 p.task (.any)]
    pre := fun v s => pre (ofEvrTaskClear v) s, act := fun tk v s => act tk (ofEvrTaskClear v) s }

def mkEvrCountersClear (act : Ticket → State → Res) (pre : State → Option (Nat × List RV) := fun _ => none) : Cmd :=
  { opcode := 0x0D09, legal := stAll, owner := true, ats := false, cls := .r
    flds := fun _ => [], pre := fun _ s => pre s, act := fun tk _ s => act tk s }

/-! ## The DRAM and DMA commands (R549) -/

def ofDmcLayout (v : Vals) : PDmcLayout := ⟨vN v 0, vN v 1, vN v 2⟩
def mkDmcLayout (p : PDmcLayout) (act : Ticket → PDmcLayout → State → Res) (pre : PDmcLayout → State → Option (Nat × List RV) := fun _ _ => none) : Cmd :=
  { opcode := 0x0E01, legal := stSC, owner := true, ats := false, cls := .d
    flds := fun _ => [fld 4 p.grain (.pow2 256 65536), fld 2 p.mask (.chanMask), fld 2 p.rate (.near [4800,5200,5600,6400])]
    pre := fun v s => pre (ofDmcLayout v) s, act := fun tk v s => act tk (ofDmcLayout v) s }

def ofDmcPolicy (v : Vals) : PDmcPolicy := ⟨vN v 0, vN v 1, vN v 2, vN v 3, vN v 4, vN v 5, vN v 6, vN v 7, vN v 8, vN v 9⟩
def mkDmcPolicy (p : PDmcPolicy) (act : Ticket → PDmcPolicy → State → Res) (pre : PDmcPolicy → State → Option (Nat × List RV) := fun _ _ => none) : Cmd :=
  { opcode := 0x0E02, legal := stSC, owner := true, ats := false, cls := .c
    flds := fun _ => [fld 1 p.tdelta (.rng 2 40), fld 1 p.qf (.rng 5 50), fld 1 p.p (.rng 8 16),
      fld 2 p.scrub (.zeroOr 1 168), fld 2 p.ceLimit (.rng 16 65535), fld 1 p.hi (.rng ((clampI 0 56 p.lo) + 8) 64),
      fld 1 p.lo (.rng 0 56), fld 1 p.floor2 (.rng 0 30), fld 1 p.floor3 (.rng 0 20), fld 1 p.autoMask (.code [0,1])]
    pre := fun v s => pre (ofDmcPolicy v) s, act := fun tk v s => act tk (ofDmcPolicy v) s }

def ofDmcUserRegion (v : Vals) : PDmcUserRegion := ⟨vN v 0⟩
def mkDmcUserRegion (p : PDmcUserRegion) (act : Ticket → PDmcUserRegion → State → Res) (pre : PDmcUserRegion → State → Option (Nat × List RV) := fun _ _ => none) : Cmd :=
  { opcode := 0x0E03, legal := stSC, owner := true, ats := false, cls := .c
    flds := fun _ => [fld 4 p.mib (.rng 0 65536)]
    pre := fun v s => pre (ofDmcUserRegion v) s, act := fun tk v s => act tk (ofDmcUserRegion v) s }

def ofDmcRetrain (v : Vals) : PDmcRetrain := ⟨vN v 0⟩
def mkDmcRetrain (p : PDmcRetrain) (act : Ticket → PDmcRetrain → State → Res) (pre : PDmcRetrain → State → Option (Nat × List RV) := fun _ _ => none) : Cmd :=
  { opcode := 0x0E04, legal := stSCRun, owner := true, ats := false, cls := .d
    flds := fun _ => [fld 1 p.ch (.chan)]
    pre := fun v s => pre (ofDmcRetrain v) s, act := fun tk v s => act tk (ofDmcRetrain v) s }

def ofDmcStatus (v : Vals) : PDmcStatus := ⟨vN v 0⟩
def mkDmcStatus (p : PDmcStatus) (act : Ticket → PDmcStatus → State → Res) (pre : PDmcStatus → State → Option (Nat × List RV) := fun _ _ => none) : Cmd :=
  { opcode := 0x0E05, legal := stAll, owner := false, ats := false, cls := .r
    flds := fun _ => [fld 1 p.ch (.chan)]
    pre := fun v s => pre (ofDmcStatus v) s, act := fun tk v s => act tk (ofDmcStatus v) s }

def ofDmcEccLog (v : Vals) : PDmcEccLog := ⟨vN v 0, vN v 1⟩
def mkDmcEccLog (p : PDmcEccLog) (act : Ticket → PDmcEccLog → State → Res) (pre : PDmcEccLog → State → Option (Nat × List RV) := fun _ _ => none) : Cmd :=
  { opcode := 0x0E06, legal := stAll, owner := false, ats := false, cls := .r
    flds := fun _ => [fld 1 p.first (.idx 0 63), fld 1 p.count (.rng 1 64)]
    pre := fun v s => pre (ofDmcEccLog v) s, act := fun tk v s => act tk (ofDmcEccLog v) s }

def mkDmcCountersClear (act : Ticket → State → Res) (pre : State → Option (Nat × List RV) := fun _ => none) : Cmd :=
  { opcode := 0x0E07, legal := stAll, owner := true, ats := false, cls := .r
    flds := fun _ => [], pre := fun _ s => pre s, act := fun tk _ s => act tk s }

def ofDmaChannel (v : Vals) : PDmaChannel := ⟨vN v 0, vN v 1, vN v 2, vN v 3⟩
def mkDmaChannel (p : PDmaChannel) (act : Ticket → PDmaChannel → State → Res) (pre : PDmaChannel → State → Option (Nat × List RV) := fun _ _ => none) : Cmd :=
  { opcode := 0x0E10, legal := stSCRun, owner := true, ats := false, cls := .d
    flds := fun _ => [fld 1 p.ch (.idx 0 63), fld 1 p.space (.idx 0 5), fld 8 p.addr (.zero 0x3F), fld 1 p.link (.idx 0 3)]
    pre := fun v s => pre (ofDmaChannel v) s, act := fun tk v s => act tk (ofDmaChannel v) s }

def ofDmaStart (v : Vals) : PDmaStart := ⟨vN v 0⟩
def mkDmaStart (p : PDmaStart) (act : Ticket → PDmaStart → State → Res) (pre : PDmaStart → State → Option (Nat × List RV) := fun _ _ => none) : Cmd :=
  { opcode := 0x0E11, legal := stSCRun, owner := true, ats := true, cls := .d
    flds := fun _ => [fld 1 p.ch (.idx 0 63)]
    pre := fun v s => pre (ofDmaStart v) s, act := fun tk v s => act tk (ofDmaStart v) s }

def ofDmaResume (v : Vals) : PDmaResume := ⟨vN v 0⟩
def mkDmaResume (p : PDmaResume) (act : Ticket → PDmaResume → State → Res) (pre : PDmaResume → State → Option (Nat × List RV) := fun _ _ => none) : Cmd :=
  { opcode := 0x0E12, legal := stSCRun, owner := true, ats := false, cls := .d
    flds := fun _ => [fld 1 p.ch (.idx 0 63)]
    pre := fun v s => pre (ofDmaResume v) s, act := fun tk v s => act tk (ofDmaResume v) s }

def ofDmaAbort (v : Vals) : PDmaAbort := ⟨vN v 0⟩
def mkDmaAbort (p : PDmaAbort) (act : Ticket → PDmaAbort → State → Res) (pre : PDmaAbort → State → Option (Nat × List RV) := fun _ _ => none) : Cmd :=
  { opcode := 0x0E13, legal := stSCRun, owner := true, ats := false, cls := .d
    flds := fun _ => [fld 1 p.ch (.idx 0 63)]
    pre := fun v s => pre (ofDmaAbort v) s, act := fun tk v s => act tk (ofDmaAbort v) s }

def ofDmaStatus (v : Vals) : PDmaStatus := ⟨vN v 0⟩
def mkDmaStatus (p : PDmaStatus) (act : Ticket → PDmaStatus → State → Res) (pre : PDmaStatus → State → Option (Nat × List RV) := fun _ _ => none) : Cmd :=
  { opcode := 0x0E14, legal := stAll, owner := false, ats := false, cls := .r
    flds := fun _ => [fld 1 p.ch (.idx 0 63)]
    pre := fun v s => pre (ofDmaStatus v) s, act := fun tk v s => act tk (ofDmaStatus v) s }

def ofDmaBufWrite (v : Vals) : PDmaBufWrite := ⟨vN v 0, vN v 1, vN v 2, vNs v 3⟩
def mkDmaBufWrite (p : PDmaBufWrite) (act : Ticket → PDmaBufWrite → State → Res) (pre : PDmaBufWrite → State → Option (Nat × List RV) := fun _ _ => none) : Cmd :=
  { opcode := 0x0E15, legal := stSCRun, owner := true, ats := false, cls := .d
    flds := fun _ => [fld 1 p.space (.code [0]), fld 8 p.offset (.any), fld 4 p.length (.idxStep 4 65536 4), flds 1 p.data (.bulk p.length)]
    pre := fun v s => pre (ofDmaBufWrite v) s, act := fun tk v s => act tk (ofDmaBufWrite v) s }

def ofDmaBufRead (v : Vals) : PDmaBufRead := ⟨vN v 0, vN v 1, vN v 2⟩
def mkDmaBufRead (p : PDmaBufRead) (act : Ticket → PDmaBufRead → State → Res) (pre : PDmaBufRead → State → Option (Nat × List RV) := fun _ _ => none) : Cmd :=
  { opcode := 0x0E16, legal := stAll, owner := false, ats := false, cls := .r
    flds := fun _ => [fld 1 p.space (.code [0]), fld 8 p.offset (.any), fld 4 p.length (.rng 4 65536)]
    pre := fun v s => pre (ofDmaBufRead v) s, act := fun tk v s => act tk (ofDmaBufRead v) s }

def mkDmaCountersClear (act : Ticket → State → Res) (pre : State → Option (Nat × List RV) := fun _ => none) : Cmd :=
  { opcode := 0x0E17, legal := stAll, owner := true, ats := false, cls := .r
    flds := fun _ => [], pre := fun _ s => pre s, act := fun tk _ s => act tk s }

/-! ## The health commands (R650) -/

def ofEnvelopeSet (v : Vals) : PEnvelopeSet := ⟨vN v 0, vN v 1, vN v 2⟩
def mkEnvelopeSet (p : PEnvelopeSet) (act : Ticket → PEnvelopeSet → State → Res) (pre : PEnvelopeSet → State → Option (Nat × List RV) := fun _ _ => none) : Cmd :=
  { opcode := 0x0F01, legal := stSCRun, owner := true, ats := false, cls := .n
    flds := fun _ => [fld 1 p.env (.code [0,1]), fld 1 p.goal (.code [0,1]), fld 2 p.watts (.rng 60 190)]
    pre := fun v s => pre (ofEnvelopeSet v) s, act := fun tk v s => act tk (ofEnvelopeSet v) s }

def mkPlanRun (act : Ticket → State → Res) (pre : State → Option (Nat × List RV) := fun _ => none) : Cmd :=
  { opcode := 0x0F02, legal := stSC, owner := true, ats := false, cls := .n
    flds := fun _ => [], pre := fun _ s => pre s, act := fun tk _ s => act tk s }

def mkMonStatus (act : Ticket → State → Res) (pre : State → Option (Nat × List RV) := fun _ => none) : Cmd :=
  { opcode := 0x0F03, legal := stAllBoot, owner := false, ats := false, cls := .n
    flds := fun _ => [], pre := fun _ s => pre s, act := fun tk _ s => act tk s }

def ofThermalConfig (v : Vals) : PThermalConfig := ⟨vI v 0, vI v 1⟩
def mkThermalConfig (p : PThermalConfig) (act : Ticket → PThermalConfig → State → Res) (pre : PThermalConfig → State → Option (Nat × List RV) := fun _ _ => none) : Cmd :=
  { opcode := 0x0F04, legal := stSC, owner := true, ats := false, cls := .n
    flds := fun _ => [fldI 2 p.warn (.rng 6000 10500), fldI 2 p.throttle (.rng 8500 10800)]
    pre := fun v s => pre (ofThermalConfig v) s, act := fun tk v s => act tk (ofThermalConfig v) s }

def ofMarginConfig (v : Vals) : PMarginConfig := ⟨vN v 0, vN v 1⟩
def mkMarginConfig (p : PMarginConfig) (act : Ticket → PMarginConfig → State → Res) (pre : PMarginConfig → State → Option (Nat × List RV) := fun _ _ => none) : Cmd :=
  { opcode := 0x0F05, legal := stSC, owner := true, ats := false, cls := .n
    flds := fun _ => [fld 1 p.droopMv (.rng 20 80), fld 4 p.droopLimit (.rng 1 1000000)]
    pre := fun v s => pre (ofMarginConfig v) s, act := fun tk v s => act tk (ofMarginConfig v) s }

def ofTelemetryConfig (v : Vals) : PTelemetryConfig := ⟨vNs v 0, vNs v 1⟩
def mkTelemetryConfig (p : PTelemetryConfig) (act : Ticket → PTelemetryConfig → State → Res) (pre : PTelemetryConfig → State → Option (Nat × List RV) := fun _ _ => none) : Cmd :=
  { opcode := 0x0F06, legal := stSC, owner := true, ats := false, cls := .n
    flds := fun _ => [flds 1 p.addrs (.any), flds 1 p.rails (.code [0,1,2,3])]
    pre := fun v s => pre (ofTelemetryConfig v) s, act := fun tk v s => act tk (ofTelemetryConfig v) s }

def ofTelemetryRead (v : Vals) : PTelemetryRead := ⟨vN v 0⟩
def mkTelemetryRead (p : PTelemetryRead) (act : Ticket → PTelemetryRead → State → Res) (pre : PTelemetryRead → State → Option (Nat × List RV) := fun _ _ => none) : Cmd :=
  { opcode := 0x0F07, legal := stAll, owner := false, ats := false, cls := .n
    flds := fun _ => [fld 1 p.reg (.idx 0 7)]
    pre := fun v s => pre (ofTelemetryRead v) s, act := fun tk v s => act tk (ofTelemetryRead v) s }

def ofCalStatus (v : Vals) : PCalStatus := ⟨vN v 0, vN v 1⟩
def mkCalStatus (p : PCalStatus) (act : Ticket → PCalStatus → State → Res) (pre : PCalStatus → State → Option (Nat × List RV) := fun _ _ => none) : Cmd :=
  { opcode := 0x0F08, legal := stAll, owner := false, ats := false, cls := .n
    flds := fun _ => [fld 1 p.kind (.code [0,1,2,3,4]), fld 2 p.which (.named (faCalItem p.kind p.which) .any)]
    pre := fun v s => pre (ofCalStatus v) s, act := fun tk v s => act tk (ofCalStatus v) s }

def ofFaultPolicy (v : Vals) : PFaultPolicy := ⟨vN v 0⟩
def mkFaultPolicy (p : PFaultPolicy) (act : Ticket → PFaultPolicy → State → Res) (pre : PFaultPolicy → State → Option (Nat × List RV) := fun _ _ => none) : Cmd :=
  { opcode := 0x0F09, legal := stSC, owner := true, ats := false, cls := .n
    flds := fun _ => [fld 4 p.hold (.zeroOr 1 3600)]
    pre := fun v s => pre (ofFaultPolicy v) s, act := fun tk v s => act tk (ofFaultPolicy v) s }

def ofErrlogRead (v : Vals) : PErrlogRead := ⟨vN v 0, vN v 1, vN v 2⟩
def mkErrlogRead (p : PErrlogRead) (act : Ticket → PErrlogRead → State → Res) (pre : PErrlogRead → State → Option (Nat × List RV) := fun _ _ => none) : Cmd :=
  { opcode := 0x0F0A, legal := stAllBoot, owner := false, ats := false, cls := .n
    flds := fun _ => [fld 1 p.log (.code [0,1]), fld 8 p.first (.any), fld 2 p.count (.rng 1 40)]
    pre := fun v s => pre (ofErrlogRead v) s, act := fun tk v s => act tk (ofErrlogRead v) s }

def mkMonCountersClear (act : Ticket → State → Res) (pre : State → Option (Nat × List RV) := fun _ => none) : Cmd :=
  { opcode := 0x0F0B, legal := stAll, owner := true, ats := false, cls := .n
    flds := fun _ => [], pre := fun _ s => pre s, act := fun tk _ s => act tk s }

/-! ## The firmware and store commands (R618) -/

def ofFwStageBegin (v : Vals) : PFwStageBegin := ⟨vN v 0⟩
def mkFwStageBegin (p : PFwStageBegin) (act : Ticket → PFwStageBegin → State → Res) (pre : PFwStageBegin → State → Option (Nat × List RV) := fun _ _ => none) : Cmd :=
  { opcode := 0x1001, legal := [.standby], owner := true, ats := false, cls := .n
    flds := fun _ => [fld 4 p.length (.rng 512 8388608)]
    pre := fun v s => pre (ofFwStageBegin v) s, act := fun tk v s => act tk (ofFwStageBegin v) s }

def ofFwStageWrite (v : Vals) : PFwStageWrite := ⟨vN v 0, vN v 1, vNs v 2⟩
def mkFwStageWrite (p : PFwStageWrite) (act : Ticket → PFwStageWrite → State → Res) (pre : PFwStageWrite → State → Option (Nat × List RV) := fun _ _ => none) : Cmd :=
  { opcode := 0x1002, legal := [.update], owner := true, ats := false, cls := .n
    flds := fun _ => [fld 4 p.offset (.idxStep 0 4294967292 4), fld 4 p.length (.idxStep 4 65536 4), flds 1 p.data (.bulk p.length)]
    pre := fun v s => pre (ofFwStageWrite v) s, act := fun tk v s => act tk (ofFwStageWrite v) s }

def mkFwStageEnd (act : Ticket → State → Res) (pre : State → Option (Nat × List RV) := fun _ => none) : Cmd :=
  { opcode := 0x1003, legal := [.update], owner := true, ats := false, cls := .n
    flds := fun _ => [], pre := fun _ s => pre s, act := fun tk _ s => act tk s }

def mkFwStageAbort (act : Ticket → State → Res) (pre : State → Option (Nat × List RV) := fun _ => none) : Cmd :=
  { opcode := 0x1004, legal := [.update], owner := true, ats := false, cls := .n
    flds := fun _ => [], pre := fun _ s => pre s, act := fun tk _ s => act tk s }

def mkFwStatus (act : Ticket → State → Res) (pre : State → Option (Nat × List RV) := fun _ => none) : Cmd :=
  { opcode := 0x1005, legal := stAllBoot, owner := false, ats := false, cls := .n
    flds := fun _ => [], pre := fun _ s => pre s, act := fun tk _ s => act tk s }

def mkFwConfirm (act : Ticket → State → Res) (pre : State → Option (Nat × List RV) := fun _ => none) : Cmd :=
  { opcode := 0x1006, legal := stSCRun, owner := true, ats := false, cls := .n
    flds := fun _ => [], pre := fun _ s => pre s, act := fun tk _ s => act tk s }

def ofFwPolicy (v : Vals) : PFwPolicy := ⟨vN v 0, vN v 1⟩
def mkFwPolicy (p : PFwPolicy) (act : Ticket → PFwPolicy → State → Res) (pre : PFwPolicy → State → Option (Nat × List RV) := fun _ _ => none) : Cmd :=
  { opcode := 0x1007, legal := stSC, owner := true, ats := false, cls := .n
    flds := fun _ => [fld 2 p.window (.rng 30 600), fld 1 p.mode (.code [0,1])]
    pre := fun v s => pre (ofFwPolicy v) s, act := fun tk v s => act tk (ofFwPolicy v) s }

def mkFwRollback (act : Ticket → State → Res) (pre : State → Option (Nat × List RV) := fun _ => none) : Cmd :=
  { opcode := 0x1008, legal := [.standby], owner := true, ats := false, cls := .n
    flds := fun _ => [], pre := fun _ s => pre s, act := fun tk _ s => act tk s }

def ofEfuseRead (v : Vals) : PEfuseRead := ⟨vN v 0, vN v 1, vN v 2⟩
def mkEfuseRead (p : PEfuseRead) (act : Ticket → PEfuseRead → State → Res) (pre : PEfuseRead → State → Option (Nat × List RV) := fun _ _ => none) : Cmd :=
  { opcode := 0x1009, legal := stAllBoot, owner := false, ats := false, cls := .n
    flds := fun _ => [fld 1 p.region (.code [0,1,2,3]), fld 4 p.offset (.any), fld 4 p.length (.rng 4 12288)]
    pre := fun v s => pre (ofEfuseRead v) s, act := fun tk v s => act tk (ofEfuseRead v) s }

def mkEfuseSecverAdvance (act : Ticket → State → Res) (pre : State → Option (Nat × List RV) := fun _ => none) : Cmd :=
  { opcode := 0x100A, legal := [.standby], owner := true, ats := false, cls := .n
    flds := fun _ => [], pre := fun _ s => pre s, act := fun tk _ s => act tk s }

def ofEfuseKeyRevoke (v : Vals) : PEfuseKeyRevoke := ⟨vN v 0⟩
def mkEfuseKeyRevoke (p : PEfuseKeyRevoke) (act : Ticket → PEfuseKeyRevoke → State → Res) (pre : PEfuseKeyRevoke → State → Option (Nat × List RV) := fun _ _ => none) : Cmd :=
  { opcode := 0x100B, legal := [.standby], owner := true, ats := false, cls := .n
    flds := fun _ => [fld 1 p.slot (.idx 0 3)]
    pre := fun v s => pre (ofEfuseKeyRevoke v) s, act := fun tk v s => act tk (ofEfuseKeyRevoke v) s }

/-- The head or port that only the AK-9640-FA has and that a calibration record belongs to (R4, R612). -/
def calUnit (typ inst : Nat) : Option Nat :=
  let u := if typ = 0x11 then inst else if typ = 0x12 then inst / 16 else 0
  if 8 ≤ u ∧ u < 16 then some u else none

/-- The first such port that the fields of a TRIM payload name (R4, R613). -/
def trimUnit (bs : List Nat) : Option Nat :=
  (List.range (bs.length / 4)).findSome? fun i =>
    let f := leAt bs (4 * i) 2
    if 0x0208 ≤ f ∧ f < 0x0210 then some (f - 0x0200) else none

def ofCalWrite (v : Vals) : PCalWrite := ⟨vN v 0, vN v 1, vN v 2, vNs v 3⟩
def mkCalWrite (p : PCalWrite) (act : Ticket → PCalWrite → State → Res) (pre : PCalWrite → State → Option (Nat × List RV) := fun _ _ => none) : Cmd :=
  { opcode := 0x100C, legal := stSCRun, owner := true, ats := false, cls := .n
    flds := fun _ => [fld 1 p.type (.code [0x11,0x13,0x14]), fld 2 p.inst (.named (calUnit p.type p.inst) .any), fld 4 p.length (.any), flds 1 p.data (.named (if p.type = 0x13 then trimUnit p.data else none) (.bulk p.length))]
    pre := fun v s => pre (ofCalWrite v) s, act := fun tk v s => act tk (ofCalWrite v) s }

def ofCalRead (v : Vals) : PCalRead := ⟨vN v 0, vN v 1, vN v 2, vN v 3⟩
def mkCalRead (p : PCalRead) (act : Ticket → PCalRead → State → Res) (pre : PCalRead → State → Option (Nat × List RV) := fun _ _ => none) : Cmd :=
  { opcode := 0x100D, legal := stAll, owner := false, ats := false, cls := .n
    flds := fun _ => [fld 1 p.type (.any), fld 2 p.inst (.named (calUnit p.type p.inst) .any), fld 4 p.offset (.any), fld 4 p.length (.rng 4 65536)]
    pre := fun v s => pre (ofCalRead v) s, act := fun tk v s => act tk (ofCalRead v) s }

def ofCalList (v : Vals) : PCalList := ⟨vN v 0, vN v 1⟩
def mkCalList (p : PCalList) (act : Ticket → PCalList → State → Res) (pre : PCalList → State → Option (Nat × List RV) := fun _ _ => none) : Cmd :=
  { opcode := 0x100E, legal := stAll, owner := false, ats := false, cls := .n
    flds := fun _ => [fld 2 p.first (.any), fld 2 p.count (.rng 1 256)]
    pre := fun v s => pre (ofCalList v) s, act := fun tk v s => act tk (ofCalList v) s }

def ofCalErase (v : Vals) : PCalErase := ⟨vN v 0, vN v 1⟩
def mkCalErase (p : PCalErase) (act : Ticket → PCalErase → State → Res) (pre : PCalErase → State → Option (Nat × List RV) := fun _ _ => none) : Cmd :=
  { opcode := 0x100F, legal := stSCRun, owner := true, ats := false, cls := .n
    flds := fun _ => [fld 1 p.type (.any), fld 2 p.inst (.named (calUnit p.type p.inst) .any)]
    pre := fun v s => pre (ofCalErase v) s, act := fun tk v s => act tk (ofCalErase v) s }

def ofSettingsSave (v : Vals) : PSettingsSave := ⟨vN v 0, vN v 1⟩
def mkSettingsSave (p : PSettingsSave) (act : Ticket → PSettingsSave → State → Res) (pre : PSettingsSave → State → Option (Nat × List RV) := fun _ _ => none) : Cmd :=
  { opcode := 0x1010, legal := stSCRun, owner := true, ats := false, cls := .n
    flds := fun _ => [fld 1 p.slot (.code [0,1,2,3,4,5,6,7,255]), fld 1 p.autocommit (.code [0,1])]
    pre := fun v s => pre (ofSettingsSave v) s, act := fun tk v s => act tk (ofSettingsSave v) s }

def mkStoreStatus (act : Ticket → State → Res) (pre : State → Option (Nat × List RV) := fun _ => none) : Cmd :=
  { opcode := 0x1011, legal := stAll, owner := false, ats := false, cls := .n
    flds := fun _ => [], pre := fun _ s => pre s, act := fun tk _ s => act tk s }

/-! ## The diagnostic commands (R651) -/

def ofRegRead (v : Vals) : PRegRead := ⟨vN v 0, vN v 1, vN v 2⟩
def mkRegRead (p : PRegRead) (act : Ticket → PRegRead → State → Res) (pre : PRegRead → State → Option (Nat × List RV) := fun _ _ => none) : Cmd :=
  { opcode := 0x1101, legal := stAllBoot, owner := false, ats := false, cls := .n
    flds := fun _ => [fld 4 p.addr (.idxStep 0 0x3FFFFFC 4), fld 2 p.count (.rng 1 256), fld 1 p.link (.idx 0 3)]
    pre := fun v s => pre (ofRegRead v) s, act := fun tk v s => act tk (ofRegRead v) s }

def ofRegWrite (v : Vals) : PRegWrite := ⟨vN v 0, vN v 1, vN v 2, vN v 3⟩
def mkRegWrite (p : PRegWrite) (act : Ticket → PRegWrite → State → Res) (pre : PRegWrite → State → Option (Nat × List RV) := fun _ _ => none) : Cmd :=
  { opcode := 0x1102, legal := stAll, owner := true, ats := false, cls := .n
    flds := fun _ => [fld 4 p.addr (.idxStep 0 0x3FFFFFC 4), fld 1 p.link (.idx 0 3), fld 4 p.value (.any), fld 4 p.mask (.any)]
    pre := fun v s => pre (ofRegWrite v) s, act := fun tk v s => act tk (ofRegWrite v) s }

def ofDiagReset (v : Vals) : PDiagReset := ⟨vN v 0, vN v 1, vN v 2⟩
def mkDiagReset (p : PDiagReset) (act : Ticket → PDiagReset → State → Res) (pre : PDiagReset → State → Option (Nat × List RV) := fun _ _ => none) : Cmd :=
  { opcode := 0x1103, legal := stAll, owner := true, ats := false, cls := .n
    flds := fun _ => [fld 1 p.reach (.code [0,1,2]), fld 1 p.wrapper (.named (faWrap p.wrapper) (.idx 0 43)), fld 1 p.keep (.code [0,1])]
    pre := fun v s => pre (ofDiagReset v) s, act := fun tk v s => act tk (ofDiagReset v) s }

def ofDiagInject (v : Vals) : PDiagInject := ⟨vN v 0, vN v 1⟩
def mkDiagInject (p : PDiagInject) (act : Ticket → PDiagInject → State → Res) (pre : PDiagInject → State → Option (Nat × List RV) := fun _ _ => none) : Cmd :=
  { opcode := 0x1104, legal := stSC, owner := true, ats := false, cls := .n
    flds := fun _ => [fld 1 p.kind (.code [0,1,2,3]), fld 8 p.target (.named (if 2 ≤ p.kind then faWrap p.target else none) .any)]
    pre := fun v s => pre (ofDiagInject v) s, act := fun tk v s => act tk (ofDiagInject v) s }

end Sys2Proof.Machine
end

