-- ==== Sys2Proof/Machine/Ports.lean ====
section
/-! DEFINITION. Sys2Proof/Machine/Ports.lean: the camera ports (chapter 03): link states, lane states, triggers, echoes, head
registers, live calibration and eye scans, and the commands of family 0x02. -/

namespace Sys2Proof.Machine

/-! ## One port -/

def setPort (n : Nat) (f : Port → Port) (s : State) : State :=
  { s with lnk := { s.lnk with ports := listMod s.lnk.ports n f } }

/-- LINK_NOTIFY to family subscribers and to the session whose command caused the change: `sid`, or that of the command now acting
(R683). -/
def linkNotify (n old new cause : Nat) (sid : Option Nat) (s : State) : State :=
  notifySubsAnd (if sid.isSome then sid else s.dev.cause.map fun c => c.1) 0x02F0 [u8 n, u8 old, u8 new, u16 cause] s

/-- Changes a port's LINK_STATE (0 CLOSED, 1 TRAINING, 2 UP, 3 DOWN), with its LINK_NOTIFY (R161, R683). -/
def setLink (n new cause : Nat) (sid : Option Nat) (s : State) : State :=
  let old := (port s n).link
  if old = new then s else linkNotify n old new cause sid (setPort n (fun p => { p with link := new }) s)

/-- A 16-byte CTRL block payload (R134). -/
def ctrlBytes (ty : Nat) (fields : List Nat) : List Nat :=
  let b := ((ty :: fields) ++ List.replicate 14 0).take 14
  b ++ leBytes 2 (crc16 b)

/-- The first slot of a back-channel at or after `t` ps. -/
def slotFrom (p : Port) (t : Nat) : Nat := ceilDiv (t - p.grid.getD 0) 12800

/-- The instant of a slot, ps. -/
def slotAt (p : Port) (k : Nat) : Nat := p.grid.getD 0 + 12800 * k

/-- Hands a message other than TRIGGER to a port's back-channel, where it waits for a free slot (R134, R141). -/
def sendCtrl (n ty : Nat) (fields : List Nat) (s : State) : State :=
  setPort n (fun p => if p.grid.isSome then { p with ctl := p.ctl ++ [(slotFrom p s.now, ty, fields)] } else p) s

/-- TIME (R137). -/
def sendTime (n : Nat) (s : State) : State := sendCtrl n 0x30 [] s

/-- LANE_CTRL: state 0 ACTIVE, 1 STANDBY, 2 DORMANT, with the port's rate, FEC and lane count (R134, R145). -/
def laneCtrl (n st : Nat) (s : State) : State :=
  let p := port s n
  sendCtrl n 0x50 [st, p.rate, p.fec, p.nLanes] s

/-- DORMANT_OK of the head on a port (R140). -/
def dormantOk (s : State) (n : Nat) : Bool := bit (nth (port s n).head 2) 8

/-- D of a port as last adopted, ps: its measured latency plus TRIM (R684). -/
def dNew (s : State) (n : Nat) : Int := (port s n).d0 + (tabGet s.cfg.trims n).getD 0

/-- D of a port in force: that of before a change until every generator driving the port has ticked (R166). -/
def dOf (s : State) (n : Nat) : Int := match (port s n).dOld with | e :: _ => e.2 | [] => dNew s n

/-- Streams of a port driven by a generator, as a mask of stream IDs; those of a port not opened have no effect yet (R133). -/
def genMask (s : State) (g n : Nat) : Nat :=
  if (tabGet s.cfg.ports n).isNone then 0 else
  (s.cfg.streams.filter fun e => e.1 / 8 = n && e.2.trig = g).foldl (fun m e => m + 2 ^ (e.1 % 8)) 0

/-- The generators that drive a port. -/
def portGens (s : State) (n : Nat) : List Nat := (List.range 8).filter fun g => genMask s g n != 0

/-- A change of D: in RUNNING each generator driving the port goes on with the D it has until its next tick (R166). -/
def adoptD (n : Nat) (f : State → State) (s : State) : State :=
  let old := dNew s n
  let gens := if s.dev.state = .running then portGens s n else []
  setPort n (fun p => { p with dOld := gens.map fun g => (g, (tabGet p.dOld g).getD old) }) (f s)

/-- D + L_head + 25.6 ns, ps (R142, R167). -/
def reach (s : State) (n : Nat) : Int := dNew s n + lHead s n + 25600

/-- E for the ports opened, ns: the E set, or the largest reach rounded up to 100 ns where one exceeds it (R142). -/
def chooseE (s : State) : Nat :=
  let most := s.cfg.ports.foldl (fun m e => max m (reach s e.1)) 0
  if (s.cfg.expo : Int) * 1000 < most then ceilDiv most.toNat 100000 * 100 else s.cfg.expo

/-- Refuses the offset-0 command of a scan that is not complete, and discards the scan (R165). -/
def dropScan (n : Nat) (s : State) : State :=
  match (port s n).scan with
  | some sc => answer sc.tk eBusy [] (setPort n (fun p => { p with scan := none }) s)
  | none => s

/-- Fails the operations that wait for a port's head (R138, R150, R685). -/
def dropWaits (n : Nat) (s : State) : State :=
  let p := port s n
  let s := setPort n (fun p => { p with acc := none, echo := none, recal := none, bring := none }) (dropScan n s)
  let s := match p.bring with | some (.probe tk, _) => answer tk eDevice [u8 n, u8 p.link] s | _ => s
  let s := match p.acc with | some a => answer a.tk eDevice (if a.probe.isSome then [u8 n, u8 p.link] else []) s | none => s
  match p.echo with | some e => answer e.tk eDevice [] s | none => s

/-- A port to CLOSED (R686): its link state and everything that rests on an open link. -/
def closePort (n cause : Nat) (sid : Option Nat) (s : State) : State :=
  let s := dropWaits n (setLink n 0 cause sid s)
  setPort n (fun p => { p with
    rate := 0, fec := 0, clkOk := false, deskewed := false, mode := 3, bring := none, noRetry := false
    trigs := [], next := [], head := [], slots := [], grid := none, ctl := [], ctlNext := 0, placed := [], scr := 0, sent := 0, dOld := []
    lanes := p.lanes.map fun l => { l with locked := false, qf := 0, snr := 0, prov := false, rx := {} } }) s

/-- Starts a bring-up: the back-channel with IDLE and markers unless it runs already, then TIME and LANE_CTRL ACTIVE (R149). -/
def startBring (n : Nat) (why : Bring) (rate fec lanes : Nat) (s : State) : State :=
  let s := setPort n (fun p => { p with
    rate := rate, fec := fec, nLanes := lanes, bring := some (why, s.now), grid := some (p.grid.getD s.now), off := true
    scr := if p.grid.isSome then p.scr else (Config.scrambleReg n s.now).toNat, sent := if p.grid.isSome then p.sent else 0
    lanes := p.lanes.map fun l => { l with rx := {} } }) s
  laneCtrl n 0 (sendTime n s)

/-- Ports that a failed ARM was bringing up return to their prior state (R150): those listed with it were UP at rate 1 after a probe, the
others CLOSED. -/
def armRestore (xs : List (Nat × Bool)) (sid : Nat) (s : State) : State :=
  xs.foldl (fun s e =>
    if e.2 then setLink e.1 2 stOk (some sid) (laneCtrl e.1 1 (setPort e.1 (fun p => { p with bring := none, rate := 1, fec := 0 }) s))
    else if (port s e.1).link = 0 then s else closePort e.1 eDevice (some sid) s) s

/-! ## Bring-up judged (R149, R150, R684) -/

/-- Inserts an echo behind those of equal or smaller RTT − TURN: the order of R684. -/
def insEcho (x : Nat × Nat) : List (Nat × Nat) → List (Nat × Nat)
  | [] => [x]
  | y :: r => if (x.1 : Int) - x.2 < (y.1 : Int) - y.2 then x :: y :: r else y :: insEcho x r

/-- The selected echo: the 8th smallest RTT − TURN, the earlier among equals (R684). -/
def selectEcho (xs : List (Nat × Nat)) : Nat × Nat := (xs.foldl (fun acc x => insEcho x acc) []).getD 7 (0, 0)

/-- D without TRIM from the selected echo: (RTT − TURN)/2 to 1 ps, halves up (R684). -/
def echoD (e : Nat × Nat) : Int := roundDivUp ((e.1 : Int) - e.2) 2

/-- HD_MAGIC and HD_VERSION are as R140 gives. -/
def headIdOk (hd : List Nat) : Bool := nth hd 0 = 0x52415448 && nth hd 1 = 0x00010000

/-- The seven head registers HD_MAGIC to HD_FORMATS (R164). -/
def headRegs (hd : List Nat) : List RV := (List.range 7).map fun i => u32 (nth hd i)

/-- The lane count code of HD_CAPS as a count (R140). -/
def capLanes (caps : Nat) : Nat := match bits caps 6 4 with | 0 => 1 | 1 => 2 | 2 => 4 | _ => 0

/-- The capabilities a port's configuration needs (R150). -/
def headCapsOk (s : State) (n : Nat) (c : PPortOpen) (hd : List Nat) : Bool :=
  let caps := nth hd 2
  bit caps (c.rate - 1) && (c.rate != 1 || c.fec = 0 || bit caps 3) && c.lanes ≤ capLanes caps &&
  (c.kind != 1 || bit caps 7) &&
  (s.cfg.streams.filter fun e => e.1 / 8 = n).all fun e =>
    bit (nth hd 5) (e.1 % 8) && bit (nth hd 6) e.2.fmt && e.2.width ≤ nth hd 4

/-- What the physical lanes' receivers made of a bring-up (R124). -/
def bringRx (p : Port) (b : BringUp) : List LaneRx := b.heard.map fun xs => xs.foldl (hear p.rate p.fec) {}

/-- The logical lanes of a port as a completed bring-up found them: each is identified by its markers, and its polarity corrected (R118,
R149). -/
def bringLanes (s : State) (b : BringUp) (found : List (Nat × LaneRx)) (ls : List Lane) : List Lane :=
  ls.mapIdx fun k l => match found[k]? with
    | some (phys, r) =>
      { l with phys := phys, polInv := r.inv, locked := r.mlk, rx := r, lag := latencyLag s r, temp := b.temp, setTemp := b.temp
               setClass := s.mon.loadClass, coef := b.coefs.getD k l.coef, prev := l.coef, prov := false }
    | none => l

/-- ECHO_REQ with its TAG (R134, R684). -/
def sendEchoReq (n k : Nat) (s : State) : State := sendCtrl n 0x40 (leBytes 2 k) s

/-- REG_READ of a head register with the port's next tag (R138). -/
def sendRegRead (n addr : Nat) (s : State) : State :=
  let s := setPort n (fun p => { p with accTag := (p.accTag + 1) % 256 }) s
  sendCtrl n 0x21 ((port s n).accTag :: leBytes 4 addr) s

/-- The messages of a bring-up after its LANE_CTRL: TX_EQ as the adaptation asked, 16 ECHO_REQ, and REG_READ of HD_MAGIC to HD_FORMATS. They have left
before the port is UP, in the first free slots after the last message on record (R139, R149; log 206). -/
def bringMessages (n : Nat) (b : BringUp) (s : State) : State :=
  let from_ := max (port s n).ctlNext (port s n).sent
  let tag := (port s n).accTag
  let msgs : List (Nat × List Nat) := (b.txEq.map fun e => (0x60, e.take 4)) ++ ((List.range 16).map fun k => (0x40, leBytes 2 k)) ++
    (List.range 7).map fun i => (0x21, (tag + 1 + i) % 256 :: leBytes 4 (4 * i))
  setPort n (fun p => { p with accTag := (tag + 7) % 256, ctl := (msgs.map fun m => (from_, m.1, m.2)) ++ p.ctl }) s

/-- A port to UP, with what its bring-up found; after a probe its lanes go to STANDBY (R149). Until a trigger is sent, the standby and dormant times run
from here (R147; log 234). -/
def portUpNow (n : Nat) (b : BringUp) (found : List (Nat × LaneRx)) (standby : Bool) (sid : Option Nat) (s : State) : State :=
  let rate := (port s n).rate
  let s := setPort n (fun p => { p with
    clkOk := true, deskewed := true, mode := 0, d0 := echoD (selectEcho b.echoes), dSet := true, dOld := [], head := b.head
    bring := none, lastTrig := s.now, lanes := bringLanes s b found p.lanes }) s
  let s := if standby then laneCtrl n 1 s else s
  let s := { s with lnk := { s.lnk with stored := if s.lnk.stored.contains (n, rate) then s.lnk.stored else s.lnk.stored ++ [(n, rate)] } }
  setLink n 2 stOk sid s

/-! ## Triggers (R141) -/

/-- Whether back-channel slot k of a port may carry a TRIGGER: not a marker slot, not taken by another (R125, R141). -/
def slotFree (p : Port) (k : Nat) : Bool := k % 4096 != 0 && ! p.slots.contains k

/-- The latest free slot at or before slot k and not before slot `low`, looking back over `fuel` slots. -/
def findSlot (p : Port) (low : Nat) : Nat → Nat → Option Nat
  | 0, _ => none
  | f + 1, k => if k < low then none else if slotFree p k then some k else if k = 0 then none else findSlot p low f (k - 1)

/-- Adds a bank switch behind those of an earlier line of its stream, lines compared modulo 2^48, and those of the same line that arrived
before it (R186). -/
def insertPend (b : BankPend) : List BankPend → List BankPend
  | [] => [b]
  | x :: r =>
    if x.stream = b.stream ∧ ((x.line + 2 ^ 48 - b.line) % 2 ^ 48 < 2 ^ 47 ∧ x.line ≠ b.line ∨ x.line = b.line ∧ b.seq < x.seq) then b :: x :: r
    else x :: insertPend b r

def pendSwitch (b : BankPend) (s : State) : State := { s with fep := { s.fep with pend := insertPend b s.fep.pend } }

/-- Whether a port was opened for kind k: 0 line streams, 1 area streams, 2 verification streams (R164). -/
def portKind (s : State) (n : Nat) : Nat := match tabGet s.cfg.ports n with | some c => c.kind | none => 0

/-- Whether a stream is set on a port opened for line streams: only the lines of such a stream can go to the web image (R38, R133). -/
def lineStream (s : State) (stream : Nat) : Bool :=
  (tabGet s.cfg.streams stream).isSome && match tabGet s.cfg.ports (stream / 8) with | some c => c.kind == 0 | none => false

/-- A REG_WRITE sent to a port's head arms the setting-latency entries that it matches (R183). On a port of area streams an entry is
armed for each stream, at key 1,000 + stream, until that stream's next frame (R417). -/
def armLatency (n addr d : Nat) (s : State) : State :=
  let hits := s.cfg.setLat.filter fun e => e.2.port == n && e.2.enable == 1 && e.2.addr == addr && d &&& e.2.m == e.2.v
  let area := portKind s n == 1
  let arms : Nat × PFeSettingLatency → List (Nat × Nat) := fun e =>
    if area then ((List.range 8).filter fun i => bit e.2.streams i).map fun i => (1000 + n * 8 + i, e.2.entry) else [(n, e.2.entry)]
  if hits.isEmpty then s else
  let k := s.fep.arrivals
  { s with fep := { s.fep with armed := s.fep.armed ++ (hits.flatMap arms).map (fun e => ⟨e.1, e.2, k⟩), arrivals := k + 1 } }

/-- The next TRIGGER of a port, of line L0, binds its armed entries to line L0 + λ (R183). -/
def fireLatency (n : Nat) (line : Int) (s : State) : State :=
  let l0 := toUnsigned 48 line
  let mine := s.fep.armed.filter fun e => e.key == n
  let s := { s with fep := { s.fep with armed := s.fep.armed.filter fun e => e.key != n } }
  mine.foldl (fun s e => match tabGet s.cfg.setLat (n * 16 + e.entry) with
    | some c => (List.range 8).foldl (fun s i =>
        if bit c.streams i then pendSwitch { stream := n * 8 + i, line := (l0 + c.lambda) % 2 ^ 48, bank := c.bank, seq := e.seq } s else s) s
    | none => s) s

/-- A REG_WRITE leaves in slot k: it arms the entries it matches, and the first TRIGGER in a later slot, where one has its slot already, binds them (R183). -/
def sentWrite (n k : Nat) (fields : List Nat) (s : State) : State :=
  let s := armLatency n (leAt fields 1 4) (leAt fields 5 4) s
  let later := (port s n).placed.filter fun e => k < e.1 && nth e.2 0 == 0x10
  match later.foldl (fun (m : Option (Nat × List Nat)) e => match m with | some x => if e.1 < x.1 then some e else m | none => some e) none with
  | some e => fireLatency n (leAt e.2 4 6 : Nat) s
  | none => s

/-- The tick of a generator brings a D adopted since its last one into force for it (R166). -/
def tickD (n gen : Nat) (s : State) : State := setPort n (fun p => { p with dOld := tabDel p.dOld gen }) s

/-- Sends the TRIGGER of a line to a port: the latest free slot at or before t_exp − D − L_head and within 4,095 UI of it,
and DELAY in UI of 3,200/33 ps (R141). A message that waits for a slot goes in a later one. With no slot left the line has no TRIGGER and
nothing tells of it (log 207). `tTick` is in ps. -/
def sendTrigger (n gen : Nat) (line : Int) (mask tTick : Nat) (s : State) : State :=
  let p := port s n
  let target : Int := (tTick : Int) + s.lnk.eUse * 1000 - dNew s n - lHead s n
  if target < p.grid.getD 0 ∨ p.grid.isNone then s else
  let k0 := (target - p.grid.getD 0).toNat / 12800
  match findSlot p (max (slotFrom p s.now) p.ctlNext) 64 k0 with
  | none => s
  | some k =>
    let slot := slotAt p k
    let gap := (target - slot).toNat
    if 4095 * 3200 < gap * 33 then s else
    let delay := (roundDivUp ((gap : Int) * 33) 3200).toNat
    let msg := ctrlBytes 0x10 ([gen % 8] ++ leBytes 2 delay ++ leBytes 6 line ++ [mask])
    let s := setPort n (fun p => { p with slots := (k :: p.slots).take 64, placed := p.placed ++ [(k, msg)], lastTrig := s.now }) s
    fireLatency n line (emit (.back n slot msg) s)

/-- Under AUTO, a port out of ACTIVE is returned to it when something needs it: motion, a trigger, or a command that needs its link
(R147, R685). -/
def wakePort (n : Nat) (s : State) : State :=
  match tabGet s.cfg.lanePower n with
  | some lp => if lp.mode = 3 ∧ (port s n).link = 2 ∧ (port s n).mode ≠ 0 then laneCtrl n 0 s else s
  | none => s

/-! ## Recalibration (R155 to R160) -/

def laneQf (s : State) (n k : Nat) : Nat := ((port s n).lanes.getD k {}).qf

def maskLanes (m : Nat) : List Nat := (List.range 4).filter fun k => bit m k

/-- Requests recalibration of lanes: one that adapts takes them in; after its commit is scheduled, lanes that it does not hold wait for
its end, and those it holds merge into it, except for CAL_RUN, which waits (R155, R160). `run` is the session and tag of a CAL_RUN, which the
CAL_NOTIFY of the outcome echoes (R74, R164). -/
def startRecal (n lanes : Nat) (run : Option (Nat × Nat)) (s : State) : State :=
  if lanes = 0 then s else
  setPort n (fun p => { p with recal := some (match p.recal with
    | none => { lanes := lanes, cause := run }
    | some r => if r.stage = 0 then { r with lanes := r.lanes ||| lanes, cause := run <|> r.cause }
                else { r with next := r.next ||| (if run.isSome then lanes else lanes ^^^ (lanes &&& r.lanes)), nextCause := run <|> r.nextCause }) }) s

/-- Ends a recalibration; one that waited starts (R160). -/
def endRecal (n : Nat) (s : State) : State :=
  let nx := match (port s n).recal with | some r => (r.next, r.nextCause) | none => (0, none)
  let ran := match (port s n).recal with | some r => maskLanes r.lanes | none => []
  let s := ran.foldl (fun s k => calRan 0 (n * 4 + k) (laneQf s n k) s) s
  startRecal n nx.1 nx.2 (setPort n (fun p => { p with recal := none }) s)

/-- Whether a port's commits wait: with FEC off, in RUNNING, unless its lanes are in STANDBY (R159). -/
def calHeld (n : Nat) (s : State) : Bool := (port s n).fec == 0 && s.dev.state == .running && (port s n).mode != 1

/-- Shadow adaptation has finished: lanes whose candidate is adopted get a commit marker two periods ahead (R157, R159). The QF before is
the least of theirs (log 209). -/
def calCandidate (n mseq : Nat) (pred : List Nat) (coefs : List (List Int)) (s : State) : State :=
  match (port s n).recal with
  | none => s
  | some r =>
    if r.stage ≠ 0 then s
    else if calHeld n s then s
    else
      let adopt := (maskLanes r.lanes).filter fun k => laneQf s n k + 1 ≤ nth pred k || laneQf s n k < s.cfg.calPolicy.qfThr
      if adopt.isEmpty then endRecal n s
      else setPort n (fun p => { p with recal := some { r with
        lanes := adopt.foldl (fun m k => m + 2 ^ k) 0, target := adopt.map fun k => (k, coefs.getD k [])
        mseq := (mseq + 2) % 2 ^ 32, stage := 1, qfBefore := adopt.foldl (fun m k => min m (laneQf s n k)) 255 } }) s

/-- One coefficient's move in one commit: at most 1/8 of its range (R158, log 11). -/
def stepCoef (x target : Int) : Int := x + clampI (-8192) 8192 (target - x)

def stepCoefs (xs target : List Int) : List Int := target.mapIdx fun i t => stepCoef (nthI xs i) t

/-- The previous coefficients, temperature, class and flag of a lane restored as far as one marker takes them (R156 to R158). -/
def revertLane (l : Lane) : Lane :=
  let c := stepCoefs l.coef l.prev
  if c = l.prev then { l with coef := c, setTemp := l.prevTemp, setClass := l.prevClass, prov := l.prevProv } else { l with coef := c }

/-- A marker of a revert; at its last CAL_REVERT counts it and CAL_NOTIFY gives the outcome (R157, R164; log 209). -/
def coefRevert (n : Nat) (r : Recal) (s : State) : State :=
  let s := setPort n (fun p => { p with lanes := r.target.foldl (fun ls e => listMod ls e.1 revertLane) p.lanes }) s
  if r.target.any fun e => ((port s n).lanes.getD e.1 {}).coef != ((port s n).lanes.getD e.1 {}).prev then s
  else
    let s := rset (cptBase n + 4) 5 (bump (cptBase n + 0x64) 1 s)
    endRecal n (causing r.cause (notifySubs 0x02F1 [u8 n, u8 r.lanes, u32 r.mseq, u8 r.qfBefore, u8 r.qfAfter, u8 1]) s)

/-- A marker at which a commit or a revert is due: all affected lanes switch together, and a larger move goes on at the next marker
(R157, R158). A commit that R159 holds back waits. -/
def coefCommit (n corrected : Nat) (s : State) : State :=
  match (port s n).recal with
  | none => s
  | some r =>
    if calHeld n s then s
    else if r.stage = 3 then coefRevert n r s
    else if r.stage ≠ 1 then s else
    let cls := s.mon.loadClass
    let upd := fun (ls : List Lane) => r.target.foldl (fun ls e => listMod ls e.1 fun l =>
      let l := if r.begun then l else { l with prev := l.coef, prevTemp := l.setTemp, prevClass := l.setClass, prevProv := l.prov }
      { l with coef := stepCoefs l.coef e.2, setTemp := l.temp, setClass := cls, prov := false }) ls
    let s := setPort n (fun p => { p with lanes := upd p.lanes }) s
    let more := r.target.any fun e => ((port s n).lanes.getD e.1 {}).coef != e.2
    let s := setPort n (fun p => { p with recal := some (if more then { r with begun := true, mseq := (r.mseq + 1) % 2 ^ 32 } else { r with stage := 2 }) }) s
    rput (lncBase + 8) (n + r.lanes * 16 + r.mseq % 2 ^ 24 * 256) (bump (cptBase n + 0x60) corrected (bump (cptBase n + 0x5C) 1 s))

/-- 50 ms after the commit: a QF lower by 3 or more has the previous coefficients restored from the next marker on; otherwise
CAL_NOTIFY gives the outcome (R157, R164). -/
def coefRevertCheck (n qf : Nat) (s : State) : State :=
  match (port s n).recal with
  | none => s
  | some r =>
    if r.stage ≠ 2 then s
    else if qf + 3 ≤ r.qfBefore then
      setPort n (fun p => { p with recal := some { r with stage := 3, qfAfter := qf } }) s
    else endRecal n (causing r.cause (notifySubs 0x02F1 [u8 n, u8 r.lanes, u32 r.mseq, u8 r.qfBefore, u8 qf, u8 0]) s)

/-- ⌊−10 × log10(c / n)⌋, 255 when c is 0: the largest q with 10^q · c^10 ≤ n^10 (R153). -/
def qfOf (c n : Nat) : Nat :=
  if c = 0 then 255 else ((List.range 255).filter fun q => 10 ^ q * c ^ 10 ≤ n ^ 10).foldl max 0

/-- The quality figures of a second and the triggers of R155. -/
def laneUpdate (n : Nat) (s : State) (e : Nat × LaneQ) : State :=
  let p := port s n
  let l := p.lanes.getD e.1 {}
  let q := e.2
  let qf := if p.fec = 1 then qfOf q.symCorr q.symTotal else qfOf q.hdrErr q.blocks
  let s := setPort n (fun p => { p with lanes := listMod p.lanes e.1 fun l =>
    { l with qf := qf, snr := q.snr, eyeH := q.eyeH, eyeW := q.eyeW, temp := q.temp } }) s
  let b := cptBase n
  let s := bump (b + 0x4C) q.hdrErr (bump (b + 0x48) q.symCorr (bump (b + 0x44) q.cwUncorr (bump (b + 0x40) q.cwCorr s)))
  let s := if 0 < q.cwUncorr then rset (b + 4) 1 s else s
  let due := s.cfg.calPolicy.tdelta * 10 ≤ (q.temp - l.setTemp).natAbs || qf < s.cfg.calPolicy.qfThr
  if due then startRecal n (2 ^ e.1) none s else s

def qualityUpdate (n : Nat) (q : List LaneQ) (s : State) : State :=
  if (port s n).link = 2 then ((q.take (port s n).nLanes).mapIdx fun k x => (k, x)).foldl (laneUpdate n) s else s

def recalPeriod (n lane : Nat) (s : State) : State :=
  if s.cfg.calPolicy.period = 0 ∨ (port s n).link ≠ 2 then s else startRecal n (2 ^ lane) none s

/-- A load class above that of the set in use makes it provisional (R156). -/
def markProvisional (cls : Nat) (s : State) : State :=
  { s with lnk := { s.lnk with ports := s.lnk.ports.map fun p =>
      { p with lanes := p.lanes.map fun l => if p.link = 2 ∧ l.locked ∧ l.setClass < cls then { l with prov := true } else l } } }

/-- QF re-measured for a provisional lane: recalibrated below the threshold, otherwise the set stands at this class
(R156, R625). -/
def provisionalRemeasure (n lane qf : Nat) (s : State) : State :=
  if ! ((port s n).lanes.getD lane {}).prov then s
  else if qf < s.cfg.calPolicy.qfThr then
    startRecal n (2 ^ lane) none (setPort n (fun p => { p with lanes := listMod p.lanes lane fun l => { l with qf := qf } }) s)
  else
    let cls := s.mon.loadClass
    setPort n (fun p => { p with lanes := listMod p.lanes lane fun l => { l with qf := qf, prov := false, setClass := cls } }) s

/-! ## Lane power and head access events -/

/-- An inbound CTRL block: with a failing check word it is discarded and counted (R134, R161). -/
def ctrlIn (n ty : Nat) (fields : List Nat) (crc : Nat) (f : State → State) (s : State) : State :=
  if leBytes 2 crc = (ctrlBytes ty fields).drop 14 then f s else rset (cptBase n + 4) 6 (bump (cptBase n + 0x50) 1 s)

/-- A head acknowledges a lane state change with the rate, FEC and lane count it has adopted (R145). Where one of the three is no legal code, the state
changes and the three stay (log 235). -/
def laneAck (n st rate fec lanes : Nat) (s : State) : State :=
  if (port s n).link = 2 ∧ st ≤ 2 then
    let legal : Bool := 1 ≤ rate && rate ≤ 3 && fec ≤ 1 && (lanes == 1 || lanes == 2 || lanes == 4)
    setPort n (fun p =>
      let p := if legal then { p with rate := rate, fec := fec, nLanes := lanes } else p
      { p with mode := st, clkOk := st != 2 }) s
  else s

def autoMode (s : State) (n : Nat) : Option PLanePower :=
  match tabGet s.cfg.lanePower n with
  | some lp => if lp.mode = 3 then some lp else none
  | none => none

/-- No trigger for the standby time (R147). -/
def laneStandbyTime (n : Nat) (s : State) : State :=
  match autoMode s n with
  | some lp => if (port s n).link = 2 ∧ (port s n).mode = 0 ∧ (port s n).lastTrig + lp.standbyMs * ms ≤ s.now then laneCtrl n 1 s else s
  | none => s

/-- No trigger for the dormant time, on a head with DORMANT_OK (R147). -/
def laneDormantTime (n : Nat) (s : State) : State :=
  match autoMode s n with
  | some lp => if (port s n).link = 2 ∧ (port s n).mode ≠ 2 ∧ dormantOk s n ∧ (port s n).lastTrig + lp.dormantMs * ms ≤ s.now
      then laneCtrl n 2 s else s
  | none => s

/-- The header bytes of a Rathal packet, the reserved byte 3 as 0 (R129; log 236). -/
def pktHeader (ty : Nat) (k : Pkt) : List Nat :=
  [ty, k.stream % 256, k.fmt % 256, 0] ++ leBytes 4 k.length ++ leBytes 6 k.index

/-- A packet fails its checks (R131). -/
def pktBad (ty limit : Nat) (k : Pkt) : Bool :=
  k.hcrc != crc16 (pktHeader ty k) || k.pcrc != crc32c k.data || limit < k.length || k.data.length != k.length || k.cut || k.uncorr

/-- Discards a packet: CRC_ERR, and LINK_FLAGS for a failed check word or an uncorrectable codeword (R131, R161). -/
def pktDiscard (ty : Nat) (k : Pkt) (s : State) : State :=
  let s := bump (cptBase k.port + 0x50) 1 s
  let s := if k.hcrc = crc16 (pktHeader ty k) ∧ k.pcrc = crc32c k.data then s else rset (cptBase k.port + 4) 6 s
  if k.uncorr then rset (cptBase k.port + 4) 1 s else s

/-- Ends a probe of an UP port, which returns to the lane state it had. -/
def probeEnd (n : Nat) (a : RegAcc) (s : State) : State := if a.mode = 0 then s else laneCtrl n a.mode s

/-- A register that PORT_PROBE reads of an UP port: the next one, or after seven the answer (R149, R150). -/
def probeEcho (k : Pkt) (a : RegAcc) (got : List Nat) (s : State) : State :=
  let n := k.port
  let bad := answer a.tk eDevice [u8 n, u8 (port s n).link] (probeEnd n a (setPort n (fun p => { p with acc := none }) s))
  if nth k.data 9 ≠ 0 then bad else
  let got := got ++ [leAt k.data 4 4]
  if got.length < 7 then
    let s := sendRegRead n (4 * got.length) s
    setPort n (fun p => { p with acc := some { a with tag := p.accTag, deadline := s.now + ms, probe := some got } }) s
  else if headIdOk got then answer a.tk stOk (headRegs got) (probeEnd n a (setPort n (fun p => { p with acc := none, head := got }) s))
  else bad

/-- REG_ECHO: answers the access that carries its tag (R130, R138, R685). -/
def regEcho (k : Pkt) (s : State) : State :=
  if pktBad 5 12 k then pktDiscard 5 k s else
  match (port s k.port).acc with
  | none => s
  | some a =>
    if a.tag ≠ nth k.data 8 then s else
    match a.probe with
    | some got => probeEcho k a got s
    | none =>
    let s := setPort k.port (fun p => { p with acc := none }) s
    if nth k.data 9 = 0 then answer a.tk stOk [u32 (leAt k.data 4 4)] s else answer a.tk eParam [u8 (nth k.data 9)] s

def regEchoTimeout (n : Nat) (s : State) : State :=
  match (port s n).acc with
  | some a =>
    if s.now < a.deadline then s
    else
      let s := setPort n (fun p => { p with acc := none }) s
      if a.probe.isSome then answer a.tk eDevice [u8 n, u8 (port s n).link] (probeEnd n a s) else answer a.tk eDevice [] s
  | none => s

/-- An ECHO: the next request, or after 16 the new D where it fits E (R167, R684). -/
def echoIn (n tag turn rtt : Nat) (s : State) : State :=
  match (port s n).echo with
  | none => s
  | some e =>
    if tag ≠ e.got.length ∨ (port s n).mode = 2 then s else
    let got := e.got ++ [(rtt, turn)]
    if got.length < 16 then
      sendEchoReq n got.length (setPort n (fun p => { p with echo := some { e with got := got, deadline := s.now + ms } }) s)
    else
      let x := selectEcho got
      let d := echoD x + (tabGet s.cfg.trims n).getD 0
      let fits : Bool := d + lHead s n + 25600 ≤ (s.lnk.eUse : Int) * 1000 || ! runningState s.dev.state
      let s := setPort n (fun p => { p with echo := none }) s
      let s := if fits then adoptD n (setPort n fun p => { p with d0 := echoD x, dSet := true }) s else s
      answer e.tk stOk [u32 x.1, u32 x.2, .num 4 d, u8 (boolNat fits)] s

def echoTimeout (n : Nat) (s : State) : State :=
  match (port s n).echo with
  | some e => if e.deadline ≤ s.now then answer e.tk eDevice [] (setPort n (fun p => { p with echo := none }) s) else s
  | none => s

/-- The bytes of a scan's point string from an offset (R165). -/
def scanBytes (pts : List Nat) (off len : Nat) : List Nat :=
  (List.range (min len (2 * pts.length - off))).map fun i =>
    let x := min (nth pts ((off + i) / 2)) 65535
    if (off + i) % 2 = 0 then x % 256 else x / 256

/-- A scan of 64 × 256 points is complete (R154, R165). -/
def eyeScanDone (n : Nat) (points : List Nat) (s : State) : State :=
  match (port s n).scan with
  | none => s
  | some sc =>
    if points.length ≠ 16384 then s else
    answer sc.tk stOk [.block (scanBytes points 0 sc.length)]
      (setPort n (fun p => { p with scan := none, scans := tabPut p.scans (sc.lane * 3 + sc.eye) points }) s)

/-- Every 100 ms a DOWN port retries bring-up while the device is in a running state; a retry that has not brought the port UP by then
gives way to the next (R151, R167; log 208). -/
def bringupRetry (n : Nat) (s : State) : State :=
  let p := port s n
  if p.link = 3 ∧ runningState s.dev.state ∧ ! p.noRetry ∧ p.retryAt ≤ s.now then
    startBring n .retry p.rate p.fec p.nLanes (setPort n (fun p => { p with retryAt := s.now + 100 * ms }) s)
  else s

/-- Ports as the device leaves the running states: UP ports rest their lanes, others close (R686). -/
def portsLeave (s : State) : State :=
  (List.range 16).foldl (fun s n =>
    match (port s n).link with
    | 2 => laneCtrl n (if dormantOk s n then 2 else 1) (setPort n (fun p => { p with trigs := [], dOld := [] }) s)
    | 0 => s
    | _ => closePort n stOk none s) s

/-! ## Commands of family 0x02 (R164) -/

def portOpen (p : PPortOpen) : Cmd := mkPortOpen p fun tk p s =>
  let s := if (port s p.port).link ≠ 0 then closePort p.port stOk (some tk.session) s else s
  .ok (setPort p.port (fun q => { q with off := true }) { s with cfg := { s.cfg with ports := tabPut s.cfg.ports p.port p } }) []

def portClose (p : PPortClose) : Cmd := mkPortClose p fun tk p s =>
  let s := if (port s p.port).link ≠ 0 then closePort p.port stOk (some tk.session) s else s
  .ok { s with cfg := { s.cfg with ports := tabDel s.cfg.ports p.port, streams := s.cfg.streams.filter fun e => e.1 / 8 != p.port } } []

/-- A STREAM_SET that changes a stream's width starts its shading factors anew (R181). -/
def widthSet (p : PStreamSet) (s : State) : State :=
  match tabGet s.cfg.streams (p.port * 8 + p.stream) with
  | some c => if c.width = p.width then s else { s with fep := { s.fep with shade := tabDel s.fep.shade (p.port * 8 + p.stream) } }
  | none => { s with fep := { s.fep with shade := tabDel s.fep.shade (p.port * 8 + p.stream) } }

def streamSet (p : PStreamSet) : Cmd := mkStreamSet p
  (fun _ p s =>
    let s := widthSet p s
    .ok { s with cfg := { s.cfg with streams := tabPut s.cfg.streams (p.port * 8 + p.stream) p } } [u32 p.width])
  (fun p s => if streamRoom s p.port p.stream ≤ 0 then
      some (eParam, [u32 ((s.cfg.streams.filter fun e => e.1 / 8 = p.port).foldl (fun a e => a + e.2.width) 0)]) else none)

/-- Starts reading the seven head registers of an UP port, whose lanes must be ACTIVE for the echoes (R144, R149; log 208). -/
def probeUp (n : Nat) (tk : Ticket) (s : State) : State :=
  let mode := (port s n).mode
  let s := sendRegRead n 0 (if mode = 0 then s else laneCtrl n 0 s)
  setPort n (fun p => { p with acc := some { tk := tk, tag := p.accTag, deadline := s.now + ms, probe := some [], mode := mode } }) s

def portProbe (p : PPortProbe) : Cmd := mkPortProbe p fun tk p s =>
  let q := port s p.port
  if q.link = 2 ∧ q.acc.isSome then .no eBusy []
  else if q.link = 2 then .later (probeUp p.port tk s)
  else if q.bring.isSome then .no eBusy []
  else
    let lanes := match tabGet s.cfg.ports p.port with | some c => c.lanes | none => 1
    .later (startBring p.port (.probe tk) 1 0 lanes (setLink p.port 1 stOk (some tk.session) s))

/-- D as BC_LATENCY and PORT_STATUS report it: 0 until it has been set (R161, R684). -/
def dShown (s : State) (n : Nat) : Int := if (port s n).dSet then dOf s n else 0

/-- LINK_STAT of a port (R161). -/
def linkStat (s : State) (n : Nat) : Nat :=
  let p := port s n
  let streams := (s.cfg.streams.filter fun e => e.1 / 8 = n).foldl (fun m e => m + 2 ^ (e.1 % 8)) 0
  let kind := match tabGet s.cfg.ports n with | some c => c.kind | none => 0
  p.link + (if p.link = 0 then 0 else p.rate * 8 + p.fec * 32) + boolNat p.clkOk * 64 + boolNat p.deskewed * 128 +
    streams * 256 + kind * 65536

/-- LANE_STAT[k] of a port (R161). -/
def laneStat (s : State) (n k : Nat) : Nat :=
  let p := port s n
  let l := p.lanes.getD k {}
  (if p.link = 2 ∧ k < p.nLanes then p.mode else if p.link = 0 ∧ ((tabGet s.cfg.ports n).isNone ∨ ! p.off) then 0 else 3) + l.phys % 4 * 4 +
    boolNat l.polInv * 16 + boolNat l.locked * 32 + boolNat l.prov * 64 + l.qf % 256 * 256 + l.snr % 65536 * 65536

def portStatus (p : PPortStatus) : Cmd := mkPortStatus p fun _ p s =>
  let q := port s p.port
  .ok s ([u32 (linkStat s p.port)] ++ (List.range 4).map (fun k => u32 (laneStat s p.port k)) ++ (q.lanes.take 4).map (fun l => u16 l.eyeH) ++
    (q.lanes.take 4).map (fun l => u16 l.eyeW) ++ [.num 4 (dShown s p.port), u32 s.lnk.eUse])

def portCounters (p : PPortCounters) : Cmd := mkPortCounters p fun _ p s =>
  .ok s ((List.range 11).map fun i => u32 (rget (cptBase p.port + 0x40 + 4 * i) s))

def portCountersClear (p : PPortCountersClear) : Cmd := mkPortCountersClear p fun _ p s =>
  .ok (rclear (cptBase p.port + 0x40) (cptBase p.port + 0x6C) s) []

def lanePower (p : PLanePower) : Cmd := mkLanePower p
  (fun _ p s =>
    let s := { s with cfg := { s.cfg with lanePower := tabPut s.cfg.lanePower p.port p } }
    .ok (if (port s p.port).link = 2 ∧ p.mode ≤ 2 then laneCtrl p.port p.mode s else s) [])
  (fun p s => if p.mode = 2 ∧ ! dormantOk s p.port then some (eParam, []) else none)

/-- Starts a head register access on an UP port (R138, R685). -/
def headAccess (n : Nat) (write : Bool) (fields : List Nat) (tk : Ticket) (s : State) : Res :=
  let p := port s n
  if p.link ≠ 2 then .no eState []
  else if p.acc.isSome then .no eBusy []
  else
    let tag := (p.accTag + 1) % 256
    let s := setPort n (fun p => { p with accTag := tag, acc := some { tk := tk, tag := tag, deadline := s.now + ms } }) (wakePort n s)
    .later (sendCtrl n (if write then 0x20 else 0x21) (tag :: fields) s)

def headRegWrite (p : PHeadRegWrite) : Cmd := mkHeadRegWrite p fun tk p s =>
  headAccess p.port true (leBytes 4 p.addr ++ leBytes 4 p.data) tk s

def headRegRead (p : PHeadRegRead) : Cmd := mkHeadRegRead p fun tk p s =>
  headAccess p.port false (leBytes 4 p.addr) tk s

def calRun (p : PCalRun) : Cmd := mkCalRun p fun tk p s =>
  if (port s p.port).link ≠ 2 then .no eState [] else .ok (startRecal p.port p.lanes (some (tk.session, tk.tag)) (wakePort p.port s)) []

def calPolicy (p : PCalPolicy) : Cmd := mkCalPolicy p fun _ p s => .ok { s with cfg := { s.cfg with calPolicy := p } } []

def eyeScan (p : PEyeScan) : Cmd := mkEyeScan p
  (fun tk p s =>
    let q := port s p.port
    if q.link ≠ 2 then .no eState []
    else if p.offset = 0 then
      if maxPacket s tk.via < 32 + min p.length 32768 then .no eSize []
      else if q.scan.isSome then .no eBusy []
      else .later (setPort p.port (fun q => { q with scan := some ⟨p.lane, p.eye, tk, p.length⟩, scans := tabDel q.scans (p.lane * 3 + p.eye) }) (wakePort p.port s))
    else
      match tabGet q.scans (p.lane * 3 + p.eye) with
      | some xs => .ok s [.block (scanBytes xs p.offset p.length)]
      | none => .no eBusy [])
  (fun p s => if 32768 ≤ p.offset ∨ ((port s p.port).link = 2 ∧ ((port s p.port).rate = 1 ∧ p.eye ≠ 0 ∨ (port s p.port).nLanes ≤ p.lane))
    then some (eParam, []) else none)

def latencyMeasure (p : PLatencyMeasure) : Cmd := mkLatencyMeasure p fun tk p s =>
  let q := port s p.port
  if q.link ≠ 2 then .no eState []
  else if q.echo.isSome then .no eBusy []
  else .later (sendEchoReq p.port 0 (setPort p.port (fun q => { q with echo := some { tk := tk, deadline := s.now + ms } }) (wakePort p.port s)))

/-- LATENCY_TRIM; one that comes due is clamped again to what E leaves then (R166, R167). -/
def latencyTrim (p : PLatencyTrim) : Cmd := mkLatencyTrim p fun tk p s =>
  let trim := min p.trim (trimMax s p.port)
  let s := adoptD p.port (fun s => { s with cfg := { s.cfg with trims := tabPut s.cfg.trims p.port trim } }) s
  if trim = p.trim then .ok s [] else .later (answer { tk with adj := tk.adj ||| 2 } stOk [] s)

def exposureDelay (p : PExposureDelay) : Cmd := mkExposureDelay p fun _ p s => .ok { s with cfg := { s.cfg with expo := p.e } } []

end Sys2Proof.Machine
end

