-- ==== Sys2Proof/Machine/Time.lean ====
section
/-! DEFINITION. Sys2Proof/Machine/Time.lean: the time unit (chapter 05): the counter and its discipline, PTP, PPS, time triggers
and captures, and the commands of family 0x05. -/

namespace Sys2Proof.Machine

/-! ## The counter (R231) -/

def setTmu (f : Tmu → Tmu) (s : State) : State := { s with tmu := f s.tmu }

/-- The TMU time in whole nanoseconds. -/
def tmuNs (s : State) : Nat := s.tmu.acc / 2 ^ 32

def tmuSec (s : State) : Nat := tmuNs s / 1000000000 % 2 ^ 48

def tmuSub (s : State) : Nat := tmuNs s % 1000000000

/-- The 16-bit fraction of a nanosecond. -/
def tmuFrac (s : State) : Nat := s.tmu.acc % 2 ^ 32 / 2 ^ 16

/-- The counter after running from `a` to `b` ps: the increment per IO tick of 1,000 ps, or 40 increments per REF cycle of
40 ns while asleep (R231, R245). -/
def tmuRun (asleep : Bool) (a b incr acc : Nat) : Nat :=
  if asleep then acc + (b / 40000 - a / 40000) * 40 * incr else acc + (b / 1000 - a / 1000) * incr

/-! ## The back-channels (R122, R125, R127, R141) -/

/-- The TMU time in ns at instant `t`, not before now. -/
def tmuAt (s : State) (t : Nat) : Nat := tmuRun s.dev.asleep s.now t s.tmu.incr s.tmu.acc / 2 ^ 32

/-- The first slot from k on that carries neither a marker nor a TRIGGER. -/
def nextSlot (p : Port) : Nat → Nat → Nat
  | 0, k => k
  | f + 1, k => if slotFree p k then k else nextSlot p f (k + 1)

/-- The scrambler's register after n IDLE blocks (R122, R134). -/
def idleRun : Nat → Nat → Nat
  | 0, r => r
  | n + 1, r => idleRun n (scramble r (bytesBits (ctrlBytes 0 []))).2

/-- Slots of [a, b) that carry no marker (R125). -/
def plainSlots (a b : Nat) : Nat := (b - a) - (ceilDiv b 4096 - ceilDiv a 4096)

/-- What has gone out of a back-channel: the scrambler's register at a slot, that slot, and the blocks on record, newest first. -/
structure Sent where
  reg : Nat
  next : Nat
  outs : List Out

/-- A block of a back-channel goes out in its slot, after the IDLE blocks before it: its 132 bits as sent, a payload other than a marker's scrambled
(R120 to R122). -/
def blockOut (n : Nat) (p : Port) (x : Sent) (e : Nat × Nat × List Nat) : Sent :=
  let put (bits : List Bool) : List Out := .block n (slotAt p e.1) (bitsNat (blockBits e.2.1 bits)) :: x.outs
  if e.2.1 = hdrMarker then { x with outs := put (bytesBits e.2.2) }
  else
    let y := scramble (idleRun (plainSlots x.next e.1) x.reg) (bytesBits e.2.2)
    ⟨y.2, e.1 + 1, put y.1⟩

/-- Puts a block among others in order of their slots. -/
def insertBlock (e : Nat × Nat × List Nat) : List (Nat × Nat × List Nat) → List (Nat × Nat × List Nat)
  | [] => [e]
  | x :: r => if e.1 < x.1 then e :: x :: r else x :: insertBlock e r

/-- The messages, in order of their slots, among the markers. -/
def amongMarkers : List (Nat × Nat × List Nat) → List (Nat × Nat × List Nat) → List (Nat × Nat × List Nat)
  | [], ms => ms
  | e :: r, ms => (ms.takeWhile fun m => decide (m.1 < e.1)) ++ e :: amongMarkers r (ms.dropWhile fun m => decide (m.1 < e.1))

/-- Waiting messages of a port go out in their slots that begin before `t`. A TIME carries the TMU time at which it reaches the head
(R137, R141), the slot's time and D each rounded down to 1 ns before they are added (log 245); a REG_WRITE binds setting-latency entries as it is sent (R183). -/
def ctlRun (t n : Nat) : Nat → State → State
  | 0, s => s
  | f + 1, s =>
    let p := port s n
    match p.ctl with
    | [] => s
    | (from_, ty, fields) :: rest =>
      let k := nextSlot p 66 (max from_ p.ctlNext)
      if t ≤ slotAt p k then s else
      let x := tmuAt s (slotAt p k) + (dOf s n).toNat / 1000
      let bytes := ctrlBytes ty (if ty = 0x30 then leBytes 6 (x / 1000000000) ++ leBytes 4 (x % 1000000000) else fields)
      let s := if ty = 0x20 then sentWrite n k fields s else s
      ctlRun t n f (emit (.back n (slotAt p k) bytes) (setPort n (fun p => { p with ctl := rest, ctlNext := k + 1, placed := p.placed ++ [(k, bytes)] }) s))

/-- The MARKERs of a port that begin from now on and before `t`: slot 0 and every 4,096th after it, each with the TMU time at which it begins (R125,
R127). -/
def markersDue (t n : Nat) (s : State) : List (Nat × Nat × List Nat) :=
  let p := port s n
  let a := ceilDiv (slotFrom p s.now) 4096
  (List.range (ceilDiv (slotFrom p t) 4096 - a)).map fun i =>
    let m := a + i
    (4096 * m, hdrMarker, markerBytes 0 (((Config.firstMseq n).toNat + m) % 2 ^ 32) (tmuAt s (slotAt p (4096 * m)) % 2 ^ 48))

/-- The MARKERs and messages of a port that begin before `t` go on record, and the IDLE blocks between advance the scrambler (R122, R125; log 205). -/
def blocksRun (t n : Nat) (ms : List (Nat × Nat × List Nat)) (s : State) : State :=
  let p := port s n
  let due := p.placed.filter fun e => decide (slotAt p e.1 < t)
  if due.isEmpty ∧ ms.isEmpty then s else
  let xs := amongMarkers (due.foldl (fun l e => insertBlock (e.1, hdrCtrl, e.2) l) []) ms
  let x := xs.foldl (blockOut n p) ⟨p.scr, p.sent, []⟩
  let s := setPort n (fun q => { q with placed := q.placed.filter (fun e => ! decide (slotAt p e.1 < t)), scr := x.reg, sent := x.next }) s
  { s with out := x.outs ++ s.out }

/-- The back-channels run up to `t`, not before now: each sends IDLE and markers, and its messages in their slots. -/
def backRun (t : Nat) (s : State) : State :=
  (List.range 16).foldl (fun s n =>
    if (port s n).grid.isNone then s else blocksRun t n (markersDue t n s) (ctlRun t n (port s n).ctl.length s)) s

/-- The increment's limits: 1.0 ± 500 × 10^−6 as u8.32 (R231). -/
def incrLo : Int := 4292819813
def incrHi : Int := 4297114779

def timeNotify (old new : Nat) (stepped : Bool) (size : Int) (s : State) : State :=
  notifySubs 0x05F0 [u8 old, u8 new, u8 (boolNat stepped), s64 size] s

/-- A change of the time unit's state (R233), with its TIME_NOTIFY. -/
def setTmuState (n : Nat) (s : State) : State :=
  let old := s.tmu.state
  if old = n then s else
    let s := setTmu (fun x => { x with state := n }) s
    let s := if old = 2 then rset (tmuBase + 4) 1 s else s
    timeNotify old n false 0 s

/-! ## Time triggers (R242, R243) -/

/-- The first firing at or after `now`, all in TMU ns: start + k × period; a one-shot start already past fires no more. -/
def firstFiring (p : PTtrConfig) (now : Nat) : Option Nat :=
  let start := p.sec * 1000000000 + p.ns
  if p.enable = 0 then none
  else if now ≤ start then some start
  else if p.period = 0 then none
  else some (start + ceilDiv (now - start) p.period * p.period)

/-- Fires time trigger k: its event, its pulse, and its next firing after `now` ns (R242). -/
def fireTtr (k now : Nat) (s : State) : State :=
  match tabGet s.tmu.ttr k with
  | none => s
  | some x =>
    let drive := x.p.drive = 1
    let next := if x.p.period = 0 then none else firstFiring x.p (now + 1)
    let s := setTmu (fun m => { m with ttr := tabPut m.ttr k { x with next := next, pulseEnd := if drive then some (s.now + x.p.pulse * ns) else x.pulseEnd } }) s
    publish (0x0400 + k) (if drive then emit (.pin pinTio k true) s else s)

/-- The first rise of PPS_OUT at or after `now`, in TMU ns: a whole second plus the offset (R241). -/
def ppsFirst (p : PPpsConfig) (now : Nat) : Option Nat :=
  if p.enable = 0 then none else some (ceilDivI ((now : Int) - p.offset) 1000000000 * 1000000000 + p.offset).toNat

/-- Time triggers whose firing times a forward step has passed fire once and count the firings missed (R243). -/
def stepTtr (now : Nat) (s : State) (e : Nat × Ttr) : State :=
  match e.2.next with
  | none => s
  | some t =>
    if now < t then s
    else
      let gone := if e.2.p.period = 0 then 0 else (now - t) / e.2.p.period
      let s := rset (tmuBase + 4) 3 (fireTtr e.1 now s)
      setTmu (fun m => { m with ttr := tabMod m.ttr e.1 fun x => { x with missed := x.missed + gone } }) s

/-- Steps the counter once to `ns` TMU ns (R234): STEP_DONE, STEPPED, TIME_NOTIFY, and the triggers passed (R243). -/
def stepTmu (n : Nat) (s : State) : State :=
  let size : Int := (n : Int) - tmuNs s
  let fwd := 0 < size
  let s := setTmu (fun x => { x with acc := n * 2 ^ 32, stepDone := true }) s
  let s := timeNotify s.tmu.state s.tmu.state true size (rset (tmuBase + 4) 0 s)
  let s := if fwd then s else setTmu (fun x => { x with ppsNext := ppsFirst x.pps n }) s
  if fwd then s.tmu.ttr.foldl (stepTtr n) s else s

/-! ## Discipline (R233 to R236) -/

/-- A servo's increment: free within the limits of R231 (log 12); at the rate limit while the offset fault stands (R235). -/
def servo (offset : Int) (s : State) : State :=
  if s.tmu.offsetFault then setTmu (fun x => { x with incr := (if 0 < offset then incrLo else incrHi).toNat }) s
  else
    let r := takeInt s
    setTmu (fun x => { x with incr := (clampI incrLo incrHi r.1).toNat }) r.2

/-- One offset measurement, in ns: the one step, or the runs of R235 and R236 and a change of rate. -/
def offsetMeasure (offset : Int) (s : State) : State :=
  let s := setTmu (fun x => { x with offset := offset, lastMsg := s.now }) s
  if s.tmu.state = 1 ∧ ! s.tmu.stepDone ∧ s.tmu.source = 1 then
    stepTmu ((tmuNs s : Int) - offset).toNat s
  else if s.tmu.state = 0 then s
  else
    let good := if offset.natAbs < 100 then s.tmu.good + 1 else 0
    let bad := if 1000000 < offset.natAbs then s.tmu.bad + 1 else 0
    let s := setTmu (fun x => { x with good := min good 16, bad := min bad 16 }) s
    let s := if 16 ≤ good then setTmuState 2 (setTmu (fun x => { x with offsetFault := false }) s) else s
    let s := if 16 ≤ bad ∧ (s.tmu.state = 2 ∨ s.tmu.state = 3) then setTmu (fun x => { x with offsetFault := true }) s else s
    servo offset s

/-- The unit enters HOLDOVER (R236, R245). -/
def holdover (s : State) : State :=
  publish 0x0411 (rset (tmuBase + 4) 2 (setTmuState 3 (setTmu (fun x => { x with good := 0, bad := 0 }) s)))

/-- The source has fallen silent: 3 s for PTP, 1.5 s for PPS (R236). -/
def sourceLoss (s : State) : State :=
  let limit := if s.tmu.source = 1 then 3 * secPs else 1500 * ms
  if s.tmu.source = 0 ∨ s.tmu.state = 0 ∨ s.tmu.state = 3 ∨ s.now < s.tmu.lastMsg + limit then s
  else holdover s

/-- A rising PPS_IN edge: the step after TIME_SET, or an offset measurement (R240). Every edge is one of the source's (R236). -/
def ppsInEdge (s : State) : State :=
  if s.tmu.source ≠ 2 ∨ s.dev.asleep then s else
  let s := setTmu (fun x => { x with lastMsg := s.now }) s
  match s.tmu.ppsSec with
  | some sec =>
    if s.tmu.stepDone then s
    else stepTmu (sec * 1000000000) (setTmu (fun x => { x with ppsSec := none }) s)
  | none =>
    let sub := tmuSub s
    let off : Int := if sub < 500000000 then sub else (sub : Int) - 1000000000
    if 1000000 < off.natAbs then setTmu (fun x => { x with ppsBad := x.ppsBad + 1 }) s
    else if s.tmu.stepDone then offsetMeasure off s else s

/-- PPS_OUT rises when the TMU time has passed its next rise, and falls after its width (R241). -/
def ppsOutEdge (rise : Bool) (s : State) : State :=
  let out : Bool → State → State := fun v s => emit (.pin pinPpsOut 0 v) (setTmu (fun x => { x with ppsHigh := v }) s)
  if s.dev.asleep ∨ s.tmu.ppsHigh = rise then s
  else if ! rise then (if s.tmu.ppsFall ≤ s.now then out false s else s)
  else match s.tmu.ppsNext with
    | some t =>
      if tmuNs s < t then s
      else out true (setTmu (fun x => { x with ppsNext := ppsFirst x.pps (tmuNs s + 1), ppsFall := s.now + x.pps.width * ns }) s)
    | none => s

/-! ## PTP (R237): messages, mastership, offset and delay as IEEE 1588-2019 and its default profiles give them (log 13) -/

def setPtp (f : Ptp → Ptp) (s : State) : State := setTmu (fun x => { x with ptp := f x.ptp }) s

/-- The identity of the PTP port: its clock's, and port 1. -/
def ptpSelf : List Nat := beBytes 8 Config.clockIdentity.toNat ++ [0, 1]

def beNat (bs : List Nat) : Nat := bs.foldl (fun a b => a * 256 + b) 0

/-- What masters rank by, in its order: priority 1, class, accuracy, variance, priority 2, identity, steps removed. -/
def rankOf (m : PtpMsg) : List Nat := [m.prio1, m.cls, m.accuracy, m.variance, m.prio2, beNat m.identity, m.steps]

/-- The rank of the device's own clock. -/
def ownRank (p : PPtpConfig) : List Nat :=
  let q := Config.clockQuality.toNat
  [p.prio1, q / 2 ^ 24, q / 2 ^ 16 % 256, q % 2 ^ 16, p.prio2, Config.clockIdentity.toNat, 0]

/-- The first rank is the better one. -/
def outranks : List Nat → List Nat → Bool
  | a :: r, b :: t => decide (a < b) || (a == b && outranks r t)
  | _, _ => false

def ptpStamp (n : Nat) : List Nat := beBytes 6 (n / 1000000000) ++ beBytes 4 (n % 1000000000)

/-- A PTP message of a type: flags, correction in ns, sequence, log interval, body. -/
def ptpBytes (p : PPtpConfig) (type flags : Nat) (corr : Int) (seq : Nat) (log : Int) (body : List Nat) : List Nat :=
  let ctl := match type with | 0 => 0 | 1 => 1 | 8 => 2 | 9 => 3 | _ => 5
  [type, 0x12] ++ beBytes 2 (34 + body.length) ++ [p.domain % 256, 0] ++ beBytes 2 flags ++ beBytes 8 (toUnsigned 64 (corr * 65536))
    ++ [0, 0, 0, 0] ++ ptpSelf ++ beBytes 2 (seq % 65536) ++ [ctl, toUnsigned 8 log] ++ body

/-- Sends a PTP message on the port's interface over its transport (R237, R239); types 2, 3 and 10 are the peer messages, types below 4
the event messages. -/
def ptpSend (type flags : Nat) (corr : Int) (seq : Nat) (log : Int) (body : List Nat) (s : State) : State :=
  let p := s.tmu.ptp.p
  let msg := ptpBytes p type flags corr seq log body
  let peer := type = 2 ∨ type = 3 ∨ type = 10
  let udp := if type < 4 then 319 else 320
  let ttl := if peer then 1 else (Config.ipOpen 4).toNat
  emit (.frame p.iface 0 (match p.transport with
    | 0 => ethFrame p.iface (if peer then [0x01, 0x80, 0xC2, 0, 0, 0x0E] else [0x01, 0x1B, 0x19, 0, 0, 0]) 0x88F7 msg
    | 1 => udpFrame s p.iface false ttl [224, 0, if peer then 0 else 1, if peer then 107 else 129] udp udp (if p.oneStep = 1 then 0 else 1) msg
    | _ => udpFrame s p.iface true ttl ([0xFF, if peer then 0x02 else 0x0E] ++ List.replicate 12 0 ++ if peer then [0, 0x6B] else [1, 0x81])
             udp udp (if p.oneStep = 1 then 2 else 1) msg)) s

/-- 2^l s in ps. -/
def logPs (l : Int) : Nat := if 0 ≤ l then secPs * 2 ^ l.toNat else secPs / 2 ^ (-l).toNat

/-- The offset measurement a complete Sync gives, once a path delay is known. -/
def ptpOffset (y : PtpSync) (s : State) : State :=
  if s.tmu.ptp.haveDelay ∧ s.tmu.source = 1 then offsetMeasure ((y.t2 : Int) - y.t1 - y.corr - s.tmu.ptp.meanDelay) s else s

/-- A Sync, or the Follow_Up that completes one. -/
def ptpSync (m : PtpMsg) (t : Nat) (s : State) : State :=
  if m.kind = 0 then
    let y : PtpSync := ⟨m.seq, m.ts, m.corr, t, m.twoStep⟩
    let s := setPtp (fun p => { p with sync := some y }) s
    if m.twoStep then s else ptpOffset y s
  else match s.tmu.ptp.sync with
    | some y =>
      let y := { y with t1 := m.ts, corr := y.corr + m.corr, await := false }
      if (s.tmu.ptp.sync.map fun o => o.await) = some true ∧ y.seq = m.seq then ptpOffset y (setPtp (fun p => { p with sync := some y }) s) else s
    | none => s

/-- An Announce: a better master than the one heard takes its place, and a port that is not slave-only is master where its own clock
ranks above it. -/
def ptpAnnounce (m : PtpMsg) (s : State) : State :=
  let p := s.tmu.ptp
  let take := match p.parent with | some (who, rank) => who == m.sender || outranks (rankOf m) rank | none => true
  if ! take then s else
  let mine := p.p.slaveOnly = 0 ∧ outranks (ownRank p.p) (rankOf m)
  setTmu (fun x => { x with lastMsg := if x.source = 1 then s.now else x.lastMsg }) (setPtp (fun p => { p with
    parent := some (m.sender, rankOf m), annAt := s.now, identity := m.identity, utc := m.utc, master := decide mine }) s)

/-- The answer to a delay request: a master's Delay_Resp, or the peer's Pdelay_Resp, followed up in two-step operation. -/
def ptpAnswer (m : PtpMsg) (t : Nat) (s : State) : State :=
  let p := s.tmu.ptp
  if m.kind = 2 then
    if p.master ∧ p.p.profile = 0 then ptpSend 9 0 m.corr m.seq p.p.delayLog (ptpStamp t ++ m.sender) s else s
  else if p.p.profile ≠ 1 then s
  else if p.p.oneStep = 1 then ptpSend 3 0 m.corr m.seq 127 (ptpStamp 0 ++ m.sender) s
  else ptpSend 10 0 m.corr m.seq 127 (ptpStamp t ++ m.sender) (ptpSend 3 0x200 0 m.seq 127 (ptpStamp t ++ m.sender) s)

/-- A received PTP message, stamped with the TMU time. Only what the master heard sends is the source's (R236). -/
def ptpMessage (m : PtpMsg) (s : State) : State :=
  let p := s.tmu.ptp
  if s.dev.asleep ∨ m.domain ≠ p.p.domain ∨ m.iface ≠ p.p.iface ∨ m.transport ≠ p.p.transport ∨ m.sender = ptpSelf then s else
  let t := tmuNs s
  let ofMaster := (p.parent.map fun x => x.1) = some m.sender
  let s := if ofMaster ∧ s.tmu.source = 1 then setTmu (fun x => { x with lastMsg := s.now }) s else s
  let delay : Int → State := fun d => setPtp (fun p => { p with t3 := none, pd := none, meanDelay := d, haveDelay := true }) s
  match m.kind with
  | 0 | 1 => if ofMaster ∧ ! p.master then ptpSync m t s else s
  | 2 | 5 => ptpAnswer m t s
  | 3 => match p.t3, p.sync with
    | some (q, t3), some y =>
      if m.req = ptpSelf ∧ m.seq = q ∧ p.p.profile = 0 ∧ ! y.await then delay (Int.fdiv ((y.t2 : Int) - y.t1 - y.corr + (m.ts - t3 - m.corr)) 2) else s
    | _, _ => s
  | 4 => ptpAnnounce m s
  | 6 => match p.t3 with
    | some (q, t3) =>
      if m.req ≠ ptpSelf ∨ m.seq ≠ q ∨ p.p.profile ≠ 1 then s
      else if m.twoStep then setPtp (fun p => { p with pd := some ((m.ts : Int) - m.corr, t) }) s
      else delay (Int.fdiv ((t : Int) - t3 - m.corr) 2)
    | none => s
  | 7 => match p.t3, p.pd with
    | some (q, t3), some (t2, t4) => if m.req = ptpSelf ∧ m.seq = q then delay (Int.fdiv (((t4 : Int) - t3) - ((m.ts : Int) - t2) - m.corr) 2) else s
    | _, _ => s
  | _ => s

/-- Three Announce intervals without one: the master heard is gone, and a port that is not slave-only becomes master. -/
def announceTimeout (s : State) : State :=
  let p := s.tmu.ptp
  if s.now < p.annAt + 3 * logPs p.p.annLog ∨ p.master then s
  else setPtp (fun p => { p with parent := none, master := p.p.slaveOnly == 0 }) s

/-- Whether a message of the port may go now: a master's Sync and Announce at their intervals, a slave's Delay_Req of the E2E profile,
and Pdelay_Req of the P2P profile at its interval. -/
def ptpDue (kind : Nat) (p : Ptp) (now : Nat) : Bool :=
  let after : Int → Bool := fun l => match tabGet p.sent kind with | some t => decide (t + logPs l ≤ now) | none => true
  match kind with
  | 0 => p.master && after p.p.syncLog
  | 4 => p.master && after p.p.annLog
  | 2 => ! p.master && p.parent.isSome && p.p.profile == 0
  | 5 => p.p.profile == 1 && after p.p.delayLog
  | _ => false

/-- A PTP message interval of the port expires (R237). -/
def ptpTxDue (kind : Nat) (s : State) : State :=
  if s.dev.asleep then s else
  let s := announceTimeout s
  let p := s.tmu.ptp
  if ! ptpDue kind p s.now then s else
  let t := tmuNs s
  let q := (tabGet p.seqs kind).getD 0
  let s := setPtp (fun p => { p with seqs := tabPut p.seqs kind ((q + 1) % 65536), sent := tabPut p.sent kind s.now
                                     t3 := if kind = 2 ∨ kind = 5 then some (q, t) else p.t3, pd := if kind = 5 then none else p.pd }) s
  match kind with
  | 0 => if p.p.oneStep = 1 then ptpSend 0 0 0 q p.p.syncLog (ptpStamp t) s
         else ptpSend 8 0 0 q p.p.syncLog (ptpStamp t) (ptpSend 0 0x200 0 q p.p.syncLog (ptpStamp 0) s)
  | 2 => ptpSend 1 0 0 q 127 (ptpStamp 0) s
  | 5 => ptpSend 2 0 0 q 127 (ptpStamp 0 ++ List.replicate 10 0) s
  | _ => ptpSend 11 0x0C 0 q p.p.annLog (ptpStamp 0 ++ beBytes 2 (toUnsigned 16 p.utc) ++ [0, p.p.prio1] ++ beBytes 4 Config.clockQuality.toNat
           ++ [p.p.prio2] ++ beBytes 8 Config.clockIdentity.toNat ++ [0, 0, 0xA0]) s

/-! ## Time captures (R244) -/

/-- A capture of TCP[k]: the TMU time to 1 ns, or one discarded when the FIFO is full; none while asleep (R244, R245). -/
def tcpCapture (k : Nat) (s : State) : State :=
  if s.dev.asleep then s else
  match tabGet s.tmu.tcp k with
  | none => s
  | some x =>
    if x.fifo.length < 16 then
      setTmu (fun m => { m with tcp := tabPut m.tcp k { x with fifo := x.fifo ++ [(tmuSec s, tmuSub s)] } }) s
    else rset (tmuBase + 4) 4 (setTmu (fun m => { m with tcp := tabPut m.tcp k { x with missed := x.missed + 1 } }) s)

/-- Whether an edge matches an edge setting: 0 rising, 1 falling, 2 both. -/
def edgeOk (setting : Nat) (rising : Bool) : Bool := setting = 2 || (setting = 0 && rising) || (setting = 1 && ! rising)

/-- An edge on TIO[k], set as an input (R244, R245). -/
def tioCapture (k : Nat) (rising : Bool) (s : State) : State :=
  match tabGet s.tmu.tcp k with
  | some x => if x.p.source = 0 ∧ edgeOk x.p.edge rising then tcpCapture k s else s
  | none => s

/-- A time trigger's firing time comes (R242). -/
def ttrDue (k : Nat) (s : State) : State :=
  match tabGet s.tmu.ttr k with
  | some x => match x.next with
    | some t => if t ≤ tmuNs s ∧ ! s.dev.asleep then fireTtr k t s else s
    | none => s
  | none => s

/-- A time trigger's pulse ends (R242). -/
def tioPulseEnd (k : Nat) (s : State) : State :=
  match tabGet s.tmu.ttr k with
  | some x => match x.pulseEnd with
    | some t => if t ≤ s.now then emit (.pin pinTio k false) (setTmu (fun m => { m with ttr := tabPut m.ttr k { x with pulseEnd := none } }) s) else s
    | none => s
  | none => s

/-! ## Registers (R247) -/

def tmuStat (s : State) : Nat :=
  s.tmu.state + boolNat s.tmu.stepDone * 4 + s.tmu.source * 8 + boolNat s.tmu.offsetFault * 32

/-- GO of a link's snapshot: the time is latched and VALID reads 0 until the snapshot completes (R247). -/
def tmuSnapGo (link : Nat) (s : State) : State :=
  rfield (tmuBase + 0x1004 + link * 0x100) 31 1 0 (setTmu (fun x => { x with snap := tabPut x.snap link x.acc }) s)

def tmuSnapComplete (link : Nat) (s : State) : State :=
  match tabGet s.tmu.snap link with
  | none => s
  | some a =>
    let b := tmuBase + 0x1000 + link * 0x100
    let n := a / 2 ^ 32
    let sec := n / 1000000000 % 2 ^ 48
    let s := setTmu (fun x => { x with snap := tabDel x.snap link }) s
    rput (b + 0x10) (sec / 2 ^ 32) (rput (b + 0xC) sec (rput (b + 8) (n % 1000000000) (rput (b + 4) (a % 2 ^ 32 / 2 ^ 16 + 2 ^ 31) s)))

/-! ## Commands of family 0x05 (R249, R251) -/

def timeSource (p : PTimeSource) : Cmd := mkTimeSource p fun _ p s =>
  let s := setTmu (fun x => { x with source := p.source, good := 0, bad := 0, lastMsg := s.now, ppsSec := none, offsetFault := false
                                     incr := if p.source = 0 then 4294967296 else x.incr }) s
  .ok (setTmuState (if p.source = 0 then 0 else 1) s) []

def timeSet (p : PTimeSet) : Cmd := mkTimeSet p fun _ p s =>
  if s.tmu.stepDone ∨ s.tmu.source = 1 then .no eBusy []
  else if s.tmu.source = 2 then .ok (setTmu (fun x => { x with ppsSec := some p.sec }) s) []
  else .ok (stepTmu (p.sec * 1000000000 + p.ns) s) []

def timeRelearn : Cmd := mkTimeRelearn fun _ s =>
  let s := setTmu (fun x => { x with stepDone := false, good := 0, bad := 0, offsetFault := false }) s
  .ok (publish 0x0410 (rset (tmuBase + 4) 1 (setTmuState (if s.tmu.source = 0 then 0 else 1) s))) []

/-- The increment's deviation from 1.0 in parts of 10^12. -/
def ratePpt (s : State) : Int := Int.fdiv (((s.tmu.incr : Int) - 4294967296) * 1000000000000) 4294967296

def timeStatus : Cmd := mkTimeStatus fun _ s =>
  .ok s ([u32 (tmuStat s), s64 s.tmu.offset, s32 (ratePpt s), .num 4 (max 0 s.tmu.ptp.meanDelay)] ++ (s.tmu.ptp.identity.take 8).map u8 ++ [s16 s.tmu.ptp.utc])

def ptpConfig (p : PPtpConfig) : Cmd := mkPtpConfig p fun _ p s =>
  .ok (setPtp (fun o => { p := p, seqs := o.seqs, annAt := s.now, identity := o.identity, utc := o.utc }) s) []

def ppsConfig (p : PPpsConfig) : Cmd := mkPpsConfig p fun _ p s => .ok (setTmu (fun x => { x with pps := p, ppsNext := ppsFirst p (tmuNs s) }) s) []

def ttrConfig (p : PTtrConfig) : Cmd := mkTtrConfig p
  (fun _ p s => .ok (setTmu (fun x => { x with ttr := tabPut x.ttr p.trig { (tabGet x.ttr p.trig).getD { p := p, next := none } with p := p, next := firstFiring p (tmuNs s) } }) s) [])
  (fun p s => match tabGet s.tmu.tcp p.trig with
    | some c => if p.drive = 1 ∧ c.p.source = 0 then some (eParam, []) else none
    | none => none)

def tcpConfig (p : PTcpConfig) : Cmd := mkTcpConfig p
  (fun _ p s => .ok (setTmu (fun x => { x with tcp := tabPut x.tcp p.cap { (tabGet x.tcp p.cap).getD { p := p } with p := p } }) s) [])
  (fun p s => match tabGet s.tmu.ttr p.cap with
    | some x => if x.p.drive = 1 then some (eParam, []) else none
    | none => none)

def tcpRead (p : PTcpRead) : Cmd := mkTcpRead p fun _ p s =>
  match tabGet s.tmu.tcp p.cap with
  | none => .ok s []
  | some x =>
    .ok (setTmu (fun m => { m with tcp := tabPut m.tcp p.cap { x with fifo := x.fifo.drop p.max } }) s)
      ((x.fifo.take p.max).flatMap fun e => [.align 8, u64 e.1, u32 e.2, .align 8])

end Sys2Proof.Machine
end

