-- ==== Sys2Proof/Machine/Position.lean ====
section
/-! DEFINITION. Sys2Proof/Machine/Position.lean: the position unit (chapter 05): axes, line-trigger generators, compare channels,
latches, and the commands of family 0x04. -/

namespace Sys2Proof.Machine

/-! ## Axes (R212, R213, R688) -/

def axis (s : State) (a : Nat) : Axis := s.pos.axes.getD a {}

def setAxis (a : Nat) (f : Axis → Axis) (s : State) : State :=
  { s with pos := { s.pos with axes := listMod s.pos.axes a f } }

def encCfg (s : State) (a : Nat) : PEncConfig :=
  (tabGet s.cfg.enc a).getD ⟨a, 0, 4, 4294967296, 0, 0, 8, 0, 100, 10000, 0⟩

/-- Observer and motion settings with their defaults (R215, R217, R218). -/
def obsCfg (s : State) (a : Nat) : PObserverSet := (tabGet s.cfg.obs a).getD ⟨a, 100, 4, 8, 20⟩

/-- The fraction measured upward from the count (R213); an axis in FAULT holds its position (R208, R211). -/
def fracAt (x : Axis) (t : Nat) : Nat :=
  let t := match x.heldAt with | some h => min t h | none => t
  let f := match x.te, x.tp with
    | some te, some tp => if x.de ≠ 0 ∧ x.de = x.dp ∧ tp < te then min 65535 (65536 * (t - te) / (te - tp)) else 0
    | _, _ => 0
  match x.te with
  | none => 0
  | some _ => if x.de < 0 then 65535 - f else f

/-- The interpolated position in 1/65,536 counts. -/
def posAt (x : Axis) (t : Nat) : Int := x.count * 65536 + fracAt x t

/-- The MD position, nm (R212). -/
def mdOf (s : State) (a : Nat) (x : Axis) (pos : Int) : Int :=
  x.md0 + roundDivUp ((pos - x.ref) * (encCfg s a).scale) (2 ^ 48)

/-- The position 2 ns earlier, from which a crossing at the present instant is judged (R219, R226; log 88). -/
def posBefore (x : Axis) (t : Nat) : Int := if t ≤ x.since + 2 * ns then x.before else posAt x (t - 2 * ns)

/-- The MD position of an axis at a time at which it has not moved on. -/
def mdAt (s : State) (a t : Nat) : Int := mdOf s a (axis s a) (posAt (axis s a) t)

def mdNow (s : State) (a : Nat) : Int := mdAt s a s.now

/-- The MD position of an axis reaches `md` in a direction at the present instant, within 2 ns (R219, R226, R227). -/
def reaches (s : State) (a : Nat) (md : Int) (fwd : Bool) : Bool :=
  let was := mdOf s a (axis s a) (posBefore (axis s a) s.now)
  if fwd then decide (was < md ∧ md ≤ mdNow s a) else decide (mdNow s a ≤ md ∧ md < was)

/-- The web axis: that of the generator of the lowest mapped stream (R214). -/
def webAxis (s : State) : Option Nat :=
  (s.cfg.maps.filter fun e => lineStream s e.1).findSome? fun e => match tabGet s.cfg.streams e.1 with
    | some st => (tabGet s.cfg.ltg st.trig).map fun g => g.axis
    | none => none

/-- Web axis position, 0 when there is none. -/
def webMd (s : State) : Int := match webAxis s with | some a => mdNow s a | none => 0

def posNotify (a kind : Nat) (s : State) : State :=
  notifySubs 0x04F0 [u8 a, u8 kind, u64 (toUnsigned 48 (axis s a).count), s64 (mdNow s a)] s

/-- Generators of an axis forget the boundaries they have fired (R220). -/
def forgetFired (a : Nat) (s : State) : State :=
  let of_ : Nat → Bool := fun g => match tabGet s.cfg.ltg g with | some c => c.axis == a | none => false
  { s with pos := { s.pos with ltg := s.pos.ltg.map fun e => if of_ e.1 then (e.1, { e.2 with top := none, lastN := none }) else e } }

/-- Starts or restarts an axis (R688). -/
def axisStart (a type : Nat) (s : State) : State :=
  forgetFired a (setAxis a (fun x => { state := if type = 0 then 0 else 1, since := s.now, trail := [(s.now, 0)], la := x.la, lb := x.lb, illegal := x.illegal, zMis := x.zMis, serErr := x.serErr }) s)

/-- Position of a compare channel's pointer in a new frame: the entries at or below the position (R224, R226). -/
def cmpPlace (s : State) (c : PCmpConfig) (md : Int) : Nat :=
  ((List.range (if c.mode = 0 then c.len else 0)).filter fun i => match tabGet s.pos.cmpMem (c.base + i) with | some e => e.md ≤ md | none => false).length

/-- The compare channels of an axis find their place (R224). -/
def cmpReplace (a : Nat) (s : State) : State :=
  { s with pos := { s.pos with cmp := s.cfg.cmp.foldl (fun t e => if e.2.axis = a then
      tabPut t e.1 { (tabGet t e.1).getD {} with ptr := cmpPlace s e.2 (mdNow s a) } else t) s.pos.cmp } }

def setFep (f : Fep → Fep) (s : State) : State := { s with fep := f s.fep }

def elxReg (k o : Nat) : Nat := elxBase + 0x100 + k * 0x20 + o

/-- A cluster has completed the last line of a strip (R254); the measured load of the strip is a free value (log 3). -/
def stripDone (k : Nat) (s : State) : State :=
  let r := takeNat s
  let last := r.1 % 65536
  let s := rfield (elxReg k 8) 0 16 last r.2
  let s := if rget (elxReg k 8) s / 65536 < last then rfield (elxReg k 8) 16 16 last s else s
  publish (0x0500 + k) s

/-- The web line entered last is the last of its strip, which was closed early: its tag is SHORT, and each band's cluster completes the strip
with it, at once where it has passed it (R199, R254). A cluster that skipped it does not (log 211). -/
def lastOfStrip (n : Int) (s : State) : State :=
  let k := s.elx.lastWeb
  let short : WebLine → WebLine := fun l => if l.ser = k then { l with short := true } else l
  let onWay : Clu → Bool := fun c => (c.inq.any fun l => l.ser == k) || (c.backlog.any fun l => l.ser == k) || c.hist.any fun r => r.ser == k && decide (c.passed ≤ r.ser)
  let done := (s.elx.clu.filter fun e => ! onWay e.2 && decide (0 < e.2.lines ∧ e.2.last = n)).map fun e => e.1
  let mark : Clu → Clu := fun c => { c with
    inq := c.inq.map short, backlog := c.backlog.map short, ending := if onWay c then c.ending ++ [k] else c.ending }
  let x := s.elx
  done.foldl (fun s k => stripDone k s) { s with elx := { x with
    clu := x.clu.map fun e => (e.1, mark e.2)
    web := { x.web with rows := x.web.rows.map fun r => { r with line := short r.line } } } }

/-- The open strip closes early, at the last line entered: STRIP_END at once (R192, R584). -/
def closeStrip (s : State) : State :=
  match s.fep.strip, s.fep.hwm with
  | some _, some n => publish 0x0202 (lastOfStrip n (setFep (fun f => { f with strip := none }) s))
  | _, _ => s

/-- The exposures due of an axis can no longer enter the web (R189, R192). -/
def dropExps (a : Nat) (s : State) : State :=
  let ofAxis : Nat → Bool := fun g => match tabGet s.cfg.ltg g with | some c => c.axis == a | none => false
  { s with pos := { s.pos with exps := s.pos.exps.map fun e => if ofAxis e.gen then { e with web := false } else e } }

/-- A new origin on the web axis (R192): the strip closes, the high-water mark clears, the web graph restarts (R258), and
the marking heads take their new FIRE_HWM (R353). -/
def originFep (a : Nat) (s : State) : State :=
  if webAxis s ≠ some a then s
  else
    let s := setFep (fun f => { f with hwm := none, fresh := true, restart := true, hist := [], prev := [], adv := none, trigQ := [] }) (dropExps a (closeStrip s))
    { s with mrk := { s.mrk with origin := true } }

/-- Sets the origin of an axis: md0 at the position `pos` (R223, R224, R688). -/
def setOrigin (a : Nat) (md0 pos : Int) (s : State) : State :=
  let s := setAxis a (fun x => { x with md0 := md0, ref := pos, origin := true, pendO := none }) s
  posNotify a 0 (originFep a (cmpReplace a (forgetFired a s)))

/-- The axis enters FAULT and holds its position (R208, R211, R217). -/
def axisFault (a : Nat) (s : State) : State :=
  if (axis s a).state ≠ 1 then s else
  posNotify a 1 (rset (posBase + 0x10 + 4 * a) 3 (setAxis a (fun x => { x with state := 2, pendO := none, heldAt := some s.now }) s))

/-- A change of reported direction (R217); to reverse, generators in mode FORWARD start afresh (R220), and the lines of a web
stream triggered before it take no further part (R189). -/
def turn (a : Nat) (rev : Bool) (s : State) : State :=
  let s := setAxis a (fun x => { x with rev := rev, ext := x.count }) s
  let fwdOf : Nat → Bool := fun g => match tabGet s.cfg.ltg g with | some c => c.axis == a && c.mode == 0 | none => false
  let gens := s.pos.ltg.map fun e => if fwdOf e.1 then (e.1, { e.2 with top := none }) else e
  let s := if rev then { s with pos := { s.pos with ltg := gens } } else s
  let s := if rev ∧ webAxis s = some a then dropExps a { s with fep := { s.fep with hist := [] } } else s
  publish (0x0300 + a) (posNotify a (if rev then 2 else 3) (rset (posBase + 0x10 + 4 * a) 6 s))

/-- Direction after a move (R217). -/
def judgeTurn (a : Nat) (s : State) : State :=
  let x := axis s a
  let h : Int := (obsCfg s a).hyst
  if ! x.rev then
    if x.count + h ≤ x.ext then turn a true s
    else if x.ext < x.count then setAxis a (fun x => { x with ext := x.count }) s else s
  else
    if x.ext + h ≤ x.count then turn a false s
    else if x.count < x.ext then setAxis a (fun x => { x with ext := x.count }) s else s

/-- Clusters wake (R48). -/
def wakeClusters (mask : Nat) (s : State) : State := rfield elxBase 0 16 (rget elxBase s ||| mask) s

/-- The clusters that the working configuration set gives a band or the verification graph (R200, R256). -/
def bandMask (s : State) : Nat :=
  (match s.cfg.geom with | some g => 2 ^ g.bands - 1 | none => 0) ||| (match s.cfg.verify with | some x => 2 ^ x.cluster | none => 0)

/-- The clusters that hold a band or the verification graph. -/
def banded (s : State) : Nat := rget elxBase s / 65536

/-- Clusters that hold a band wake (R48); AUTO ports return to ACTIVE (R147). -/
def wakeAll (s : State) : State :=
  let s := wakeClusters (banded s) s
  (List.range 16).foldl (fun s n => wakePort n s) s

/-- The axis starts moving (R218). -/
def motionStart (a : Nat) (s : State) : State :=
  let s := publish (0x0304 + a) (setAxis a (fun x => { x with moving := true }) s)
  if webAxis s = some a then wakeAll (publish 0x030C s) else s

/-- Motion after a move: departure by more than START_DIST from the last stop (R218). -/
def judgeMotion (a : Nat) (s : State) : State :=
  let x := axis s a
  if ! x.moving ∧ (obsCfg s a).startDist < (x.count - x.stopCount).natAbs then motionStart a s else s

/-- Keeps the counts of the last STOP_TIME, and the newest one before it. -/
def trimTrail (from_ : Nat) : List (Nat × Int) → List (Nat × Int)
  | [] => []
  | e :: r => if e.1 < from_ then [e] else e :: trimTrail from_ r

/-- Keeps the counts of the last STOP_TIME, and the three newest before it, from which a past position is interpolated. -/
def keepTrail (from_ : Nat) : List (Nat × Int) → List (Nat × Int)
  | [] => []
  | e :: r => if e.1 < from_ then e :: r.take 2 else e :: keepTrail from_ r

/-- The interpolated position at a past instant, in 1/65,536 counts (R213): none before the axis's first move. -/
def posAgo (x : Axis) (t : Nat) : Option Int :=
  match x.trail.dropWhile fun e => decide (t < e.1) with
  | e :: p :: q :: _ =>
    let de := e.2 - p.2
    let dp := p.2 - q.2
    let f := if ((0 < de ∧ 0 < dp) ∨ (de < 0 ∧ dp < 0)) ∧ p.1 < e.1 then min 65535 (65536 * (t - e.1) / (e.1 - p.1)) else 0
    some (e.2 * 65536 + (if de < 0 then 65535 - (f : Int) else f))
  | [e, p] => some (e.2 * 65536 + if e.2 < p.2 then 65535 else 0)
  | [e] => some (e.2 * 65536)
  | [] => x.trail.getLast?.map fun e => e.2 * 65536

/-- The count moves by `d` at the present instant (R208, R213, R217, R218). -/
def moveCount (a : Nat) (d : Int) (s : State) : State :=
  let keep := s.now - (obsCfg s a).stopMs * ms
  let s := setAxis a (fun x => { x with
    since := s.now, before := posAt x (s.now - 2 * ns)
    count := x.count + d, tp := x.te, te := some s.now, dp := x.de, de := if d < 0 then -1 else if 0 < d then 1 else 0
    trail := keepTrail keep ((s.now, x.count + d) :: x.trail) }) s
  judgeMotion a (judgeTurn a s)

/-- The step along the quadrature sequence from levels (la, lb) to (a, b), A leading forward (log 14). -/
def quadStep (la lb a b : Bool) : Int :=
  match la, lb, a, b with
  | false, false, true, false | true, false, true, true | true, true, false, true | false, true, false, false => 1
  | false, false, false, true | false, true, true, true | true, true, true, false | true, false, false, false => -1
  | _, _, _, _ => 0

/-- Accepted levels of A and B on a quadrature axis (R208). -/
def encoderEdge (n : Nat) (a b : Bool) (s : State) : State :=
  let x := axis s n
  let c := encCfg s n
  let s := setAxis n (fun x => { x with la := a, lb := b }) s
  if x.state = 0 ∨ c.type ≠ 1 then s
  else if x.la ≠ a ∧ x.lb ≠ b then
    let times := s.now :: x.badTimes.filter fun t => s.now < t + ms
    let s := setAxis n (fun x => { x with illegal := min (x.illegal + 1) 0xFFFFFFFF, badTimes := times.take 17, lastBad := s.now }) s
    let s := rset (posBase + 0x10 + 4 * n) 0 s
    if 16 < times.length then axisFault n s else s
  else
    let d := quadStep x.la x.lb a b
    if d = 0 ∨ x.state = 2 then s else moveCount n (if c.invert = 1 then -d else d) s

/-! ## Latches (R229, R230) -/

/-- A capture of a latch at the present instant; DONE is raised by the caller's route. True when it was stored. -/
def storeCapture (l : Nat) (s : State) : Bool × State :=
  let a := match tabGet s.cfg.latches l with | some c => c.axis | none => 0
  let x := axis s a
  let lat := (tabGet s.pos.latch l).getD {}
  if lat.fifo.length < 16 then
    let cap : LatCap := ⟨x.count, fracAt x s.now, mdNow s a, tmuSec s, tmuSub s⟩
    (true, { s with pos := { s.pos with latch := tabPut s.pos.latch l { lat with fifo := lat.fifo ++ [cap] } } })
  else
    (false, rset (posBase + 0x10 + 4 * a) 5
      { s with pos := { s.pos with latch := tabPut s.pos.latch l { lat with ovfl := min (lat.ovfl + 1) 0xFFFFFFFF } } })

/-- Axes whose AT_LATCH origin waits for latch l (R223). -/
def latchOrigins (l : Nat) (s : State) : List Nat :=
  (List.range 4).filter fun a => match (axis s a).pendO with | some p => p.mode = 2 && p.latch = l | none => false

/-- Applies a pending origin of an axis at its present position. -/
def applyPendO (s : State) (a : Nat) : State :=
  match (axis s a).pendO with
  | some p => if (axis s a).state = 1 then setOrigin a p.md0 (posAt (axis s a) s.now) s else s
  | none => s

/-- An edge reaches a latch: the capture, and the origins that wait for it (R223, R229). -/
def latchEdge (l : Nat) (origin : Option Nat) (s : State) : State :=
  let r := storeCapture l s
  if r.1 then publishFrom origin (0x0340 + l) ((latchOrigins l r.2).foldl applyPendO r.2) else r.2

def latchInputEdge (l : Nat) (rising : Bool) (s : State) : State :=
  match tabGet s.cfg.latches l with
  | some c => if c.source = 0 ∧ edgeOk c.edge rising then latchEdge l none s else s
  | none => s

/-- A rising Z edge of a running axis: the Z check and AT_Z origins (R209, R223). -/
def zRise (a : Nat) (s : State) : State :=
  let x := axis s a
  let nz := (encCfg s a).nz
  let wasBad := match x.lastZ with
    | some (c, d) => nz != 0 && d == x.de && 2 < (((x.count - c).natAbs : Int) - nz).natAbs
    | none => false
  let s := setAxis a (fun x => { x with lastZ := some (x.count, x.de), zMis := if wasBad then min (x.zMis + 1) 0xFFFFFFFF else x.zMis }) s
  let s := if wasBad then rset (posBase + 0x10 + 4 * a) 1 s else s
  match x.pendO with
  | some p => if p.mode = 1 then setOrigin a p.md0 (posAt (axis s a) s.now) s else s
  | none => s

/-- An edge of ENC_Z: what a rising one does on a running axis, and the latches that it feeds (R229). -/
def zEdge (a : Nat) (rising : Bool) (s : State) : State :=
  let s := if rising ∧ (axis s a).state = 1 then zRise a s else s
  s.cfg.latches.foldl (fun s e => if e.2.source = 1 ∧ e.2.axis = a ∧ edgeOk e.2.edge rising then latchEdge e.1 none s else s) s

/-! ## Serial encoders (R210, R211) -/

def serialSample (a : Nat) (s : State) : State :=
  if (axis s a).state = 0 ∨ (encCfg s a).type < 2 then s
  else setAxis a (fun x => { x with sampleAt := s.now + (encCfg s a).lineDelayNs * ns }) s

def crc6Bits : Nat → Nat → Nat → Nat
  | 0, _, c => c
  | k + 1, w, c =>
    let top := (c / 32 + w / 2 ^ k) % 2
    crc6Bits k w (if top = 1 then (c * 2 % 64) ^^^ 3 else c * 2 % 64)

/-- The CRC-6 of a BiSS-C frame over its position, error and warning bits, sent inverted (R207). -/
def crc6 (bits_ word : Nat) (err warn : Bool) : Nat :=
  crc6Bits (bits_ + 2) (word * 4 + boolNat err * 2 + boolNat warn) 0 ^^^ 63

/-- Binary from Gray. -/
def grayFold : Nat → Nat → Nat → Nat
  | 0, _, acc => acc
  | k + 1, g, acc => grayFold k g (acc * 2 + (acc + g / 2 ^ k) % 2)

/-- A serial frame completes (R210, R211). -/
def serialFrame (a : Nat) (f : SerialFrame) (s : State) : State :=
  let x := axis s a
  let c := encCfg s a
  if x.state = 0 ∨ c.type < 2 then s
  else if ! f.started ∨ (c.type = 3 ∧ (f.err ∨ f.crc ≠ crc6 c.wordBits f.word f.err f.warn)) then
    let s := setAxis a (fun x => { x with serErr := min (x.serErr + 1) 0xFFFFFFFF, discards := x.discards + 1, lastBad := s.now }) s
    let s := rset (posBase + 0x10 + 4 * a) 2 s
    if 4 ≤ x.discards + 1 then axisFault a s else s
  else
    let w := toSigned c.wordBits (if c.gray = 1 then grayFold c.wordBits f.word 0 else f.word)
    let wraps := match x.word with
      | some o => if 2 ^ (c.wordBits - 1) < w - o then x.wraps - 2 ^ c.wordBits
                  else if w - o < -(2 ^ (c.wordBits - 1) : Nat) then x.wraps + 2 ^ c.wordBits else x.wraps
      | none => 0
    let total := if c.invert = 1 then -(w + wraps) else w + wraps
    let s := setAxis a (fun x => { x with word := some w, wraps := wraps, discards := 0 }) s
    if x.state = 2 then s
    else match x.word with
      | none => setAxis a (fun x => { x with count := total, ext := total, stopCount := total, obsAt := none, ref := if x.origin then x.ref else total * 65536, trail := [(s.now, total)], te := none, tp := none, since := s.now, before := total * 65536 }) s
      | some _ =>
        let s := moveCount a (total - x.count) s
        setAxis a (fun x => { x with te := some (max x.sampleAt (match x.tp with | some t => t | none => 0)) }) s

/-- 10 ms without an error in FAULT: the axis restarts with its origin unset (R208, R688). -/
def axisFaultExit (a : Nat) (s : State) : State :=
  let x := axis s a
  if x.state = 2 ∧ x.lastBad + 10 * ms ≤ s.now then axisStart a (encCfg s a).type s else s

/-- 2π × 2^64. -/
def twoPi : Int := 115904311329233965478

/-- The observer updates at 1 MHz from the interpolated position (R215): each state moves by its rate over 1 µs, corrected by the error of
the position with the gains 3ω, 3ω² and ω³, which place its three poles at −ω (log 15). Its first update takes the position itself. -/
def observe (bw : Nat) (at_ : Int) (x : Axis) : Axis :=
  let w := twoPi * bw
  let e := match x.obsAt with | some _ => at_ - x.obsP | none => 0
  let p := match x.obsAt with | some _ => x.obsP | none => at_
  let q : Nat := 2 ^ 64
  let g1 := Int.fdiv (3 * w * e) q
  let g2 := Int.fdiv (Int.fdiv (3 * w * e) q * w) q
  let g3 := Int.fdiv (Int.fdiv (Int.fdiv (w * e) q * w) q * w) q
  let v := x.obsV + Int.fdiv (x.obsA + g2) 1000000
  let a := x.obsA + Int.fdiv g3 1000000
  let um : Int → Int := fun y => clampI (-2 ^ 31) (2 ^ 31 - 1) (roundDivUp y (1000 * 2 ^ 48))
  { x with obsP := p + Int.fdiv (x.obsV + g1) 1000000, obsV := v, obsA := a, speed := um v, acc := um a }

def observerUpdate (a : Nat) (s : State) : State :=
  let x := axis s a
  let early : Bool := match x.obsAt with | some t => decide (s.now < t + us) | none => false
  if x.state = 0 ∨ early then s
  else setAxis a (fun x => { observe (obsCfg s a).bw (posAt x s.now * (encCfg s a).scale) x with obsAt := some s.now }) s

/-- The span of the count over the last STOP_TIME has been at most START_DIST (R218). The line drive's part is `stopRev`. -/
def motionStop (a : Nat) (s : State) : State :=
  let x := axis s a
  let c := obsCfg s a
  let keep := s.now - c.stopMs * ms
  let tr := trimTrail keep x.trail
  let hi := tr.foldl (fun m e => max m e.2) x.count
  let lo := tr.foldl (fun m e => min m e.2) x.count
  if ! x.moving ∨ c.startDist < hi - lo then s
  else
    let s := publish (0x0308 + a) (setAxis a (fun x => { x with moving := false, stopCount := x.count, trail := keepTrail keep x.trail }) s)
    if webAxis s = some a then publish 0x030D s else s

/-! ## Line-trigger generators (R219 to R222, R689) -/

/-- Whether the generator's mode lets boundary n fire (R220). -/
def ltgAllows (g : PLtgConfig) (x : Ltg) (n : Int) (fwd : Bool) : Bool :=
  let above := match x.top with | some t => t < n | none => true
  match g.mode with
  | 2 => x.lastN != some n
  | _ => fwd && above

/-- Sends the triggers of a tick to every UP port it drives, and notes them outstanding (R132, R141, R689). -/
def tickPorts (g : Nat) (n : Int) (s : State) : State :=
  (List.range 16).foldl (fun s p =>
    let m := genMask s g p
    if m = 0 ∨ (port s p).link ≠ 2 then s else
      let s := tickD p g (wakePort p s)
      let before := (port s p).slots
      let s := sendTrigger p g n m s.now s
      if (port s p).slots = before ∨ portKind s p = 1 then s
      else setPort p (fun q => { q with trigs := (List.range 8).foldl (fun t i =>
        if bit m i then tabPut t i ((tabGet t i).getD [] ++ [⟨g, n, s.now + s.lnk.eUse * ns⟩]) else t) q.trigs }) s) s

/-- The E that a latch of exposure uses (R222): that of the last ARM, or outside the running states the one set. -/
def ePs (s : State) : Nat := (if runningState s.dev.state then s.lnk.eUse else s.cfg.expo) * ns

/-- Whether generator g raises ticks now (R689). -/
def ltgRuns (s : State) (g : Nat) : Option PLtgConfig :=
  match tabGet s.cfg.ltg g with
  | some c =>
    if tabGet s.cfg.ltgOn g = some 1 ∧ (axis s c.axis).state = 1 ∧ (axis s c.axis).origin ∧
      (s.dev.state = .configured ∨ runningState s.dev.state) then some c else none
  | none => none

/-! ## Compare channels (R225 to R228) -/

def setCmp (c : Nat) (f : CmpCh → CmpCh) (s : State) : State :=
  { s with pos := { s.pos with cmp := tabPut s.pos.cmp c (f ((tabGet s.pos.cmp c).getD {})) } }

def driveCmp (c : Nat) (v : Bool) (s : State) : State :=
  if ((tabGet s.pos.cmp c).getD {}).out = v then s else emit (.pin pinCmp c v) (setCmp c (fun x => { x with out := v }) s)

/-- The output action of an entry (R225, R226). -/
def cmpAction (c action pulse : Nat) (s : State) : State :=
  match action with
  | 0 => driveCmp c true s
  | 1 => driveCmp c false s
  | 2 => driveCmp c (! ((tabGet s.pos.cmp c).getD {}).out) s
  | 3 => setCmp c (fun x => { x with pulseEnd := some (s.now + pulse * ns) }) (driveCmp c true s)
  | _ => s

/-- Whether an entry's DIR allows a direction of crossing (R225). -/
def cmpTakes (dir : Nat) (fwd : Bool) : Bool := dir == 2 || dir == 0 && fwd || dir == 1 && ! fwd

/-- A channel as a SYS cycle with crossings begins: the cycle's crossings are counted from here (R226). -/
def cmpCycle (cyc : Nat) (fwd : Bool) (x : CmpCh) : CmpCh :=
  if x.cyc = some cyc ∧ x.fwd = fwd then x else { x with cyc := some cyc, fwd := fwd, ptr0 := x.ptr, out0 := x.out, done := [] }

/-- A number put among others in rising order. -/
def insertNat (k : Nat) : List Nat → List Nat
  | [] => [k]
  | x :: r => if k < x then k :: x :: r else x :: insertNat k r

/-- PCMP after the actions of the entries crossed in the present SYS cycle, taken in list order (R226). -/
def cmpLevel (s : State) (c : PCmpConfig) (ch : Nat) : Bool :=
  let x := (tabGet s.pos.cmp ch).getD {}
  x.done.foldl (fun v k => match tabGet s.pos.cmpMem (c.base + k) with
    | some e => if cmpTakes e.dir x.fwd then (match e.action with | 0 => true | 1 => false | 2 => ! v | _ => true) else v
    | none => v) x.out0

/-- The axis crosses entry k of a channel (R226, R227). The pointer stands behind the entries crossed in forward direction: none of them
is crossed in that direction again before it has been crossed back. -/
def matchEvEff (ch k : Nat) (fwd : Bool) (s : State) : State :=
  match tabGet s.cfg.cmp ch with
  | none => s
  | some c =>
    if tabGet s.cfg.cmpOn ch ≠ some 1 ∨ (axis s c.axis).state ≠ 1 ∨ ! (axis s c.axis).origin then s
    else if c.mode = 1 then
      if fwd ∧ k < c.count ∧ reaches s c.axis (c.start + k * c.pitch) true then publish (0x0320 + ch) (cmpAction ch 3 c.pulse s) else s
    else
      match tabGet s.pos.cmpMem (c.base + k) with
      | none => s
      | some e =>
        let x := cmpCycle (sysCycle s) fwd ((tabGet s.pos.cmp ch).getD {})
        if c.len ≤ k ∨ (fwd ∧ k < x.ptr0) ∨ (! fwd ∧ x.ptr0 ≤ k) ∨ x.done.contains k ∨ ! reaches s c.axis e.md fwd then s else
        let s := setCmp ch (fun _ => { x with ptr := if fwd then max x.ptr (k + 1) else min x.ptr k, done := insertNat k x.done }) s
        let s := if cmpTakes e.dir fwd then publish (0x0320 + ch) (driveCmp ch (cmpLevel s c ch) (cmpAction ch e.action c.pulse s)) else s
        if fwd ∧ k + 1 = c.len then publish (0x0330 + ch) s else s

def cmpPulseEnd (ch : Nat) (s : State) : State :=
  match ((tabGet s.pos.cmp ch).getD {}).pulseEnd with
  | some t => if t ≤ s.now then driveCmp ch false (setCmp ch (fun x => { x with pulseEnd := none }) s) else s
  | none => s

/-! ## Registers (R248) -/

def axisStat (s : State) (a : Nat) : Nat :=
  let x := axis s a
  x.state + boolNat x.rev * 4 + boolNat x.moving * 8 + boolNat (webAxis s == some a) * 16 + boolNat x.origin * 32

/-- One GO latches the four axes and the TMU time in the same SYS cycle (R248). -/
def posSnapGo (link : Nat) (s : State) : State :=
  let b := posBase + 0x1000 + link * 0x100
  let s := rput (b + 8) (tmuSec s) (rput (b + 4) (tmuSub s) (rput b (2 ^ 31) s))
  (List.range 4).foldl (fun s a =>
    let x := axis s a
    let c := toUnsigned 48 x.count
    let md := toUnsigned 64 (mdNow s a)
    rput (b + 0x1C + a * 16) (md / 2 ^ 32) (rput (b + 0x18 + a * 16) md
      (rput (b + 0x14 + a * 16) (c / 2 ^ 32 + fracAt x s.now * 65536) (rput (b + 0x10 + a * 16) c s)))) s

/-! ## Commands of family 0x04 (R250) -/

def encConfig (p : PEncConfig) : Cmd := mkEncConfig p fun _ p s =>
  .ok (axisStart p.axis p.type { s with cfg := { s.cfg with enc := tabPut s.cfg.enc p.axis p } }) []

def observerSet (p : PObserverSet) : Cmd := mkObserverSet p fun _ p s =>
  .ok { s with cfg := { s.cfg with obs := tabPut s.cfg.obs p.axis p } } []

def posOrigin (p : PPosOrigin) : Cmd := mkPosOrigin p fun _ p s =>
  if (axis s p.axis).state ≠ 1 then .no eState []
  else if p.mode = 0 then .ok (setOrigin p.axis p.md0 (posAt (axis s p.axis) s.now) s) []
  else .ok (setAxis p.axis (fun x => { x with pendO := some ⟨p.md0, p.mode, p.latch⟩ }) s) []

def ltgConfig (p : PLtgConfig) : Cmd := mkLtgConfig p fun _ p s =>
  .ok { s with cfg := { s.cfg with ltg := tabPut s.cfg.ltg p.gen p }
               pos := { s.pos with ltg := tabMod s.pos.ltg p.gen fun x => { x with top := none, lastN := none } } } []

def ltgEnable (p : PLtgEnable) : Cmd := mkLtgEnable p fun _ p s =>
  let was := tabGet s.cfg.ltgOn p.gen
  let s := { s with cfg := { s.cfg with ltgOn := tabPut s.cfg.ltgOn p.gen p.enable } }
  .ok (match tabGet s.cfg.ltg p.gen with
    | some g => if p.enable = 1 ∧ was ≠ some 1 ∧ g.mode = 1 then
        { s with pos := { s.pos with ltg := tabMod s.pos.ltg p.gen fun x => { x with top := none } } } else s
    | none => s) []

def cmpConfig (p : PCmpConfig) : Cmd := mkCmpConfig p
  (fun _ p s => .ok (setCmp p.ch (fun x => { x with ptr := cmpPlace s p (mdNow s p.axis) }) { s with cfg := { s.cfg with cmp := tabPut s.cfg.cmp p.ch p } }) [])
  (fun p _ => if p.mode = 0 ∧ 65536 < p.base + p.len then some (eParam, []) else none)

/-- The compare entry at offset 16·i of a load, none where its codes or reserved bytes are not legal (R225). -/
def cmpEnt (bs : List Nat) (i : Nat) : Option CmpEnt :=
  let e := (bs.drop (16 * i)).take 16
  if nth e 8 ≤ 4 ∧ nth e 9 ≤ 2 ∧ (e.drop 10).all (· == 0) then some ⟨leAtI e 0 8, nth e 8, nth e 9⟩ else none

def cmpListLoad (p : PCmpListLoad) : Cmd := mkCmpListLoad p
  (fun _ p s =>
    match tabGet s.cfg.cmp p.ch with
    | none => .no eParam []
    | some c =>
      if tabGet s.cfg.cmpOn p.ch = some 1 then .no eBusy []
      else
        let es := (List.range p.count).filterMap (cmpEnt p.data)
        let s := { s with pos := { s.pos with cmpMem := (es.mapIdx fun i e => (i, e)).foldl (fun t e => tabPut t (c.base + p.first + e.1) e.2) s.pos.cmpMem } }
        .ok (setCmp p.ch (fun x => { x with ptr := cmpPlace s c (mdNow s c.axis) }) s) [])
  (fun p s =>
    match tabGet s.cfg.cmp p.ch with
    | none => some (eParam, [])
    | some c =>
      let es := (List.range p.count).filterMap (cmpEnt p.data)
      let before := if p.first = 0 then none else tabGet s.pos.cmpMem (c.base + p.first - 1)
      let after := if p.first + p.count < c.len then tabGet s.pos.cmpMem (c.base + p.first + p.count) else none
      let run := before.toList ++ es ++ after.toList
      let rising := (List.range (run.length - 1)).all fun i => match run[i]?, run[i + 1]? with | some a, some b => decide (a.md < b.md) | _, _ => true
      let overlap := s.cfg.cmp.any fun e => e.1 != p.ch && e.2.mode = 0 && c.base < e.2.base + e.2.len && e.2.base < c.base + c.len
      if c.mode = 0 ∧ es.length = p.count ∧ p.first + p.count ≤ c.len ∧ rising ∧ ! overlap then none else some (eParam, []))

def cmpEnable (p : PCmpEnable) : Cmd := mkCmpEnable p fun _ p s =>
  let s := { s with cfg := { s.cfg with cmpOn := tabPut s.cfg.cmpOn p.ch p.enable } }
  .ok (if p.enable = 0 then driveCmp p.ch false (setCmp p.ch (fun x => { x with pulseEnd := none }) s)
       else match tabGet s.cfg.cmp p.ch with
         | some c => setCmp p.ch (fun x => { x with ptr := cmpPlace s c (mdNow s c.axis) }) s
         | none => s) []

def latchConfig (p : PLatchConfig) : Cmd := mkLatchConfig p fun _ p s =>
  .ok { s with cfg := { s.cfg with latches := tabPut s.cfg.latches p.latch p } } []

def latchRead (p : PLatchRead) : Cmd := mkLatchRead p fun _ p s =>
  let l := (tabGet s.pos.latch p.latch).getD {}
  .ok { s with pos := { s.pos with latch := tabPut s.pos.latch p.latch { l with fifo := l.fifo.drop p.max } } }
    ((l.fifo.take p.max).flatMap fun c => [.align 8, u64 (toUnsigned 48 c.count), u16 c.frac, s64 c.md, u64 c.sec, u32 c.ns, .align 8])

def posStatus (p : PPosStatus) : Cmd := mkPosStatus p fun _ p s =>
  let x := axis s p.axis
  let skip := (List.range 8).map fun g => match tabGet s.cfg.ltg g with
    | some c => if c.axis = p.axis then ((tabGet s.pos.ltg g).getD {}).skip else 0
    | none => 0
  let ov := (List.range 16).map fun l => match tabGet s.cfg.latches l with
    | some c => if c.axis = p.axis then ((tabGet s.pos.latch l).getD {}).ovfl else 0
    | none => 0
  .ok s ([u64 (toUnsigned 48 x.count), u16 (fracAt x s.now), s64 (mdNow s p.axis), s32 x.speed, s32 x.acc, u32 (axisStat s p.axis),
    u32 x.illegal, u32 x.zMis, u32 x.serErr] ++ (skip ++ ov).map u32)

def posCountersClear : Cmd := mkPosCountersClear fun _ s =>
  .ok { s with pos := { s.pos with
    axes := s.pos.axes.map fun x => { x with illegal := 0, zMis := 0, serErr := 0 }
    ltg := s.pos.ltg.map fun e => (e.1, { e.2 with skip := 0 })
    latch := s.pos.latch.map fun e => (e.1, { e.2 with ovfl := 0 }) } } []

/-- TIME_READ; without a web axis the manual states no position, and it is free (log 95), but 0 in BOOT (R113). -/
def timeRead : Cmd := mkTimeRead fun _ s =>
  let r := if (webAxis s).isSome then (webMd s, s) else if s.dev.state = .boot then (0, s) else takeInt s
  .ok r.2 [u64 (tmuSec s), u32 (tmuSub s), u16 (tmuFrac s), s64 r.1]

/-- TIME on a port's back-channel (R137). -/
def timeMessageDue (n : Nat) (s : State) : State :=
  if (port s n).link = 0 then s else sendTime n s

end Sys2Proof.Machine
end

