-- ==== Sys2Proof/Machine/FrontEnd.lean ====
section
/-! DEFINITION. Sys2Proof/Machine/FrontEnd.lean: the front end (chapter 04): correction, bank switches, shading, registration and
stitching of web lines, and the commands of family 0x03. A line's effect happens at the instant its packet is complete
(log 1). -/

namespace Sys2Proof.Machine

/-- FE_NOTIFY, at most once per kind and stream in each 100 ms (R204, R205). -/
def feNotify (kind stream : Nat) (line : Int) (s : State) : State :=
  notifyLimited 0x03F0 kind stream 1 (fun _ => [u16 0, u8 kind, u8 stream, u64 (toUnsigned 64 line)]) s

/-! ## Unpacking (R174, R175) -/

/-- Bits per pixel and bytes of storage per pixel (0 packed) of a format code. -/
def fmtBits (f : Nat) : Nat := match f with | 0 => 8 | 1 | 5 => 10 | 2 | 6 => 12 | 3 | 7 => 14 | _ => 16

/-- Length of a line of w pixels in a format. -/
def packedLen (f w : Nat) : Nat := match f with | 0 | 1 | 2 | 3 => ceilDiv (w * fmtBits f) 8 | _ => 2 * w

/-- Pixels of packed bits, from a little-endian accumulator of `have_` bits. -/
def unpackBits (b : Nat) : Nat → List Nat → Nat → Nat → List Nat
  | 0, _, _, _ => []
  | w + 1, bs, acc, have_ =>
    let r := (List.range ((b + 7) / 8 + 1)).foldl (fun (st : List Nat × Nat × Nat) _ =>
      if st.2.2 < b then match st.1 with
        | [] => (([] : List Nat), st.2.1, st.2.2 + 8)
        | x :: r => (r, st.2.1 + x * 2 ^ st.2.2, st.2.2 + 8)
      else st) (bs, acc, have_)
    r.2.1 % 2 ^ b :: unpackBits b w r.1 (r.2.1 / 2 ^ b) (r.2.2 - b)

def unpackWords (b : Nat) : Nat → List Nat → List Nat
  | 0, _ => []
  | w + 1, x :: y :: r => (x + 256 * y) % 2 ^ b :: unpackWords b w r
  | _ + 1, _ => []

/-- The w pixels of a payload, on the 16-bit scale (R174, R175). -/
def unpackLine (f w : Nat) (bs : List Nat) : List Nat :=
  let b := fmtBits f
  (match f with | 0 | 1 | 2 | 3 => unpackBits b w bs 0 0 | _ => unpackWords b w bs).map fun r => r * 2 ^ (16 - b)

/-! ## Refusal by the front end (R172, R173) -/

def laneLoad (q : List (Nat × Nat)) : Nat := q.foldl (fun a e => a + e.2) 0

/-- The lines still in a lane's input buffer at the present instant. -/
def laneNow (n : Nat) (s : State) : List (Nat × Nat) := ((tabGet s.fep.laneQ n).getD []).filter fun e => s.now < e.1

/-- Whether the front end refuses a line: 1 for format or length, 2 for lack of room, 0 taken (R172, R173). -/
def feRefuses (n : Nat) (c : PStreamSet) (fmt length : Nat) (s : State) : Nat :=
  if fmt ≠ c.fmt ∨ length ≠ packedLen c.fmt c.width then 1
  else if 131072 < laneLoad (laneNow n s) + 2 * c.width then 2 else 0

/-- The effect of a refusal on the front end's registers. -/
def feRefused (n stream why : Nat) (line : Int) (s : State) : State :=
  if why = 1 then rset (fepBase + 4) 1 (bump (fepBase + 0x104 + n * 16) 1 s)
  else feNotify 0 stream line (publish 0x0200 (rset (fepBase + 4) 0 (bump (fepBase + 0x100 + n * 16) 1 s)))

/-- A taken line occupies its lane for ⌈W / 16⌉ + 8 PIX clocks of 800 ps behind the lines before it (R170, R172). -/
def laneTake (n w : Nat) (s : State) : State :=
  let q := laneNow n s
  let start := q.foldl (fun m e => max m e.1) s.now
  setFep (fun f => { f with laneQ := tabPut f.laneQ n (q ++ [(start + (ceilDiv w 16 + 8) * 800, 2 * w)]) }) s

/-! ## Bank switches (R182 to R186) -/

/-- Whether line index `line` has been reached by index `i`, both modulo 2^48. -/
def reached (i line : Nat) : Bool := (i + 2 ^ 48 - line % 2 ^ 48) % 2 ^ 48 < 2 ^ 47

def setBank (stream b : Nat) (s : State) : State := setFep (fun f => { f with bank := if b = 0 then tabDel f.bank stream else tabPut f.bank stream b }) s

def bankOf (s : State) (stream : Nat) : Nat := (tabGet s.fep.bank stream).getD 0

/-- Inserts a switch behind those that arrived before it. -/
def insArrival (b : BankPend) : List BankPend → List BankPend
  | [] => [b]
  | x :: r => if b.seq < x.seq then b :: x :: r else x :: insArrival b r

/-- Switches in the order of arrival (R186). -/
def byArrival (bs : List BankPend) : List BankPend := bs.foldl (fun acc b => insArrival b acc) []

/-- The switches that fall on or before line i of a stream take effect: those of earlier lines, then those of this line as they arrived, then
the bank selected (R182, R186). -/
def applyBanks (stream i : Nat) (s : State) : State :=
  let isDue : BankPend → Bool := fun b => b.stream == stream && (b.next || reached i b.line)
  let isNow : BankPend → Bool := fun b => b.next || b.line == i
  let due := s.fep.pend.filter isDue
  let s := (due.filter (fun b => ! isNow b) ++ byArrival (due.filter isNow)).foldl (fun s b => setBank stream b.bank s) s
  let s := match tabGet s.fep.sel stream with | some b => setBank stream b s | none => s
  setFep (fun f => { f with pend := f.pend.filter fun b => ! isDue b, sel := tabDel f.sel stream }) s

/-- The switches of armed setting-latency entries. -/
def armedSwitches (s : State) : List BankPend :=
  s.fep.armed.flatMap fun e =>
    let n := if e.key < 1000 then e.key else (e.key - 1000) / 8
    match tabGet s.cfg.setLat (n * 16 + e.entry) with
    | some c => ((List.range 8).filter fun i => bit c.streams i && (e.key < 1000 || e.key == 1000 + n * 8 + i)).map fun i =>
        { stream := n * 8 + i, line := 0, bank := c.bank, seq := e.seq }
    | none => []

/-- On leaving the running states every pending switch takes effect at once, in the order of arrival (R182, R186). -/
def settleBanks (s : State) : State :=
  let s := (byArrival (s.fep.pend ++ armedSwitches s)).foldl (fun s b => setBank b.stream b.bank s) s
  let s := s.fep.sel.foldl (fun s e => setBank e.1 e.2 s) s
  setFep (fun f => { f with pend := [], sel := [], armed := [] }) s

/-- The metadata key's bank of one METADATA packet, none for no change (R184). -/
def metaBank (c : PFeMetaKey) (data : List Nat) : Option Nat :=
  if data.length ≤ c.offset then none
  else
    let k := (nth data c.offset &&& c.mask) / 2 ^ c.shift
    if k ≤ 15 ∧ nth c.map k ≠ 0xFF then some (nth c.map k) else none

/-- A METADATA packet of a stream: the key of its port switches the streams of its mask at the line named (R184). -/
def metaSwitch (n stream index : Nat) (data : List Nat) (s : State) : State :=
  match tabGet s.cfg.metaKeys n with
  | none => s
  | some c =>
    if c.enable = 0 ∨ ! bit c.streams stream then s
    else match metaBank c data with
      | none => s
      | some b =>
        let masked := (List.range 8).filter fun i => bit c.streams i
        let awaited : Nat → Bool := fun i => ((tabGet (port s n).trigs i).getD []).any fun x => toUnsigned 48 x.line == index
        let late : Nat → Bool := fun i => ! awaited i && match tabGet s.fep.seen (n * 8 + i) with | some x => reached x index | none => false
        let k := s.fep.arrivals
        let s := masked.foldl (fun s i => pendSwitch { stream := n * 8 + i, line := index, bank := b, seq := k, next := late i } s)
          (setFep (fun f => { f with arrivals := k + 1 }) s)
        if masked.any late then
          feNotify 3 (n * 8 + stream) index (rset (fepBase + 4) 4 (bump (fepBase + 0x108 + n * 16) 1 s))
        else s

/-! ## Per-pixel correction (R176, R177) -/

/-- c2 of a pixel: p less its offset, times its gain (R176). -/
def corr2 (o : Int) (g p : Nat) : Int := Int.fdiv (((p : Int) - o) * g + 8192) 16384

/-- The nearest good neighbour within k pixels, walking a list of (value, code) outward (R177). -/
def nearGood : Nat → List (Nat × Nat) → Option Nat
  | 0, _ => none
  | _, [] => none
  | k + 1, (v, d) :: r => if d = 0 then some v else nearGood k r

/-- Replacement of a pixel with defect code d; none when no neighbour is good (R177). -/
def replacement (d : Nat) (l r : Option Nat) : Option Nat :=
  match d, l, r with
  | 2, some a, _ => some a
  | 3, _, some b => some b
  | _, some a, some b => some ((a + b + 1) / 2)
  | _, some a, none => some a
  | _, none, some b => some b
  | _, none, none => none

/-- Defect replacement along a line: the pixels before, newest first, and those from here on; with the count left
unreplaced (R177). -/
def defectWalk : List (Nat × Nat) → List (Nat × Nat) → List Nat × Nat
  | _, [] => ([], 0)
  | before, (v, d) :: rest =>
    let r := defectWalk ((v, d) :: before) rest
    if d = 0 then (v :: r.1, r.2)
    else match replacement d (nearGood 4 before) (nearGood 4 rest) with
      | some x => (x :: r.1, r.2)
      | none => (v :: r.1, r.2 + 1)

/-! ## Shading (R178 to R181) -/

def shadeGroups (w : Nat) : Nat := ceilDiv w 32

def shadeFresh (w : Nat) : Shade := { sg := List.replicate (shadeGroups w) 16384 }

/-- S[x] from the factors of the groups (R180). -/
def shadeAt (sg : List Nat) (x : Nat) : Nat :=
  if x < 16 then nth sg 0
  else
    let g := (x - 16) / 32
    if sg.length ≤ g + 1 then nth sg (sg.length - 1)
    else (nth sg g * (32 * g + 48 - x) + nth sg (g + 1) * (x - (32 * g + 16)) + 16) / 32

/-- A group's new factor and whether it was clamped, from its window's count and sum (R178, R179). -/
def shadeStep (k t a sg cnt sum : Nat) : Nat × Bool :=
  let m := (2 * sum + cnt) / (2 * max cnt 1)
  if 16 * k ≤ cnt ∧ 0 < m then
    let r := min 65535 ((t * 16384 + m / 2) / m)
    let x : Int := sg + Int.fdiv ((r : Int) - sg) (2 ^ a)
    if x < 8192 then (8192, true) else if 32768 < x then (32768, true) else (x.toNat, false)
  else (sg, false)

/-- Adds a line's c2 to a window's counts and sums, pixels (c2, code) in order (R178). -/
def shadeAdd (lo hi : Nat) : List (Int × Nat) → Nat → List Nat × List Nat → List Nat × List Nat
  | [], _, acc => acc
  | (c, d) :: r, x, acc =>
    shadeAdd lo hi r (x + 1) (if d = 0 ∧ (lo : Int) ≤ c ∧ c ≤ hi then
      (listMod acc.1 (x / 32) (· + 1), listMod acc.2 (x / 32) (· + c.toNat)) else acc)

def shadeOf (s : State) (stream w : Nat) : Shade :=
  match tabGet s.fep.shade stream with
  | some h => if h.sg.length = shadeGroups w then h else shadeFresh w
  | none => shadeFresh w

/-- The factors for the next line of a stream: those of a closed window apply from the second line after it (R180). -/
def shadeAdvance (h : Shade) : Shade :=
  match h.next with
  | some (0, f) => { h with sg := f, next := none }
  | some (k + 1, f) => { h with next := some (k, f) }
  | none => h

/-- The window takes a line; at its end the factors are updated (R178, R179). -/
def shadeWindow (stream w : Nat) (c : PFeShading) (px : List (Int × Nat)) (h : Shade) (line : Int) (s : State) : State :=
  let z := List.replicate (shadeGroups w) 0
  let acc := shadeAdd c.lo c.hi px 0 (if h.cnt.isEmpty then (z, z) else (h.cnt, h.sum))
  if h.lines + 1 < c.k then
    setFep (fun f => { f with shade := tabPut f.shade stream { h with cnt := acc.1, sum := acc.2, lines := h.lines + 1 } }) s
  else
    let out := (List.range (shadeGroups w)).map fun g => shadeStep c.k c.t c.a (nth h.sg g) (nth acc.1 g) (nth acc.2 g)
    let clamps := (out.filter fun e => e.2).length
    let nh : Shade := { h with cnt := [], sum := [], lines := 0, next := some (1, out.map fun e => e.1) }
    let s := setFep (fun f => { f with shade := tabPut f.shade stream nh }) s
    if clamps = 0 then s else feNotify 2 stream line (rset (fepBase + 4) 3 (bump (fepBase + 0x48) clamps s))

/-! ## Captures (R206) -/

/-- A line of a stage completes: a capture that waits for it takes it. -/
def captureLine (stream stage : Nat) (px : List Nat) (s : State) : State :=
  let key := stream * 4 + stage
  match tabGet s.fep.caps key with
  | some ⟨tk, len, dl, none⟩ =>
    let bytes := px.flatMap fun (v : Nat) => leBytes 2 v
    let s := setFep (fun f => { f with caps := tabPut f.caps key ⟨none, len, dl, some bytes⟩ }) s
    match tk with | some tk => answer tk stOk [.block (bytes.take len)] s | none => s
  | _ => s

/-- Refuses and discards the captures that wait and satisfy `p` (R206). -/
def dropCaptures (p : Nat → Capture → Bool) (s : State) : State :=
  let gone := s.fep.caps.filter fun e => e.2.bytes.isNone && p e.1 e.2
  let s := setFep (fun f => { f with caps := f.caps.filter fun e => ! (e.2.bytes.isNone && p e.1 e.2) }) s
  gone.foldl (fun s e => match e.2.tk with | some tk => answer tk eBusy [] s | none => s) s

def feCaptureTimeout (stream : Nat) (s : State) : State :=
  dropCaptures (fun k c => k / 4 == stream && decide (c.deadline ≤ s.now)) s

/-! ## One corrected line -/

/-- Corrects the pixels of line `i` of a stream: banks, correction, shading, defects (R176 to R186). -/
def correctLine (stream i : Nat) (px : List Nat) (s : State) : List Nat × State :=
  let s := captureLine stream 0 px (applyBanks stream i s)
  let b := (tabGet s.fep.coef (stream * 2 + bankOf s stream)).getD {}
  let w := px.length
  let mode := match tabGet s.cfg.shading stream with | some c => c.mode | none => 0
  let h := if mode = 0 then shadeFresh 0 else shadeAdvance (shadeOf s stream w)
  let c2 := px.mapIdx fun x p => (corr2 ((tabGet b.o x).getD 0) ((tabGet b.g x).getD 16384) p, (tabGet b.d x).getD 0)
  let v := c2.mapIdx fun x e =>
    let f := if mode = 0 then 16384 else shadeAt h.sg x
    ((clampI 0 65535 (Int.fdiv (e.1 * f + 8192) 16384)).toNat, e.2)
  let r := defectWalk [] v
  let s := setFep (fun f => { f with seen := tabPut f.seen stream i }) s
  let s := if mode = 0 then s else setFep (fun f => { f with shade := tabPut f.shade stream h }) s
  let s := match tabGet s.cfg.shading stream with
    | some c => if c.mode = 1 then shadeWindow stream w c c2 h i s else s
    | none => s
  let s := if r.2 = 0 then s else rset (fepBase + 4) 5 (bump (fepBase + 0x4C) r.2 s)
  (r.1, captureLine stream 1 r.1 s)

/-! ## Registration (R187 to R191, R222) -/

/-- The web streams: each mapped line stream with its map and width (R38). -/
def webStreams (s : State) : List (Nat × PFeStreamMap × Nat) :=
  let xs : List (Nat × PFeStreamMap × Nat) := (s.cfg.maps.filter fun e => lineStream s e.1).filterMap fun e => match tabGet s.cfg.streams e.1 with
    | some c => if c.trig = 255 then none else some (e.1, e.2, c.width)
    | none => none
  match s.cfg.geom with
  | none => xs
  | some g =>
    let top := xs.foldl (fun m e => max m e.2.1.omd) (-(2 ^ 63))
    xs.map fun e => (e.1, { e.2.1 with omd := max e.2.1.omd (top - 65535 * (g.mdPitch : Int)) }, e.2.2)

/-- u of a position, in P / 256 (R188). -/
def regU (pitch : Nat) (q omd : Int) : Int := roundDivUp (256 * (q - omd)) pitch

/-- Whether the line of a TRIGGER of this stream is outstanding (R132). -/
def outstanding (s : State) (stream g : Nat) (n : Int) (t : Nat) : Bool :=
  ((tabGet (port s (stream / 8)).trigs (stream % 8)).getD []).any fun x => x.gen == g && decide (x.line = n) && x.tExp == t

/-- A line of a generator enters the history of each web stream it triggers (R188, R189); that of a port that was sent no
TRIGGER for it is lost (R151). -/
def addSlots (g : Nat) (n : Int) (t : Nat) (q : Int) (st : LineSt) (s : State) : State :=
  match s.cfg.geom with
  | none => s
  | some geo =>
    (webStreams s).foldl (fun s e =>
      match tabGet s.cfg.streams e.1 with
      | some c => if c.trig ≠ g then s else
          setFep (fun f => { f with hist := tabPut f.hist e.1 ((tabGet f.hist e.1).getD [] ++ [⟨n, t, regU geo.mdPitch q e.2.1.omd, if outstanding s e.1 g n t then st else .lost⟩]) }) s
      | none => s) s

/-- Web lines are entered for ticks from START up to the stop point (R689). -/
def ingests (tick : Nat) (s : State) : Bool :=
  match s.dev.startAt, s.dev.drain with
  | some a, none => decide (a ≤ tick)
  | some a, some (stop, _) => decide (a ≤ tick) && decide (tick ≤ stop)
  | none, _ => false

/-- TMU seconds and nanoseconds at a time to come, or now. -/
def secAt (s : State) (t : Nat) : Nat := tmuAt s t / 1000000000 % 2 ^ 48
def subAt (s : State) (t : Nat) : Nat := tmuAt s t % 1000000000

/-- The time of an exposure that drives area streams is kept for their frames (R392). -/
def exposeArea (g : Nat) (n : Int) (t : Nat) (s : State) : State :=
  if s.cfg.streams.any fun e => e.2.trig == g && portKind s (e.1 / 8) == 1 then
    { s with clp := { s.clp with expos := ((g, n, secAt s t, subAt s t) :: s.clp.expos).take 64 } } else s

/-- A line of the verification port is awaited while the device is in a running state (R380, R689). -/
def exposeVerify (g : Nat) (n : Int) (t : Nat) (s : State) : State :=
  match s.cfg.verify with
  | none => s
  | some v =>
    if runningState s.dev.state ∧ s.cfg.streams.any fun e => e.2.trig == g && e.1 / 8 == v.port then
      setFep (fun f => { f with vslots := f.vslots ++ [⟨g, n, t, (match webAxis s with | some a => mdAt s a t | none => 0), secAt s t, subAt s t, []⟩] }) s
    else s

/-- A trigger of the web axis, for the tags of the web lines near its position (R201). -/
def noteTrig (q : Int) (t : Nat) (s : State) : State := setFep (fun f => { f with trigQ := ((q, secAt s t, subAt s t) :: f.trigQ).take 131072 }) s

/-- One exposure of a generator: the position and time of its exposure instant, or a boundary that was not fired (R222). -/
def exposeOne (g : Nat) (e : Expo) (s : State) : State :=
  let s := if e.skip then s else exposeVerify g e.line e.t (exposeArea g e.line e.t s)
  if ! e.web then s else
  match tabGet s.cfg.ltg g with
  | none => s
  | some c =>
    let q := mdAt s c.axis e.t
    let s := if e.skip ∨ webAxis s ≠ some c.axis then s else noteTrig q e.t s
    if ! ingests (e.t - ePs s) s then s
    else if e.skip then addSlots g e.line e.t (c.phase + e.line * c.pitch) .lost s
    else addSlots g e.line e.t q .waiting s

/-- The exposures that `p` picks, in the order of their ticks. -/
def expose (p : Expo → Bool) (s : State) : State :=
  (s.pos.exps.filter p).foldl (fun s e => exposeOne e.gen e s) { s with pos := { s.pos with exps := s.pos.exps.filter fun e => ! p e } }

/-- The exposure instant t_tick + E of a tick of generator g (R222): nothing is exposed before it. -/
def exposureLatch (g : Nat) (s : State) : State := expose (fun e => e.gen == g && decide (e.t ≤ s.now)) s

/-- The exposures before `t` are latched at their own instants, whether or not a row reports them (R222). -/
def exposeTo (t : Nat) (s : State) : State := if s.pos.exps.isEmpty then s else expose (fun e => decide (e.t < t)) s

/-! ## Ticks (R219 to R221) -/

/-- The position reaches boundary n of generator g in a direction; a boundary that is skipped counts as not fired (R220, R221). -/
def tickEff (g : Nat) (n : Int) (fwd : Bool) (s : State) : State :=
  match ltgRuns s g with
  | none => s
  | some c =>
    let x := (tabGet s.pos.ltg g).getD {}
    if ! ltgAllows c x n fwd ∨ ! reaches s c.axis (c.phase + n * c.pitch) fwd then s
    else
      let soon := match x.lastTick with | some t => decide (s.now < t + c.minInt * ns) | none => false
      let exp : Expo := { gen := g, line := n, t := s.now + ePs s, skip := soon }
      let s := { s with pos := { s.pos with exps := s.pos.exps ++ [exp] } }
      if soon then
        let s := { s with pos := { s.pos with ltg := tabPut s.pos.ltg g { x with skip := min (x.skip + 1) 0xFFFFFFFF } } }
        rset (posBase + 0x10 + 4 * c.axis) 4 s
      else
        let s := { s with pos := { s.pos with ltg := tabPut s.pos.ltg g { x with lastTick := some s.now, lastN := some n, top := some (match x.top with | some t => max t n | none => n) } } }
        let s := publish (0x0310 + g) s
        if runningState s.dev.state then tickPorts g n s else s

/-! ## Kernel and map (R193 to R195) -/

/-- x rounded from n / d, halves away from zero. -/
def roundAway (n : Int) (d : Nat) : Int := if n < 0 then - roundDivUp (-n) d else roundDivUp n d

/-- The cubic convolution kernel with a = −0.5 at m / 64 pixels, times 16,384 (R195). -/
def cubicTap (m : Nat) : Int :=
  let x : Int := m
  if m ≤ 64 then roundAway (3 * x ^ 3 - 320 * x ^ 2 + 524288) 32
  else roundAway (-(x ^ 3) + 320 * x ^ 2 - 32768 * x + 1048576) 32

/-- Adds the phase's error to its first largest tap (R195). -/
def fixPhase (h : List Int) : List Int :=
  let top := h.foldl max (-65536)
  let k := (h.findIdx? (· == top)).getD 0
  listMod h k (· + (16384 - h.foldl (· + ·) 0))

def defaultTaps (ph : Nat) : List Int := fixPhase [cubicTap (64 + ph), cubicTap ph, cubicTap (64 - ph), cubicTap (128 - ph)]

/-- The taps of a phase in use (R195). -/
def kernelTaps (s : State) (ph : Nat) : List Int :=
  match s.cfg.kernel with
  | some t => (t.drop (4 * ph)).take 4
  | none => defaultTaps ph

/-- x(c) times 2^80 (R193). -/
def mapX (m : PFeStreamMap) (c : Nat) : Int :=
  let d : Int := (c : Int) - m.cFirst
  nthI m.a 0 * 2 ^ 48 + nthI m.a 1 * d * 2 ^ 32 + nthI m.a 2 * d ^ 2 * 2 ^ 16 + nthI m.a 3 * d ^ 3

/-- x(c) to the nearest 1/64 pixel, halves up; none outside [0, W_s − 1] (R193, R194). -/
def mapPos (m : PFeStreamMap) (w c : Nat) : Option Nat :=
  let x := mapX m c
  if x < 0 ∨ ((w - 1 : Nat) : Int) * 2 ^ 80 < x then none else some (roundDivUp x (2 ^ 74)).toNat

/-- The 4-tap resampled value at a position in 1/64 pixel (R194). -/
def resampleAt (taps : List Int) (line : List Nat) (x64 : Nat) : Nat :=
  let i : Int := (x64 / 64 : Nat)
  let at_ : Nat → Int := fun k => nth line (clampI 0 (line.length - 1) (i - 1 + k)).toNat
  let sum := (List.range 4).foldl (fun a k => a + nthI taps k * at_ k) 0
  (clampI 0 65535 (Int.fdiv (sum + 8192) 16384)).toNat

/-- A stream's value at web column c, none where it contributes nothing (R193, R194). -/
def streamAt (s : State) (m : PFeStreamMap) (line : List Nat) (c : Nat) : Option Nat :=
  if c < m.cFirst ∨ m.cLast < c then none
  else (mapPos m line.length c).map fun x => resampleAt (kernelTaps s (x % 64)) line x

/-- The blended value at a column of a seam (R196). -/
def seamBlend (sm : PFeSeam) (c va vb : Nat) : Nat :=
  if sm.n = 0 then (if c < sm.s0 then va else vb)
  else
    let wb := ((2 * (c - sm.s0) + 1) * 256 + sm.n) / (2 * sm.n)
    (va * (256 - wb) + vb * wb + 128) / 256

/-- The seam defined for exactly two streams, in either order, in which column c lies (R196, R197). -/
def seamAt (s : State) (a b c : Nat) : Option PFeSeam :=
  (s.cfg.seams.map fun e => e.2).find? fun sm => ((sm.left == a && sm.right == b) || (sm.left == b && sm.right == a)) &&
    (sm.n == 0 || decide (sm.s0 ≤ c ∧ c < sm.s0 + sm.n))

/-- A web column of a plane from the contributions of its streams; `k` numbers the free value of a column that none
reaches, which the manual leaves open (log 3). -/
def webPixel (s : State) (k : Nat) (cs : List (Nat × PFeStreamMap × List Nat)) (c : Nat) : Nat :=
  match cs.filterMap fun e => (streamAt s e.2.1 e.2.2 c).map fun v => (e.1, v) with
  | [] => Config.freeNat (k + c) % 65536
  | [(_, v)] => v
  | (a, va) :: (b, vb) :: _ =>
    match seamAt s a b c with
    | some sm => if sm.left = a then seamBlend sm c va vb else seamBlend sm c vb va
    | none => va

/-! ## Stitching (R189, R190, R192, R199, R201) -/

/-- The lines a and b of a stream around web line n. -/
def slotsAround (h : List FSlot) (n : Int) : Option FSlot × Option FSlot :=
  ((h.filter fun x => x.u ≤ 256 * n).getLast?, h.find? fun x => 256 * n < x.u)

def slotWaits (x : Option FSlot) : Bool := match x with | some ⟨_, _, _, .waiting⟩ => true | _ => false

def slotPx (x : Option FSlot) : Option (List Nat) := match x with | some ⟨_, _, _, .got px⟩ => some px | _ => none

/-- The nearest later received line of a stream (R190). -/
def laterPx (h : List FSlot) (n : Int) : Option (List Nat) :=
  h.findSome? fun x => if 256 * n < x.u then slotPx (some x) else none

/-- STITCH_WAIT has passed for web line n (R190). -/
def stitchTimed (wait : Nat) (n : Int) (s : State) : Bool :=
  match s.fep.adv with | some u => decide (256 * (n + wait) < u) | none => false

/-- The next web line to enter: the first covered by every web stream after START or a new origin, otherwise the one after
the high-water mark (R192). -/
def nextWeb (s : State) : Option Int :=
  if ! s.fep.fresh then s.fep.hwm.map (· + 1)
  else
    (webStreams s).foldl (fun m e => match m, ((tabGet s.fep.hist e.1).getD []).head? with
      | some n, some x => some (max n (ceilDivI x.u 256))
      | _, _ => none) (some (match s.fep.hwm with | some h => h + 1 | none => -(2 ^ 63)))

/-- Whether a stream can give its contribution to web line n. -/
def streamReady (timed : Bool) (s : State) (n : Int) (st : Nat) : Bool :=
  let h := (tabGet s.fep.hist st).getD []
  let r := slotsAround h n
  timed || (! slotWaits r.1 && r.2.isSome && ! slotWaits r.2 &&
    ((slotPx r.1).isSome || (slotPx r.2).isSome || (tabGet s.fep.prev st).isSome || (laterPx h n).isSome))

/-- A value of an interpolation; where it falls outside 16 bits the manual states none, and it is free (log 3). -/
def u16OrFree (k : Nat) (x : Int) : Nat := if 0 ≤ x ∧ x ≤ 65535 then x.toNat else Config.freeNat k % 65536

/-- The registered line of two received lines (R189). -/
def blendLines (mode : Nat) (k : Nat) (phi : Int) (a b : List Nat) : List Nat :=
  if mode = 1 then (if phi ≤ 128 then a else b)
  else List.zipWith (fun (x : Nat) (y : Nat) => u16OrFree k (Int.fdiv ((x : Int) * (256 - phi) + y * phi + 128) 256)) a b

/-- A stream's contribution to web line n, and whether it was lost (R189, R190). -/
def contribution (s : State) (mode : Nat) (n : Int) (st w : Nat) : List Nat × Bool :=
  let h := (tabGet s.fep.hist st).getD []
  let r := slotsAround h n
  match slotPx r.1, slotPx r.2 with
  | some a, some b => (blendLines mode s.free (256 * n - (match r.1 with | some x => x.u | none => 0)) a b, false)
  | some a, none => (a, false)
  | none, some b => (b, false)
  | none, none =>
    match tabGet s.fep.prev st with
    | some p => (p, true)
    | none => match laterPx h n with
      | some p => (p, true)
      | none => ((List.range w).map fun i => Config.freeNat (s.free + i) % 65536, true)

/-- Columns per band (R200). -/
def bandWidth (g : PFeGeometry) : Nat := ceilDiv g.width g.bands

/-- The bands whose owned columns a stream's span covers, as a mask (R190). -/
def spanBands (g : PFeGeometry) (m : PFeStreamMap) : Nat :=
  (List.range g.bands).foldl (fun a k =>
    let lo := k * bandWidth g
    let hi := min ((k + 1) * bandWidth g) g.width
    if lo < hi ∧ m.cFirst < hi ∧ lo ≤ m.cLast then a + 2 ^ k else a) 0

/-- The exposure time of the trigger nearest n × P (R201). -/
def nearestTime (x : Int) : List (Int × Nat × Nat) → Option (Nat × Nat × Nat)
  | [] => none
  | (q, sec, ns) :: r =>
    match nearestTime x r with
    | some (d, b) => if (q - x).natAbs ≤ d then some ((q - x).natAbs, sec, ns) else some (d, b)
    | none => some ((q - x).natAbs, sec, ns)

/-- Exposure positions that a later web line can lie nearest to: the newest, those at or above `lo`, and the highest below it (R201). -/
def pruneTrigs (lo : Int) (xs : List (Int × Nat × Nat)) : List (Int × Nat × Nat) :=
  let top := xs.foldl (fun m x => if x.1 < lo then max m x.1 else m) (lo - 2 ^ 64)
  xs.take 1 ++ (xs.drop 1).filter fun y => decide (lo ≤ y.1) || y.1 == top

/-- After web line n: the line before its slots is no longer needed (R191). -/
def pruneSlots (n : Int) : List FSlot → List FSlot
  | a :: b :: r => if b.u ≤ 256 * (n + 1) then pruneSlots n (b :: r) else a :: b :: r
  | h => h

/-- Declares the lines around n that have not arrived as not received (R190). -/
def loseAround (n : Int) (h : List FSlot) : List FSlot :=
  let r := slotsAround h n
  let hit : Option FSlot → FSlot → Bool := fun o x => match o with | some y => decide (y.n = x.n ∧ y.t = x.t) | none => false
  h.map fun x => if (hit r.1 x || hit r.2 x) && slotWaits (some x) then { x with st := .lost } else x

/-- Enters web line n (R190, R192, R196, R199, R201). -/
def enterWeb (geo : PFeGeometry) (n : Int) (s : State) : WebLine × State :=
  let ws := webStreams s
  let cs := ws.map fun e => (e.1, e.2.1, contribution s geo.mdMode n e.1 e.2.2)
  let lost := cs.filter fun e => e.2.2.2
  let mask := lost.foldl (fun m e => m ||| spanBands geo e.2.1) 0
  let planes := (List.range geo.planes).map fun p =>
    let mine := (cs.filter fun e => e.2.1.plane == p).map fun e => (e.1, e.2.1, e.2.2.1)
    (List.range geo.width).map (webPixel s (s.free + 32768) mine)
  let k := Int.fdiv n 4096
  let first := s.fep.strip ≠ some k
  let short := if first then n ≠ 4096 * k else s.fep.stripShort
  let ends : Bool := Int.emod n 4096 = 4095
  let was := s.fep.restart
  let tag := ((nearestTime (n * geo.mdPitch) s.fep.trigQ).map fun e => e.2).getD (0, 0)
  let s := setFep (fun f => { f with
    prev := cs.map fun e => (e.1, e.2.2.1)
    hist := f.hist.map fun e => (e.1, pruneSlots n e.2)
    hwm := some n, fresh := false, strip := if ends then none else some k, stripShort := short, restart := false
    trigQ := pruneTrigs ((n - 1) * geo.mdPitch) f.trigQ }) { s with free := s.free + 32768 + geo.width }
  let line : WebLine := { n := n, strip := k, lost := mask, short := short, sec := tag.1, ns := tag.2, restart := was, stripEnd := ends, first := first, planes := planes }
  let s := if mask = 0 then s else rset (fepBase + 4) 2 (bump (fepBase + 0x40) 1 s)
  let s := lost.foldl (fun s e => feNotify 1 e.1 n s) s
  let s := if first then rput (fepBase + 0x2C) (toUnsigned 64 k / 2 ^ 32) (rput (fepBase + 0x28) (toUnsigned 64 k) (publish 0x0201 s)) else s
  let s := if ends then publish 0x0202 s else s
  let s := ws.foldl (fun s e => captureLine e.1 2 (planes.getD e.2.1.plane []) s) s
  (line, s)

/-- Enters every web line that is ready, at most `fuel` (R190, R192). -/
def stitchLoop (geo : PFeGeometry) : Nat → State → List WebLine × State
  | 0, s => ([], s)
  | fuel + 1, s =>
    match nextWeb s with
    | none => ([], s)
    | some n =>
      let timed := stitchTimed geo.stitchWait n s
      if (webStreams s).isEmpty ∨ ! (webStreams s).all fun e => streamReady timed s n e.1 then ([], s)
      else
        let s := if timed then setFep (fun f => { f with hist := f.hist.map fun e => (e.1, loseAround n e.2) }) s else s
        let r := enterWeb geo n s
        let q := stitchLoop geo fuel r.2
        (r.1 :: q.1, q.2)

/-- More lines than can be ready at once: the lines from the lowest to the highest position known. -/
def stitchFuel (s : State) : Nat :=
  let us := s.fep.hist.flatMap fun e => e.2.map fun x => x.u
  let top := us.foldl max (s.fep.adv.getD (-(2 ^ 63)))
  let low := us.foldl min (match s.fep.hwm with | some n => 256 * n | none => top)
  ((top - low) / 256).toNat + 2

def stitch (s : State) : List WebLine × State :=
  match s.cfg.geom with
  | none => ([], s)
  | some geo => if s.dev.state = .running ∨ s.dev.state = .draining then stitchLoop geo (stitchFuel s) s else ([], s)

/-- A line of a stream was received or lost: its slot is filled, and its arrival may be above every other (R190, R192). -/
def fillSlot (stream : Nat) (n : Int) (t : Nat) (st : LineSt) (s : State) : State :=
  match tabGet s.fep.hist stream with
  | none => s
  | some h =>
    match h.find? fun x => decide (x.n = n ∧ x.t = t) && slotWaits (some x) with
    | none => s
    | some x =>
      let s := setFep (fun f => { f with hist := tabPut f.hist stream (h.map fun y => if y.n = n ∧ y.t = t then { y with st := st } else y) }) s
      match st with
      | .got _ =>
        let s := setFep (fun f => { f with adv := some (match f.adv with | some u => max u x.u | none => x.u) }) s
        match s.fep.hwm with
        | some m => if x.u ≤ 256 * m then rset (fepBase + 4) 6 (bump (fepBase + 0x44) 1 s) else s
        | none => s
      | _ => s

/-- Every web stream's lines up to the stop point are in (R79). -/
def webDone (s : State) : Bool :=
  match s.dev.drain with
  | some (stop, _) =>
    decide (stop + ePs s ≤ s.now) && (s.pos.exps.all fun e => decide (stop < e.t - ePs s)) &&
      s.fep.hist.all fun e => e.2.all fun x => ! slotWaits (some x)
  | none => false

/-! ## Spill (R191) -/

/-- Registration lines and bytes per line of each web stream: (d_s, bytes). -/
def regNeeds (s : State) : List (Nat × Nat) :=
  match s.cfg.geom with
  | none => []
  | some g =>
    let ws := webStreams s
    let top := ws.foldl (fun m e => max m e.2.1.omd) (-(2 ^ 63))
    ws.map fun e => ((ceilDivI (top - e.2.1.omd) g.mdPitch).toNat, 2 * e.2.2)

/-- Places slots of the streams of greatest d_s first, and answers the bytes placed. -/
def spillFrom : List (Nat × Nat) → Nat → Nat
  | [], _ => 0
  | (d, b) :: r, need => if need = 0 then 0 else
      let k := min (d + 2) (ceilDiv need (max b 1))
      k * b + spillFrom r (need - k * b)

def insDesc (x : Nat × Nat) : List (Nat × Nat) → List (Nat × Nat)
  | [] => [x]
  | y :: r => if y.1 < x.1 then x :: y :: r else y :: insDesc x r

def spillBytes (s : State) : Nat :=
  let ns := regNeeds s
  let total := ns.foldl (fun a e => a + (e.1 + 2) * e.2) 0
  spillFrom (ns.foldl (fun acc e => insDesc e acc) []) (total - 5767168)

/-- f_max granted as things stand (R202), 0 without a geometry. -/
def grantedF (s : State) : Nat :=
  match s.cfg.geom with | some g => min g.fmax (feFmax s g.width g.planes).toNat | none => 0

/-- FEP_STAT (R203). -/
def fepStat (s : State) : Nat :=
  s.cfg.ports.foldl (fun m e => m + 2 ^ e.1) 0 + min 65535 (spillBytes s / 1024) * 65536

/-- FEP_BANK[k] (R203). -/
def fepBankReg (s : State) (k : Nat) : Nat := (List.range 32).foldl (fun m j => m + bankOf s (32 * k + j) * 2 ^ j) 0

/-! ## Configuration checks of family 0x03 (R185, R187, R197, R687) -/

/-- A stream bound both by setting-latency entries and by a metadata key (R185). -/
def bothBound (s : State) : Option Nat :=
  (List.range 128).find? fun st =>
    (s.cfg.setLat.any fun e => e.2.enable == 1 && e.2.port == st / 8 && bit e.2.streams (st % 8)) &&
    (match tabGet s.cfg.metaKeys (st / 8) with | some c => c.enable == 1 && bit c.streams (st % 8) | none => false)

/-- The maps of the line streams that STREAM_SET has set: the web streams (R38, R193, R198; log 68). -/
def webMaps (s : State) : Tab PFeStreamMap := s.cfg.maps.filter fun e => lineStream s e.1

/-- A mapped stream without a plane (R687), or whose generator's pitch is not the web's (R187). -/
def mapFault (s : State) : Option Nat :=
  (s.cfg.maps.find? fun e =>
    match s.cfg.geom with
    | none => true
    | some g => decide (g.planes ≤ e.2.plane)).map (fun e => e.1) <|>
  ((webMaps s).find? fun e =>
    match s.cfg.geom, tabGet s.cfg.streams e.1 with
    | some g, some c => match tabGet s.cfg.ltg c.trig with | some l => l.pitch != g.mdPitch | none => true
    | _, _ => true).map (fun e => e.1)

/-- Whether column c of plane p is covered as R197 asks. -/
def columnOk (s : State) (p c : Nat) : Bool :=
  match ((webMaps s).filter fun e => e.2.plane == p && decide (e.2.cFirst ≤ c ∧ c ≤ e.2.cLast)) with
  | [_] => true
  | [a, b] => (seamAt s a.1 b.1 c).isSome
  | _ => false

/-- Whether a seam lies within both its streams' spans (R197): its first column outside, where it does not. -/
def seamFault (s : State) (sm : PFeSeam) : Option Nat :=
  match tabGet (webMaps s) sm.left, tabGet (webMaps s) sm.right with
  | some a, some b =>
    let inA : Nat → Bool := fun c => decide (a.cFirst ≤ c ∧ c ≤ a.cLast)
    let inB : Nat → Bool := fun c => decide (b.cFirst ≤ c ∧ c ≤ b.cLast)
    if a.plane ≠ b.plane then some sm.s0
    else if sm.n = 0 then (if 0 < sm.s0 ∧ inA (sm.s0 - 1) ∧ inB sm.s0 then none else some sm.s0)
    else ((List.range sm.n).map (sm.s0 + ·)).find? fun c => ! (inA c && inB c)
  | _, _ => some sm.s0

/-- The columns at which a plane's cover can change: 0 and the ends of its spans and seams. -/
def breakPoints (s : State) (w p : Nat) : List Nat :=
  let xs := 0 :: (((webMaps s).filter fun e => e.2.plane == p).flatMap fun e => [e.2.cFirst, e.2.cLast + 1]) ++
    s.cfg.seams.flatMap fun e => [e.2.s0, e.2.s0 + e.2.n]
  xs.filter fun c => decide (c < w)

/-- The first failing column of a plane (R197). -/
def planeFault (s : State) (w p : Nat) : Option Nat :=
  let cols := (breakPoints s w p).filter fun c => ! columnOk s p c
  let seams := (s.cfg.seams.filter fun e => match tabGet (webMaps s) e.2.left with | some m => m.plane == p | none => p == 0).filterMap fun e => seamFault s e.2
  (cols ++ seams).foldl (fun m c => match m with | some x => some (min x c) | none => some c) none

/-- The front end's checks at CONFIG_COMMIT: the reply's parameters of the first that fails. -/
def feCommitFault (s : State) : Option (List RV) :=
  match bothBound s with
  | some st => some [u8 st]
  | none => match mapFault s with
    | some st => some [u8 st]
    | none => match s.cfg.geom with
      | none => none
      | some g => (List.range g.planes).findSome? fun p => (planeFault s g.width p).map fun c => [u8 p, u32 c]

/-- Generators of the web streams that name different axes (R214), or one of mode BOTH (R220). -/
def webGenFault (s : State) : Bool :=
  let gs := (webMaps s).filterMap fun e => match tabGet s.cfg.streams e.1 with | some c => tabGet s.cfg.ltg c.trig | none => none
  gs.any fun g => g.mode == 2 || (webAxis s).any fun a => g.axis != a

/-! ## Commands of family 0x03 (R204) -/

def feGeometry (p : PFeGeometry) : Cmd := mkFeGeometry p
  (fun _ p s => .ok { s with cfg := { s.cfg with geom := some p } } [u32 p.fmax])
  (fun p _ => if 32768 < ceilDiv p.width p.bands then some (eParam, []) else none)

def feStreamMap (p : PFeStreamMap) : Cmd := mkFeStreamMap p
  (fun _ p s => .ok { s with cfg := { s.cfg with maps := tabPut s.cfg.maps p.stream p } } [])
  (fun p s => if p.cLast < p.cFirst then some (eParam, []) else match tabGet s.cfg.streams p.stream with
    | some c => if c.trig = 255 then some (eParam, []) else none
    | none => none)

def feSeam (p : PFeSeam) : Cmd := mkFeSeam p
  (fun _ p s => .ok { s with cfg := { s.cfg with seams := tabPut s.cfg.seams p.seam p } } [])
  (fun p _ => if p.left = p.right then some (eParam, []) else none)

/-- A phase of a loaded kernel sums to 16,384 (R195). -/
def phasesOk (t : List Int) : Bool := (List.range 64).all fun ph => ((t.drop (4 * ph)).take 4).foldl (· + ·) 0 == 16384

def feKernel (p : PFeKernel) : Cmd := mkFeKernel p
  (fun _ p s => .ok { s with cfg := { s.cfg with kernel := if p.source = 0 then none else some p.table } } [])
  (fun p _ => if p.source = 1 ∧ ! phasesOk p.table then some (eParam, []) else none)

/-- A coefficient entry at pixel x; a neutral one is not listed. -/
def putCoef (kind x : Nat) (v : Int) (b : CoefBank) : CoefBank :=
  match kind with
  | 0 => { b with o := if v = 0 then tabDel b.o x else tabPut b.o x v }
  | 1 => { b with g := if v = 16384 then tabDel b.g x else tabPut b.g x v.toNat }
  | _ => { b with d := if v = 0 then tabDel b.d x else tabPut b.d x v.toNat }

/-- Whether an armed setting-latency entry is to switch a stream to a bank (R183). -/
def armedBank (s : State) (stream b : Nat) : Bool :=
  (armedSwitches s).any fun x => x.stream == stream && x.bank == b

/-- Whether a bank of a stream is in use or named by a pending switch (R182, R183). -/
def bankHeld (s : State) (stream b : Nat) : Bool :=
  armedBank s stream b || bankOf s stream == b || (s.fep.pend.any fun x => x.stream == stream && x.bank == b) || tabGet s.fep.sel stream == some b

def feCoefLoad (p : PFeCoefLoad) : Cmd := mkFeCoefLoad p
  (fun _ p s => if bankHeld s p.stream p.bank then .no eBusy [] else
    let b := (tabGet s.fep.coef (p.stream * 2 + p.bank)).getD {}
    let data := if p.kind = 1 then p.data.map fun v => Int.emod v 65536 else p.data
    let b := (data.mapIdx fun i v => (p.first + i, v)).foldl (fun b e => putCoef p.kind e.1 e.2 b) b
    .ok (setFep (fun f => { f with coef := tabPut f.coef (p.stream * 2 + p.bank) b }) s) [])
  (fun p _ => if 32768 < p.first + p.count ∨ (p.kind = 2 ∧ p.data.any fun v => v < 0 || 3 < v) then some (eParam, []) else none)

def feBankSelect (p : PFeBankSelect) : Cmd := mkFeBankSelect p fun _ p s =>
  let s := (List.range 8).foldl (fun s i => if ! bit p.streams i then s
    else if runningState s.dev.state then setFep (fun f => { f with sel := tabPut f.sel (p.port * 8 + i) p.bank }) s
    else setBank (p.port * 8 + i) p.bank s) s
  let named := (List.range 8).filter fun i => bit p.streams i
  .ok { s with cfg := { s.cfg with banks := named.foldl (fun t i => if p.bank = 0 then tabDel t (p.port * 8 + i) else tabPut t (p.port * 8 + i) p.bank) s.cfg.banks } } []

def feShading (p : PFeShading) : Cmd := mkFeShading p fun _ p s =>
  let was := match tabGet s.cfg.shading p.stream with | some c => c.mode | none => 0
  let s := { s with cfg := { s.cfg with shading := tabPut s.cfg.shading p.stream p } }
  let keep : Shade → Shade := fun h => { h with cnt := [], sum := [], lines := 0, next := if p.mode = 2 then none else h.next }
  let sh := if was = 0 then tabDel s.fep.shade p.stream else tabMod s.fep.shade p.stream keep
  .ok (setFep (fun f => { f with shade := sh }) s) []

def feSettingLatency (p : PFeSettingLatency) : Cmd := mkFeSettingLatency p fun _ p s =>
  .ok { s with cfg := { s.cfg with setLat := tabPut s.cfg.setLat (p.port * 16 + p.entry) p } } []

def feMetaKey (p : PFeMetaKey) : Cmd := mkFeMetaKey p fun _ p s =>
  .ok { s with cfg := { s.cfg with metaKeys := tabPut s.cfg.metaKeys p.port p } } []

def feStatus (p : PFeStatus) : Cmd := mkFeStatus p fun _ p s =>
  let k := laneClocks s p.port
  .ok s ([u16 (min 65535 (ceilDiv (1000 * grantedF s * k) 1250000000)), u32 (if k = 0 then 0 else 1250000000 / k), u32 (spillBytes s / 1024),
    u8 ((List.range 8).foldl (fun m i => m + bankOf s (p.port * 8 + i) * 2 ^ i) 0)] ++
    (List.range 8).map fun i => u8 (match tabGet s.cfg.shading (p.port * 8 + i) with | some c => c.mode | none => 0))

/-- Bytes of a line of a capture's stage. -/
def captureLen (s : State) (stream stage : Nat) : Nat :=
  if stage = 2 then 2 * (match s.cfg.geom with | some g => g.width | none => 0)
  else 2 * (match tabGet s.cfg.streams stream with | some c => c.width | none => 0)

def feCapture (p : PFeCapture) : Cmd := mkFeCapture p
  (fun tk p s =>
    let key := p.stream * 4 + p.stage
    if p.offset = 0 then
      if maxPacket s tk.via < 32 + min p.length (captureLen s p.stream p.stage) then .no eSize [] else
      let s := dropCaptures (fun k _ => k == key) s
      .later (setFep (fun f => { f with caps := tabPut f.caps key ⟨some tk, p.length, s.now + secPs, none⟩ }) s)
    else match tabGet s.fep.caps key with
      | some ⟨_, _, _, some bs⟩ => .ok s [.block ((bs.drop p.offset).take p.length)]
      | _ => .no eBusy [])
  (fun p s =>
    if (tabGet s.cfg.streams p.stream).isNone ∨ (p.stage = 2 ∧ (tabGet s.cfg.maps p.stream).isNone) ∨ captureLen s p.stream p.stage ≤ p.offset
    then some (eParam, []) else none)

/-- FEP counters to 0 (R203). -/
def fepCntClear (s : State) : State := rclear (fepBase + 0x100) (fepBase + 0x200) (rclear (fepBase + 0x40) (fepBase + 0x50) s)

def feCountersClear : Cmd := mkFeCountersClear fun _ s => .ok (fepCntClear s) []

end Sys2Proof.Machine
end

