-- ==== Sys2Proof/Machine/Results.lean ====
section
/-! DEFINITION. Sys2Proof/Machine/Results.lean: result queues, subscriptions, mirrors and the tile pool (chapter 08), and the
commands of family 0x08. -/

namespace Sys2Proof.Machine

def setRes (f : Res_ → Res_) (s : State) : State := { s with res := f s.res }

/-! ## Queues (R322 to R324) -/

/-- A queue's settings: entries, policy, extra feature; the defaults of R322, R324 and R318. -/
def queueCfg (s : State) (q : Nat) : PResultQueueConfig := (tabGet s.cfg.queues q).getD ⟨q, 65536, 0, 17⟩

def rqueue (s : State) (q : Nat) : RQueue := (tabGet s.res.queues q).getD {}

/-- The settings of a queue's ring in force (R322, R323). -/
def ringCfg (s : State) (q : Nat) : PResultQueueConfig := (rqueue s q).ring.getD ⟨q, 65536, 0, 17⟩

def setQueue (q : Nat) (f : RQueue → RQueue) (s : State) : State :=
  setRes (fun r => { r with queues := tabPut r.queues q (f ((tabGet r.queues q).getD {})) }) s

/-- O, the oldest retained sequence; S_next when none is retained (R322). -/
def oldest (s : State) (q : Nat) : Nat := max (rqueue s q).base ((rqueue s q).next - (ringCfg s q).entries)

/-- The record of a sequence, 128 bytes of 0 where none is retained (R321, R329). -/
def recordAt (s : State) (q n : Nat) : List Nat := (tabGet (rqueue s q).recs n).getD (List.replicate 128 0)

/-- Subscriptions of a queue: (session, subscription). -/
def subsOf (s : State) (q : Nat) : List (Nat × Sub) := (s.res.subs.filter fun e => e.1 % 64 == q).map fun e => (e.1 / 64, e.2)

def setSub (sid q : Nat) (f : Sub → Sub) (s : State) : State := setRes (fun r => { r with subs := tabMod r.subs (sid * 64 + q) f }) s

/-- RESULT_NOTIFY to the sessions subscribed to the queue, once per kind and queue in each 100 ms (R342). -/
def resultNotify (q kind n : Nat) (s : State) : State :=
  match limited 0x08F0 kind q n s with
  | (some c, s) => notifyWhere (fun sid _ => (tabGet s.res.subs (sid * 64 + q)).isSome) 0x08F0 0 [u8 q, u8 kind, u64 c] s
  | (none, s) => s

/-! ## Mirrors (R332) -/

/-- Signals a mirror's link after records were written, once per coalescing interval (R332). -/
def mirrorSignal (q : Nat) (m : Mirror) (s : State) : Mirror × State :=
  let s := rset (resBase + 0x1000 + m.link * 0x1000 + q / 32 * 4) (q % 32) s
  if m.until_ ≤ s.now then ({ m with until_ := s.now + m.coalesce * us, owed := false }, emit (.msix m.link 65) s)
  else ({ m with owed := true }, s)

/-- Writes retained records into released slots, at most `fuel` (R332). -/
def mirrorFill (q : Nat) : Nat → Mirror → State → Mirror × State
  | 0, m, s => (m, s)
  | f + 1, m, s =>
    let n := max m.seq (oldest s q)
    if m.slots ≤ m.used.length ∨ (rqueue s q).next ≤ n then (m, s)
    else
      let bs := recordAt s q n
      let a := m.addr + 128 * m.tail
      let s := serviceWr m.link (a + 124) (bs.drop 124) (serviceWr m.link a (bs.take 124) s)
      let r := mirrorSignal q { m with tail := (m.tail + 1) % m.slots, seq := n + 1, used := m.used ++ [n] } s
      mirrorFill q f r.1 r.2

/-- RESULT_STREAM datagrams of a PUSH_UDP subscription (R331): at most 11 records each, or 69 with jumbo frames. -/
def pushChunks (sid q per : Nat) : Nat → Nat → Nat → State → State
  | 0, _, _, s => s
  | f + 1, p, stop, s =>
    if stop ≤ p then s
    else
      let n := min per (stop - p)
      let recs := (List.range n).map fun i => RV.block (recordAt s q (p + i))
      pushChunks sid q per f (p + n) stop (notify sid 0x08F1 0 0 ([u8 q, u8 n, u16 0] ++ recs) s)

/-- Brings one subscription up to date with its queue. -/
def pump (q : Nat) (s : State) (sid : Nat) : State :=
  match tabGet s.res.subs (sid * 64 + q) with
  | none => s
  | some x =>
    match x.mode, x.mirror with
    | 1, some m =>
      let r := mirrorFill q ((rqueue s q).next - m.seq) m s
      setSub sid q (fun x => { x with mirror := some r.1 }) r.2
    | 2, _ =>
      let from_ := max x.r (oldest s q)
      let stop := min (rqueue s q).next (from_ + x.window)
      let p := max x.push from_
      let per := match tabGet s.dev.sessions sid with | some c => if jumboOn s c.via then 69 else 11 | none => 11
      pushChunks sid q per (stop - p) p stop (setSub sid q (fun x => { x with push := max p stop }) s)
    | _, _ => s

/-- The host releases slots of a mirror: r moves to the sequence after the last one released (R332, R333). -/
def mirHeadWrite (link q value : Nat) (s : State) : State :=
  let err := rset resBase 4 s
  match (subsOf s q).find? fun e => match e.2.mirror with | some m => m.link == link | none => false with
  | none => err
  | some (sid, x) => match x.mirror with
    | none => err
    | some m =>
      let n := (value + m.slots - m.head) % m.slots
      if m.slots ≤ value ∨ m.used.length < n then err
      else
        let gone := m.used.take n
        let s := (List.range n).foldl (fun s i => serviceWr link (m.addr + 128 * ((m.head + i) % m.slots) + 124) [0, 0, 0, 0] s) s
        let r := match gone.getLast? with | some e => e + 1 | none => x.r
        pump q (setSub sid q (fun x => { x with r := max x.r r, mirror := some { m with head := value, used := m.used.drop n } }) s) sid

/-- The end of a mirror's coalescing interval: the signal that waited is sent (R332). -/
def coalesceEnd (link q : Nat) (s : State) : State :=
  match (subsOf s q).find? fun e => match e.2.mirror with | some m => m.link == link | none => false with
  | none => s
  | some (sid, x) => match x.mirror with
    | none => s
    | some m => if m.owed ∧ m.until_ ≤ s.now then
        setSub sid q (fun x => { x with mirror := some { m with owed := false, until_ := s.now + m.coalesce * us } }) (emit (.msix link 65) s)
      else s

/-! ## The tile pool (R334 to R338) -/

/-- A tile's header with its check word (R337). -/
def tileCrc (h payload : List Nat) : List Nat := h.take 60 ++ leBytes 4 (crc32c (h.take 60 ++ payload))

/-- Takes blocks for a tile: its handle (R334, R335). -/
def tileAlloc (header : Nat → List Nat) (payload : List Nat) (s : State) : Nat × State :=
  let n := ceilDiv (64 + payload.length) 4096
  let total := s.res.pool * 256
  let b := if total < s.res.nextBlock + n then 0 else s.res.nextBlock
  let gen := if s.res.gen + 1 = 2 ^ 32 then 1 else s.res.gen + 1
  let handle := gen * 2 ^ 32 + b
  let kept := s.res.tiles.filter fun e => e.1 + e.2.blocks ≤ b || b + n ≤ e.1
  let t : Tile := ⟨gen, n, s.now, tileCrc (header handle) payload ++ payload⟩
  (handle, setRes (fun r => { r with tiles := tabPut kept b t, nextBlock := b + n, gen := gen }) s)

/-- The tile a handle names (R336). -/
def tileOf (s : State) (h : Nat) : Option Tile :=
  match tabGet s.res.tiles (h % 2 ^ 32) with
  | some t => if t.gen = h / 2 ^ 32 then some t else none
  | none => none

/-- The tile's header takes the sequence of its record (R337). -/
def tileSeq (h q seq : Nat) (s : State) : State :=
  match tileOf s h with
  | none => s
  | some t =>
    let hd := t.bytes.take 8 ++ leBytes 8 seq ++ (t.bytes.take 64).drop 16
    let hd := hd.take 36 ++ [q] ++ hd.drop 37
    setRes (fun r => { r with tiles := tabPut r.tiles (h % 2 ^ 32) { t with bytes := tileCrc hd (t.bytes.drop 64) ++ t.bytes.drop 64 } }) s

/-! ## The writer (R321, R324, R326, R328) -/

/-- A record waits: a subscriber of its BLOCK queue has not advanced past the record it would overwrite (R324). -/
def blocked (s : State) (q : Nat) : Bool :=
  (ringCfg s q).policy == 1 && decide ((rqueue s q).base + (ringCfg s q).entries ≤ (rqueue s q).next) &&
  (subsOf s q).any fun e => decide (e.2.r ≤ (rqueue s q).next - (ringCfg s q).entries)

/-- Whether the writer can write a record now: its DEFECT record has been written, and its queue does not block. -/
def writable (s : State) (p : PRec) : Bool :=
  (! p.outcome || (tabGet s.res.seqs p.id).isSome) && ! blocked s p.queue

/-- Counts one record of the present second (R339 RES_RATE). -/
def countRate (now : Nat) (r : Nat × Nat × Nat) : Nat × Nat × Nat :=
  let sec := now / secPs
  if r.1 = sec then (sec, r.2.1 + 1, r.2.2) else (sec, 1, if r.1 + 1 = sec then r.2.1 else 0)

/-- Writes one record into its queue (R318, R321, R322, R328). -/
def writeRec (p : PRec) (s : State) : State :=
  let q := p.queue
  let e := (ringCfg s q).entries
  let n := (rqueue s q).next
  let link := if p.outcome then (tabGet s.res.seqs p.id).getD n
    else if p.chained ∧ p.seg ≠ 0 then (tabGet s.res.chains p.chain).getD n else n
  let body := leBytes 8 n ++ leBytes 8 link ++ p.body
  let bytes := body ++ leBytes 4 (crc32c body) ++ leBytes 4 1
  let gone := n - e
  let lose := decide (e < n) && decide ((rqueue s q).base ≤ gone)
  let hit := if lose then (subsOf s q).filter fun x => decide (x.2.r ≤ gone) else []
  let s := hit.foldl (fun s x => setSub x.1 q (fun y => { y with lost := y.lost + 1 }) s) s
  let s := setQueue q (fun r => { r with
    next := n + 1, recs := tabPut (if e < n then tabDel r.recs gone else r.recs) n bytes, written := r.written + 1
    lost := if hit.isEmpty then r.lost else r.lost + 1 }) s
  let s := if hit.isEmpty then s else resultNotify q 0 1 (rset resBase 0 s)
  let s := setRes (fun r => { r with
    rate := countRate s.now r.rate
    seqs := if p.outcome then tabDel r.seqs p.id else if nth p.body 79 = 0 then r.seqs else tabPut r.seqs p.id n
    chains := if p.chained then tabPut r.chains p.chain n else r.chains }) s
  let s := if p.tile = 0 ∨ p.outcome then s else tileSeq p.tile q n s
  (subsOf s q).foldl (fun s x => pump q s x.1) s

/-- Records waiting for a writer place, of which 61,440 are for DEFECT and 4,096 for MARK_OUTCOME records (R326). -/
def defectPlaces (s : State) : Nat := (s.res.writer.filter fun p => ! p.outcome).length

/-- A DEFECT record reaches the writer, or EMIT on its cluster waits (R326). -/
def submitRec (p : PRec) (s : State) : State :=
  if s.elx.emitWait.isEmpty ∧ defectPlaces s < 61440 then setRes (fun r => { r with writer := r.writer ++ [p] }) s
  else rset resBase 2 { s with elx := { s.elx with emitWait := s.elx.emitWait ++ [p] } }

/-- A MARK_OUTCOME record reaches the writer, or is dropped and counted (R326). -/
def submitOutcome (p : PRec) (s : State) : State :=
  if (s.res.writer.filter fun x => x.outcome).length < 4096 then setRes (fun r => { r with writer := r.writer ++ [p] }) s
  else resultNotify p.queue 2 1 (rset resBase 3 (setQueue p.queue (fun r => { r with dropped := r.dropped + 1 }) s))

def dropFirst (f : PRec → Bool) : List PRec → List PRec
  | [] => []
  | p :: r => if f p then r else p :: dropFirst f r

/-- A MARK_OUTCOME record whose DEFECT record was lost with the writer (log 217). -/
def orphan (s : State) (p : PRec) : Bool :=
  let same : PRec → Bool := fun d => ! d.outcome && d.id == p.id
  p.outcome && (tabGet s.res.seqs p.id).isNone && ! (s.res.writer.any same || s.elx.emitWait.any same || s.elx.held.any same)

/-- Records that EMIT waits with take the writer's free places (R326). -/
def refill (s : State) : State :=
  let n := 61440 - defectPlaces s
  setRes (fun r => { r with writer := (r.writer.filter fun p => ! orphan s p) ++ s.elx.emitWait.take n }) { s with elx := { s.elx with emitWait := s.elx.emitWait.drop n } }

/-- The result writer writes the first record it can, and a waiting one takes its place (R321, R324, R326). -/
def recordWritten (s : State) : State :=
  let s := refill s
  let stalled := (s.res.writer.filter fun p => blocked s p.queue).map fun p => p.queue
  let s := if stalled.isEmpty then s else stalled.foldl (fun s q => resultNotify q 1 1 s) (rset resBase 1 s)
  match s.res.writer.find? (writable s) with
  | none => s
  | some p => refill (writeRec p (setRes (fun r => { r with writer := dropFirst (writable s) r.writer }) s))

/-! ## Registers (R339) -/

def resWriter (s : State) : Nat := min s.res.writer.length 131071

def resRate (s : State) : Nat :=
  let sec := s.now / secPs
  if s.res.rate.1 = sec then s.res.rate.2.2 else if s.res.rate.1 + 1 = sec then s.res.rate.2.1 else 0

def tileLife (s : State) : Nat := min 0xFFFFFFFF (s.res.tiles.foldl (fun m e => max m ((s.now - e.2.cut) / ms)) 0)

def mirReg (s : State) (link q : Nat) (f : Mirror → Nat) : Nat :=
  (subsOf s q).foldl (fun a e => match e.2.mirror with | some m => if m.link = link then f m else a | none => a) 0

/-! ## Commands of family 0x08 (R340) -/

/-- A queue is emptied: S_next stays, and every subscription below it has lost the records it had not read (R323, R328). -/
def emptyQueue (q : Nat) (ring : Option PResultQueueConfig) (s : State) : State :=
  let o := oldest s q
  let n := (rqueue s q).next
  let s := (subsOf s q).foldl (fun s x => setSub x.1 q (fun y => { y with lost := y.lost + (n - max o y.r) }) s) s
  setQueue q (fun r => { r with ring := ring, base := n, recs := [] }) s

def resultQueueConfig (p : PResultQueueConfig) : Cmd := mkResultQueueConfig p fun _ p s =>
  .ok (emptyQueue p.queue (some p) { s with cfg := { s.cfg with queues := tabPut s.cfg.queues p.queue p } }) []

def tilePoolConfig (p : PTilePoolConfig) : Cmd := mkTilePoolConfig p fun _ p s =>
  .ok (setRes (fun r => { r with tiles := [], nextBlock := 0, gen := 0, pool := p.mib }) { s with cfg := { s.cfg with pool := p.mib } }) []

def resultSubscribe (p : PResultSubscribe) : Cmd := mkResultSubscribe p fun tk p s =>
  if (tabGet s.res.subs (tk.session * 64 + p.queue)).isSome then .no eBusy []
  else if p.mode = 1 ∧ (subsOf s p.queue).any (fun e => match e.2.mirror with | some m => m.link == p.link | none => false) then .no eBusy []
  else if 4096 ≤ s.res.subs.length then .no eQueueFull []
  else
    let r := if p.start = 0 then oldest s p.queue else (rqueue s p.queue).next
    let m : Mirror := { link := p.link, addr := p.ring, slots := p.slots, coalesce := p.coalesce, seq := r }
    let sub : Sub := { mode := p.mode, window := p.window, r := r, push := r, mirror := if p.mode = 1 then some m else none }
    let s := setRes (fun x => { x with subs := tabPut x.subs (tk.session * 64 + p.queue) sub }) s
    let s := if p.mode = 1 then toBlock 40 (emit (.hostFill p.link p.ring (128 * p.slots))) (fun s => s) s else s
    .ok (pump p.queue s tk.session) [u64 r]

def resultUnsubscribe (p : PResultUnsubscribe) : Cmd := mkResultUnsubscribe p fun tk p s =>
  .ok (setRes (fun x => { x with subs := tabDel x.subs (tk.session * 64 + p.queue) }) s) []

def resultRead (p : PResultRead) : Cmd := mkResultRead p fun tk p s =>
  match tabGet s.res.subs (tk.session * 64 + p.queue) with
  | none => .no eParam []
  | some x =>
    let from_ := max x.r (oldest s p.queue)
    .ok s ([u64 (rqueue s p.queue).next, u64 x.r, u64 from_, u64 x.lost] ++
      (List.range p.count).map fun i => .block (recordAt s p.queue (from_ + i)))

def resultAdvance (p : PResultAdvance) : Cmd := mkResultAdvance p fun tk p s =>
  match tabGet s.res.subs (tk.session * 64 + p.queue) with
  | none => .no eParam []
  | some x =>
    if (rqueue s p.queue).next < p.index then .no eParam []
    else .ok (pump p.queue (setSub tk.session p.queue (fun y => { y with r := max y.r p.index }) s) tk.session) [u64 (max x.r p.index)]

/-- RESULT_STATUS; the r and LOST of a caller without a subscription are free (log 3). -/
def resultStatus (p : PResultStatus) : Cmd := mkResultStatus p fun tk p s =>
  let q := rqueue s p.queue
  let a := takeNat s
  let b := takeNat a.2
  let own := match tabGet s.res.subs (tk.session * 64 + p.queue) with
    | some x => (x.r, x.lost, s)
    | none => (a.1 % 2 ^ 64, b.1 % 2 ^ 64, b.2)
  .ok own.2.2 [u32 (ringCfg s p.queue).entries, u8 (ringCfg s p.queue).policy, u64 q.next, u64 (oldest s p.queue), u64 q.written, u64 q.lost,
    u16 (subsOf s p.queue).length, u64 own.1, u64 own.2.1, u64 q.dropped]

def tileInfo (p : PTileInfo) : Cmd := mkTileInfo p fun _ p s =>
  match tileOf s p.handle with
  | some t => .ok s [.block (t.bytes.take 64)]
  | none => .no eStale []

def tileFetch (p : PTileFetch) : Cmd := mkTileFetch p fun _ p s =>
  match tileOf s p.handle with
  | some t => if t.bytes.length < p.offset + p.length then .no eParam [] else .ok s [.block ((t.bytes.drop p.offset).take p.length)]
  | none => .no eStale []

def resCountersClear : Cmd := mkResCountersClear fun _ s =>
  .ok (setRes (fun r => { r with queues := r.queues.map fun e => (e.1, { e.2 with written := 0, lost := 0, dropped := 0 }) }) s) []

end Sys2Proof.Machine
end

