-- ==== Sys2Proof/Machine/Models.lean ====
section
/-! DEFINITION. Sys2Proof/Machine/Models.lean: classifier models (chapter 07): the package, its checks, int8 inference, cost,
and the model store. -/

namespace Sys2Proof.Machine

/-! ## The package (R290 to R295) -/

/-- A layer descriptor (R295). -/
structure Layer where
  typ : Nat
  inA : Nat
  inB : Nat
  pad : Nat
  kh : Nat
  kw : Nat
  sh : Nat
  sw : Nat
  dw : Nat
  zx : Int
  zb : Int
  zy : Int
  lo : Int
  hi : Int
  outC : Nat
  wOff : Nat
  bOff : Nat
  qOff : Nat
  ma : Int
  sa : Nat
  mb : Int
  sb : Nat
  raw : List Nat

def mkLayer (d : List Nat) : Layer :=
  { typ := nth d 0, inA := nth d 1, inB := nth d 2, pad := nth d 3, kh := nth d 4, kw := nth d 5, sh := nth d 6, sw := nth d 7
    dw := nth d 8, zx := leAtI d 9 1, zb := leAtI d 10 1, zy := leAtI d 11 1, lo := leAtI d 12 1, hi := leAtI d 13 1
    outC := leAt d 14 2, wOff := leAt d 16 4, bOff := leAt d 20 4, qOff := leAt d 24 4
    ma := leAtI d 28 4, sa := nth d 32, mb := leAtI d 36 4, sb := nth d 40, raw := d }

def pkLayerOff (b : List Nat) : Nat := leAt b 16 4
def pkLayers (b : List Nat) : Nat := leAt b 12 2
def pkParamOff (b : List Nat) : Nat := leAt b 20 4
def pkParamLen (b : List Nat) : Nat := leAt b 24 4
def pkW (b : List Nat) : Nat := leAt b 28 2
def pkH (b : List Nat) : Nat := leAt b 30 2
def pkC (b : List Nat) : Nat := nth b 32
def pkOut (b : List Nat) : Nat := nth b 34

def layersOf (b : List Nat) : List Layer :=
  (List.range (pkLayers b)).map fun i => mkLayer ((b.drop (pkLayerOff b + 64 * i)).take 64)

/-! ## Shapes (R296, R297) -/

/-- Height, width and channels. -/
abbrev Shape := Nat × Nat × Nat

/-- Output size along one axis (R297). -/
def outSize (pad k s h : Nat) : Nat := if pad = 0 then (if h < k then 0 else (h - k) / s + 1) else ceilDiv h s

/-- Padding before the first row or column (R297). -/
def padBefore (pad k s h : Nat) : Nat := if pad = 0 then 0 else ((outSize pad k s h - 1) * s + k - h) / 2

/-- The output shape of a layer, none where its inputs do not allow one (R296, R297). -/
def layerShape (l : Layer) (a : Shape) (b : Option Shape) : Option Shape :=
  let win : Nat → Option Shape := fun c =>
    let oh := outSize l.pad l.kh l.sh a.1
    let ow := outSize l.pad l.kw l.sw a.2.1
    if oh = 0 ∨ ow = 0 then none else some (oh, ow, c)
  match l.typ with
  | 1 => win (if l.dw = 1 then a.2.2 else l.outC)
  | 2 => if a.1 * a.2.1 * a.2.2 ≤ 65536 then some (1, 1, l.outC) else none
  | 3 | 4 => win a.2.2
  | 5 => some (1, 1, a.2.2)
  | 6 => if b = some a then some a else none
  | 7 => match b with
    | some (h, w, c) => if h = a.1 ∧ w = a.2.1 then some (h, w, a.2.2 + c) else none
    | none => none
  | 8 => if a.1 = 1 ∧ a.2.1 = 1 then some a else none
  | _ => none

/-- The shape an input index names: 0xFF the model input, otherwise an earlier layer. -/
def inShape (b : List Nat) (done : List (Option Shape)) (i : Nat) : Option Shape :=
  if i = 255 then some (pkH b, pkW b, pkC b) else done.getD i none

/-- The shapes of the layers' outputs in index order, none where one cannot be formed. -/
def shapesOf (b : List Nat) : List (Option Shape) :=
  (layersOf b).foldl (fun done l => done ++ [match inShape b done l.inA with
    | some a => layerShape l a (if l.typ = 6 ∨ l.typ = 7 then inShape b done l.inB else none)
    | none => none]) []

/-- The input shape of layer i. -/
def inShapeOf (b : List Nat) (i : Nat) (l : Layer) : Option Shape := inShape b ((shapesOf b).take i) l.inA

def volume (x : Shape) : Nat := x.1 * x.2.1 * x.2.2

/-- Inputs multiplied per output value of CONV2D and DENSE (R299). -/
def layerK (l : Layer) (a : Shape) : Nat := if l.typ = 2 then volume a else if l.dw = 1 then l.kh * l.kw else l.kh * l.kw * a.2.2

/-- Output channels of CONV2D and DENSE. -/
def layerOc (l : Layer) (a : Shape) : Nat := if l.typ = 1 ∧ l.dw = 1 then a.2.2 else l.outC

def hasWeights (l : Layer) : Bool := l.typ == 1 || l.typ == 2

def hasInB (l : Layer) : Bool := l.typ == 6 || l.typ == 7

/-- Live activation bytes at layer i: its output and every earlier tensor, the model input among them, that it or a later
layer reads (R300). -/
def liveAt (b : List Nat) (i : Nat) : Nat :=
  let ls := layersOf b
  let sh := shapesOf b
  let reads : Nat → Bool := fun t => (ls.drop i).any fun l => l.inA == t || (hasInB l && l.inB == t)
  let vol : Option Shape → Nat := fun o => match o with | some x => volume x | none => 0
  vol (sh.getD i none) + (if reads 255 then pkH b * pkW b * pkC b else 0) +
    ((List.range i).map fun t => if reads t then vol (sh.getD t none) else 0).foldl (· + ·) 0

def liveBytes (b : List Nat) : Nat := (List.range (pkLayers b)).foldl (fun m i => max m (liveAt b i)) 0

/-! ## Checks (R307): offset, reason, layer -/

/-- A failure of R307. -/
abbrev PkFault := Nat × Nat × Nat

def pkFail (c : Bool) (off reason layer : Nat) : Option PkFault := if c then some (off, reason, layer) else none

/-- The first failure of a list. -/
def firstFault (xs : List (Option PkFault)) : Option PkFault := xs.findSome? id

/-- Every byte of a range is 0; the first that is not. -/
def nonZeroAt (b : List Nat) (xs : List Nat) (reason layer : Nat) : Option PkFault :=
  xs.findSome? fun o => pkFail (nth b o != 0) o reason layer

def rangeFrom (a n : Nat) : List Nat := (List.range n).map (a + ·)

/-- A layer's output channels: OUT_C, but for a depthwise layer its input's, where that has a shape (R295, R296). -/
def ocOf (b : List Nat) (i : Nat) (l : Layer) : Option Nat :=
  if l.typ = 1 ∧ l.dw = 1 then (inShapeOf b i l).map (layerOc l) else if hasWeights l then some l.outC else none

/-- Parameter blocks of a layer: descriptor field, offset and length; lengths rest on shapes that can be formed. -/
def paramBlocks (b : List Nat) (i : Nat) (l : Layer) : List (Nat × Nat × Nat) :=
  if ! hasWeights l then [] else
  let n := (ocOf b i l).getD 0
  [(16, l.wOff, match inShapeOf b i l with | some a => layerOc l a * layerK l a | none => 0), (20, l.bOff, 4 * n), (24, l.qOff, 8 * n)]

/-- Reason 2 (R292). -/
def pkBounds (total : Nat) (b : List Nat) : Option PkFault :=
  let lo := pkLayerOff b
  let le := lo + 64 * pkLayers b
  let po := pkParamOff b
  let pe := po + pkParamLen b
  firstFault ([pkFail (leAt b 8 4 != total) 8 2 255, pkFail (decide (lo < 896 ∨ total < le)) 16 2 255, pkFail (decide (po < 896 ∨ total < pe)) 20 2 255,
      pkFail (decide (lo < pe ∧ po < le ∧ lo < le ∧ po < pe)) 20 2 255] ++
    ((layersOf b).mapIdx fun i l => (paramBlocks b i l).map fun e =>
      pkFail (e.2.1 % 4 != 0 || decide (pkParamLen b < e.2.1 + e.2.2)) (lo + 64 * i + e.1) 2 i).flatten)

/-- Reason 3: the CRC over the package with bytes 60 to 63 taken as 0 (R291). -/
def pkCrc (b : List Nat) : Option PkFault :=
  pkFail (crc32c (b.take 60 ++ [0, 0, 0, 0] ++ b.drop 64) != leAt b 60 4) 60 3 255

def sizeOk (x : Nat) : Bool := decide (8 ≤ x ∧ x ≤ 128) && x % 8 == 0

/-- Reason 4: header, input block and their reserved bytes (R291, R293; class map byte 255, R290). -/
def pkHeader (b : List Nat) : Option PkFault :=
  let entry : Nat → List (Option PkFault) := fun c =>
    let o := 64 + 16 * c
    if pkC b ≤ c then [nonZeroAt b (rangeFrom o 16) 4 255]
    else [pkFail (decide (3 < nth b o)) o 4 255, nonZeroAt b (rangeFrom (o + 1) 3) 4 255,
      pkFail (decide (leAtI b (o + 8) 4 < 1)) (o + 8) 4 255, pkFail (decide (62 < nth b (o + 12))) (o + 12) 4 255, nonZeroAt b (rangeFrom (o + 13) 3) 4 255]
  firstFault ([pkFail (decide (pkLayers b < 1 ∨ 256 < pkLayers b)) 12 4 255, nonZeroAt b [14, 15] 4 255,
      pkFail (pkLayerOff b % 16 != 0) 16 4 255, pkFail (pkParamOff b % 16 != 0) 20 4 255, pkFail (decide (33554432 < pkParamLen b)) 24 4 255,
      pkFail (! sizeOk (pkW b)) 28 4 255, pkFail (! sizeOk (pkH b)) 30 4 255, pkFail (decide (pkC b < 1 ∨ 4 < pkC b)) 32 4 255,
      pkFail (decide (1 < nth b 33)) 33 4 255, pkFail (decide (pkOut b < 1 ∨ 255 < pkOut b)) 34 4 255, nonZeroAt b [35, 56, 57, 58, 59] 4 255] ++
    entry 0 ++ entry 1 ++ entry 2 ++ entry 3 ++ [nonZeroAt b [383] 4 255])

/-- Reason 4: the reserved bytes of a descriptor and of its requantisation entries (R295). -/
def layerReserved (b : List Nat) (i : Nat) (l : Layer) : Option PkFault :=
  let o := pkLayerOff b + 64 * i
  firstFault (nonZeroAt b ((rangeFrom 33 3 ++ rangeFrom 41 23).map (o + ·)) 4 i :: match ocOf b i l with
    | some n => if ! hasWeights l then [] else (List.range n).map fun j => nonZeroAt b (rangeFrom (pkParamOff b + l.qOff + 8 * j + 5) 3) 4 i
    | none => [])

/-- The bytes of a descriptor that each type uses (R295, R296). -/
def usedBytes (l : Layer) : List Nat :=
  match l.typ with
  | 1 => [0, 1, 3, 4, 5, 6, 7, 8, 9, 11, 12, 13] ++ (if l.dw = 1 then [] else [14, 15]) ++ rangeFrom 16 12
  | 2 => [0, 1, 9, 11, 12, 13, 14, 15] ++ rangeFrom 16 12
  | 3 | 4 => [0, 1, 3, 4, 5, 6, 7, 9, 11, 12, 13]
  | 5 => [0, 1, 9, 11, 12, 13]
  | 6 => [0, 1, 2, 9, 10, 11, 12, 13] ++ rangeFrom 28 5 ++ rangeFrom 36 5
  | 7 => [0, 1, 2, 9, 10, 11, 12, 13]
  | _ => [0, 1]

/-- Reason 6: the fields of a descriptor in byte order, then its requantisation entries (R295, R296). -/
def layerFields (b : List Nat) (i : Nat) (l : Layer) : Option PkFault :=
  let o := pkLayerOff b + 64 * i
  let bad : Bool → Nat → Option PkFault := fun c k => pkFail c (o + k) 6 i
  let win := l.typ == 1 || l.typ == 3 || l.typ == 4
  let kOk : Nat → Bool := fun k => match l.typ with
    | 1 => [1, 3, 5, 7].contains k
    | 3 => k == 2 || k == 3
    | _ => decide (2 ≤ k ∧ k ≤ 7)
  let sOk : Nat → Bool := fun k => match l.typ with | 1 => k == 1 || k == 2 | _ => decide (1 ≤ k ∧ k ≤ 3)
  let used := usedBytes l
  let own : List (Nat × Option PkFault) := [
    (3, bad (win && decide (1 < l.pad)) 3), (4, bad (win && ! kOk l.kh) 4), (5, bad (win && ! kOk l.kw) 5), (6, bad (win && ! sOk l.sh) 6),
    (7, bad (win && ! sOk l.sw) 7), (8, bad (l.typ == 1 && decide (1 < l.dw)) 8), (10, bad (l.typ == 7 && l.zb != l.zx) 10),
    (11, bad ((l.typ == 3 || l.typ == 4 || l.typ == 5 || l.typ == 7) && l.zy != l.zx) 11),
    (12, bad (l.typ != 8 && (decide (l.hi < l.lo) || (l.typ == 7 && l.lo != -128))) 12), (13, bad (l.typ == 7 && l.hi != 127) 13),
    (14, bad ((l.typ == 2 || (l.typ == 1 && l.dw == 0)) && decide (l.outC < 1 ∨ 1024 < l.outC)) 14),
    (28, bad (l.typ == 6 && decide (l.ma < 1)) 28), (32, bad (l.typ == 6 && decide (62 < l.sa)) 32),
    (36, bad (l.typ == 6 && decide (l.mb < 1)) 36), (40, bad (l.typ == 6 && decide (62 < l.sb)) 40)]
  let byte : Nat → Option PkFault := fun k =>
    match bad (! used.contains k && nth l.raw k != (if k = 2 then 255 else 0)) k with
    | some f => some f
    | none => (own.find? fun e => e.1 == k).bind fun e => e.2
  let q : List (Option PkFault) := match ocOf b i l with
    | some n => if ! hasWeights l then [] else (List.range n).map fun j =>
        let e := pkParamOff b + l.qOff + 8 * j
        firstFault [pkFail (decide (leAtI b e 4 < 1)) e 6 i, pkFail (decide (62 < nth b (e + 4))) (e + 4) 6 i]
    | none => []
  firstFault ((List.range 64).map byte ++ q)

/-- Reason 7: connections and shapes (R296). -/
def layerLinks (b : List Nat) (i : Nat) (l : Layer) : Option PkFault :=
  let o := pkLayerOff b + 64 * i
  let last := i + 1 = pkLayers b
  firstFault [pkFail (l.inA != 255 && decide (i ≤ l.inA)) (o + 1) 7 i, pkFail (hasInB l && l.inB != 255 && decide (i ≤ l.inB)) (o + 2) 7 i,
    pkFail (decide ((l.typ = 8) ≠ last)) o 7 i,
    pkFail ((shapesOf b).getD i none).isNone (o + 1) 7 i,
    pkFail (l.typ == 8 && (shapesOf b).getD i none != some (1, 1, pkOut b)) (o + 1) 7 i]

/-- Reason 8: the limits of R300 and the bound of R299. -/
def layerLimits (b : List Nat) (i : Nat) (l : Layer) : Option PkFault :=
  let o := pkLayerOff b + 64 * i
  let big := match (shapesOf b).getD i none with
    | some (h, w, c) => decide (128 < h ∨ 128 < w ∨ 1024 < c)
    | none => false
  let accs := match inShapeOf b i l with
    | some a => if ! hasWeights l then [] else (List.range (layerOc l a)).map fun j =>
        let e := pkParamOff b + l.bOff + 4 * j
        pkFail (decide (2147483647 < (leAtI b e 4).natAbs + layerK l a * 32640)) e 8 i
    | none => []
  firstFault (pkFail big o 8 i :: pkFail (decide (98304 < liveAt b i)) o 8 i :: accs)

/-- Reason 9: the class map and the confidence table (R294). -/
def pkTables (b : List Nat) : Option PkFault :=
  firstFault ((List.range 255).map (fun i => pkFail ((nth b (128 + i) == 0) == decide (i < pkOut b)) (128 + i) 9 255) ++
    pkFail (leAt b 384 2 != 32768) 384 9 255 ::
    (List.range 255).map fun d => pkFail (decide (leAt b (384 + 2 * d) 2 < leAt b (386 + 2 * d) 2)) (386 + 2 * d) 9 255)

/-- The first failure of a package staged with `total` bytes (R307). -/
def pkCheck (total : Nat) (b : List Nat) : Option PkFault :=
  let ls := layersOf b
  firstFault ([pkFail (leAt b 0 4 != 0x4C444D4B) 0 1 255, pkFail (leAt b 4 2 != 1) 4 1 255, pkFail (leAt b 6 2 != 64) 6 1 255,
      pkBounds total b, pkCrc b, pkHeader b] ++ ls.mapIdx (layerReserved b) ++
    ls.mapIdx (fun i l => pkFail (decide (l.typ < 1 ∨ 8 < l.typ)) (pkLayerOff b + 64 * i) 5 i) ++
    ls.mapIdx (layerFields b) ++ ls.mapIdx (layerLinks b) ++ ls.mapIdx (layerLimits b) ++ [pkTables b])

/-! ## Cost (R310) -/

def layerCost (b : List Nat) (i : Nat) (l : Layer) : Nat :=
  match inShapeOf b i l, (shapesOf b).getD i none with
  | some a, some o => match l.typ with
    | 1 => if l.dw = 1 then ceilDiv (volume o * l.kh * l.kw) 32 else ceilDiv (volume o * layerK l a) 128
    | 2 => ceilDiv (volume a * l.outC) 128
    | 3 | 4 => ceilDiv (volume o * l.kh * l.kw) 64
    | 5 => ceilDiv (volume a) 32
    | 6 | 7 => ceilDiv (volume o) 32
    | _ => 200 + 4 * pkOut b
  | _, _ => 0

def modelCost (b : List Nat) : Nat :=
  1000 + ceilDiv (pkW b * pkH b * pkC b) 16 + ceilDiv (pkParamLen b) 64 + ((layersOf b).mapIdx (layerCost b)).foldl (· + ·) 0

/-! ## Inference (R296 to R298, R302 to R305) -/

/-- A tensor: its shape and its values, [row][column][channel]. -/
structure Tensor where
  sh : Shape
  d : Array Int

def tget (x : Tensor) (r c k : Nat) : Int := x.d.getD ((r * x.sh.2.1 + c) * x.sh.2.2 + k) 0

/-- rq(a, M, S) (R298). -/
def rq (a m : Int) (s : Nat) : Int := Int.fdiv (a * m + (if s = 0 then 0 else 2 ^ (s - 1))) (2 ^ s)

/-- The positions of a window that lie inside the input: kernel row and column, input row and column. -/
def window (l : Layer) (a : Shape) (oy ox : Nat) : List (Nat × Nat × Nat × Nat) :=
  let ty := padBefore l.pad l.kh l.sh a.1
  let tx := padBefore l.pad l.kw l.sw a.2.1
  (List.range l.kh).flatMap fun ky => (List.range l.kw).filterMap fun kx =>
    let y := oy * l.sh + ky
    let x := ox * l.sw + kx
    if ty ≤ y ∧ y - ty < a.1 ∧ tx ≤ x ∧ x - tx < a.2.1 then some (ky, kx, y - ty, x - tx) else none

/-- The values of a tensor of a shape, by row, column and channel. -/
def build (sh : Shape) (f : Nat → Nat → Nat → Int) : Tensor :=
  ⟨sh, ((List.range sh.1).flatMap fun r => (List.range sh.2.1).flatMap fun c => (List.range sh.2.2).map fun k => f r c k).toArray⟩

def sumInt (xs : List Int) : Int := xs.foldl (· + ·) 0

/-- Signed little-endian number of n bytes in a package held as an array. -/
def arI (b : Array Nat) (o n : Nat) : Int := toSigned (8 * n) (leNat ((List.range n).map fun i => b.getD (o + i) 0))

/-- One layer (R296). -/
def runLayer (b : Array Nat) (po : Nat) (l : Layer) (sh : Shape) (a c : Tensor) : Tensor :=
  let cl := clampI l.lo l.hi
  let fin : Nat → Int → Int := fun oc acc =>
    cl (l.zy + rq acc (arI b (po + l.qOff + 8 * oc) 4) (b.getD (po + l.qOff + 8 * oc + 4) 0))
  let bias : Nat → Int := fun oc => arI b (po + l.bOff + 4 * oc) 4
  let w : Nat → Int := fun i => arI b (po + l.wOff + i) 1
  let avg : List Int → Int := fun vs => cl (Int.fdiv (2 * sumInt vs + vs.length) (2 * vs.length))
  match l.typ with
  | 1 => build sh fun oy ox oc =>
      let pos := window l a.sh oy ox
      if l.dw = 1 then
        fin oc (bias oc + sumInt (pos.map fun p => w ((oc * l.kh + p.1) * l.kw + p.2.1) * (tget a p.2.2.1 p.2.2.2 oc - l.zx)))
      else
        fin oc (bias oc + sumInt (pos.map fun p => sumInt ((List.range a.sh.2.2).map fun ic =>
          w (((oc * l.kh + p.1) * l.kw + p.2.1) * a.sh.2.2 + ic) * (tget a p.2.2.1 p.2.2.2 ic - l.zx))))
  | 2 => build sh fun _ _ oc =>
      fin oc (bias oc + sumInt ((List.range (volume a.sh)).map fun i => w (oc * volume a.sh + i) * (a.d.getD i 0 - l.zx)))
  | 3 => build sh fun oy ox k => cl (((window l a.sh oy ox).map fun p => tget a p.2.2.1 p.2.2.2 k).foldl max (-128))
  | 4 => build sh fun oy ox k => avg ((window l a.sh oy ox).map fun p => tget a p.2.2.1 p.2.2.2 k)
  | 5 => build sh fun _ _ k => avg ((List.range a.sh.1).flatMap fun r => (List.range a.sh.2.1).map fun x => tget a r x k)
  | 6 => build sh fun r x k => cl (l.zy + rq (tget a r x k - l.zx) l.ma l.sa + rq (tget c r x k - l.zb) l.mb l.sb)
  | 7 => build sh fun r x k => if k < a.sh.2.2 then tget a r x k else tget c r x (k - a.sh.2.2)
  | _ => a

/-- The layers in index order, with the outputs done so far (R297). -/
def runLayers (b : Array Nat) (po : Nat) (input : Tensor) : List (Layer × Shape) → Array Tensor → Array Tensor
  | [], done => done
  | (l, sh) :: r, done =>
    let pick : Nat → Tensor := fun i => if i = 255 then input else done.getD i input
    runLayers b po input r (done.push (runLayer b po l sh (pick l.inA) (pick l.inB)))

/-- The tile's column or row for index i of the model's input (R302). -/
def presentIx (present n inN i : Nat) : Nat :=
  if present = 1 then (2 * i + 1) * n / (2 * inN)
  else (clampI 0 ((n : Int) - 1) (Int.fdiv ((n : Int) - inN) 2 + i)).toNat

/-- The model input of a tile (R302, R303). -/
def presentTile (b : List Nat) (tw th : Nat) (inputs : List (List Int)) : Tensor :=
  let present := nth b 33
  let ins := (inputs.map List.toArray).toArray
  build (pkH b, pkW b, pkC b) fun j i c =>
    let o := 64 + 16 * c
    let x := (ins.getD (nth b o) #[]).getD (presentIx present th (pkH b) j * tw + presentIx present tw (pkW b) i) 0
    clampI (-128) 127 (rq (x - leAtI b (o + 4) 4) (leAtI b (o + 8) 4) (nth b (o + 12)))

/-- The OUTPUT layer's values for a tile (R296). -/
def logits (b : List Nat) (tw th : Nat) (inputs : List (List Int)) : List Int :=
  let input := presentTile b tw th inputs
  let ls := List.zipWith (fun l (o : Option Shape) => (l, o.getD (0, 0, 0))) (layersOf b) (shapesOf b)
  ((runLayers b.toArray (pkParamOff b) input ls #[]).back?.getD input).d.toList

/-- Index of the largest value, the lowest on a tie (R305). -/
def argMax (q : List Int) : Nat :=
  let top := q.foldl max (-128)
  (q.findIdx? (· == top)).getD 0

/-- Index, class and confidence from the OUTPUT values (R305). -/
def verdict (b : List Nat) (q : List Int) : Nat × Nat × Nat :=
  let k := argMax q
  let sum := (q.map fun x => leAt b (384 + 2 * (nthI q k - x).toNat) 2).foldl (· + ·) 0
  (k, nth b (128 + k), min 65535 ((32768 * 65536 + sum / 2) / sum))

/-- The result of a model for a tile: index, class, confidence and logits. -/
def classifyTile (b : List Nat) (tw th : Nat) (inputs : List (List Int)) : Nat × Nat × Nat × List Int :=
  let q := logits b tw th inputs
  let v := verdict b q
  (v.1, v.2.1, v.2.2, q)

/-! ## The store (R306, R308, R309, R314) -/

def setModels (f : Models → Models) (s : State) : State := { s with models := f s.models }

/-- A staged package's bytes: the newest piece that covers a byte, or a free value where none was written (R306, log 3). -/
def stagedByte (k : Nat) (st : Staging) (i : Nat) : Nat :=
  match st.pieces.find? fun e => decide (e.1 ≤ i ∧ i < e.1 + e.2.length) with
  | some e => nth e.2 (i - e.1)
  | none => Config.freeNat (k + i) % 256

/-- Slots of a graph's contents in which a CLASSIFY node names a model, as a mask. -/
def slotsNaming (g : GraphSet) (id : Nat) : Nat :=
  (List.range 4).foldl (fun m k => if g.nodes.any fun e => decide (e.1 / 32 = k ∧ e.2.kernel = 0x70 ∧ nthI e.2.par 0 = id) then m + 2 ^ k else m) 0

/-- A CLASSIFY node of the working configuration set, or of contents in force for lines still to be analysed, names the
model (R314). -/
def modelNamed (s : State) (id : Nat) : Bool :=
  slotsNaming s.cfg.graph id != 0 || (runningState s.dev.state && s.elx.vers.any fun e => slotsNaming e.2 id != 0)

/-- A queued MODEL_SWAP names the model (R314). -/
def swapNames (s : State) (id : Nat) : Bool :=
  (s.dev.queue.any fun q => match q.i with | .modelSwap _ p => p.old == id || p.new == id | _ => false) ||
  (runningState s.dev.state && s.elx.changes.any fun c => match c.2.2 with | .swap a b => a == id || b == id | _ => false)

def modelNotify (id kind : Nat) (n : Int) (s : State) : State := notifySubs 0x07F0 [u16 id, u8 kind, s64 n] s

/-! ## Commands of family 0x07 (R315), all but MODEL_SWAP -/

def modelStage (p : PModelStage) : Cmd := mkModelStage p fun _ p s =>
  if (tabGet s.models.loaded p.id).isSome ∨ (tabGet s.models.staging p.id).isSome then .no eBusy []
  else if 64 ≤ s.models.loaded.length ∨ 4 ≤ s.models.staging.length then .no eQueueFull []
  else .ok (setModels (fun m => { m with staging := tabPut m.staging p.id { total := p.total } }) s) []

def modelWrite (p : PModelWrite) : Cmd := mkModelWrite p
  (fun _ p s => .ok (setModels (fun m => { m with staging := tabMod m.staging p.id fun st => { st with pieces := (p.offset, p.data) :: st.pieces } }) s) [])
  (fun p s => match tabGet s.models.staging p.id with
    | some st => if st.total < p.offset + p.length then some (eParam, []) else none
    | none => some (eParam, []))

def modelCommit (p : PModelCommit) : Cmd := mkModelCommit p
  (fun _ p s => match tabGet s.models.staging p.id with
    | none => .no eParam []
    | some st =>
      let b := (List.range st.total).map (stagedByte s.free st)
      match pkCheck st.total b with
      | some (o, r, l) => .no eFormat [u32 o, u8 r, u8 l]
      | none =>
        if 64 ≤ s.models.loaded.length then .no eQueueFull [] else
        let m : Model := { bytes := b, cost := modelCost b, live := liveBytes b }
        let s := setModels (fun x => { x with loaded := tabPut x.loaded p.id m, staging := tabDel x.staging p.id }) { s with free := s.free + st.total }
        .ok (modelNotify p.id 0 0 s) [u32 m.cost, u32 (pkParamLen b), u32 m.live])
  (fun p s => if (tabGet s.models.staging p.id).isNone then some (eParam, []) else none)

def modelAbort (p : PModelAbort) : Cmd := mkModelAbort p
  (fun _ p s => .ok (setModels (fun m => { m with staging := tabDel m.staging p.id }) s) [])
  (fun p s => if (tabGet s.models.staging p.id).isNone then some (eParam, []) else none)

def modelUnload (p : PModelUnload) : Cmd := mkModelUnload p
  (fun _ p s =>
    if modelNamed s p.id ∨ swapNames s p.id ∨ s.elx.waiting.any fun f => f.model == p.id then .no eBusy []
    else .ok (modelNotify p.id 2 0 (setModels (fun m => { m with loaded := tabDel m.loaded p.id }) s)) [])
  (fun p s => if (tabGet s.models.loaded p.id).isNone then some (eParam, []) else none)

/-- Entries of MODEL_LIST: the models loaded or staging, by ID (R315). -/
def modelEntries (s : State) : List (Nat × Nat × Nat × Nat) :=
  let all : Tab (Nat × Nat) := s.models.staging.foldl (fun t e => tabPut t e.1 (1, 0)) (s.models.loaded.map fun e => (e.1, (0, e.2.cost)))
  all.map fun e => (e.1, e.2.1, e.2.2, slotsNaming s.cfg.graph e.1)

/-- MODEL_LIST; a run of positions beyond the table's 64 is refused (R86). -/
def modelList (p : PModelList) : Cmd := mkModelList p
  (fun _ p s => .ok s (((modelEntries s).drop p.first |>.take p.count).flatMap fun e => [.align 4, u16 e.1, u8 e.2.1, u32 e.2.2.1, u8 e.2.2.2, .align 4]))
  (fun p _ => if 64 < p.first + p.count then some (eParam, []) else none)

def modelInfo (p : PModelInfo) : Cmd := mkModelInfo p
  (fun _ p s => match tabGet s.models.loaded p.id with
    | some m => .ok s [.block (m.bytes.take 64), u32 m.cost, u32 m.live, u64 m.tiles]
    | none => .no eParam [])

/-- The inputs of MODEL_TEST's tile: a pixel of an input that is not DEV16 is u16. -/
def testInputs (p : PModelTest) : List (List Int) :=
  (List.range p.inputs).map fun k =>
    ((p.pixels.drop (k * p.width * p.height)).take (p.width * p.height)).map fun x => if bit p.types k then toSigned 16 (toUnsigned 16 x) else (toUnsigned 16 x : Nat)

def modelTest (p : PModelTest) : Cmd := mkModelTest p
  (fun _ p s => match tabGet s.models.loaded p.id with
    | none => .no eParam []
    | some m =>
      let r := classifyTile m.bytes p.width p.height (testInputs p)
      .ok s ([u8 r.1, u8 r.2.1, u16 r.2.2.1] ++ r.2.2.2.map fun x => .num 1 x))
  (fun p s => match tabGet s.models.loaded p.id with
    | none => some (eParam, [])
    | some m => if (List.range (pkC m.bytes)).any fun c => decide (p.inputs ≤ nth m.bytes (64 + 16 * c)) then some (eParam, []) else none)

end Sys2Proof.Machine
end

