-- ==== Sys2Proof/Machine/Graph.lean ====
section
/-! DEFINITION. Sys2Proof/Machine/Graph.lean: analysis graphs (chapter 06): their contents, the checks of R257, the cost
estimator, changes while running, and the commands of family 0x06 but GRAPH_COST. -/

namespace Sys2Proof.Machine

def setElx (f : Elx → Elx) (s : State) : State := { s with elx := f s.elx }

/-! ## Nodes (R256, R260) -/

def kPlane : Nat := 0x01
def kBg : Nat := 0x10
def kDev : Nat := 0x20
def kCombine : Nat := 0x21
def kHyst : Nat := 0x30
def kMorph : Nat := 0x40
def kLabel : Nat := 0x50
def kGrade : Nat := 0x60
def kClassify : Nat := 0x70
def kMark : Nat := 0x80
def kTile : Nat := 0x90
def kEmit : Nat := 0xA0
def kDots : Nat := 0xB0

/-- The nodes of a slot, by number. -/
def gnodes (g : GraphSet) (slot : Nat) : Tab PGraphNode :=
  (g.nodes.filter fun e => e.1 / 32 == slot).map fun e => (e.1 % 32, e.2)

/-- A parameter in use: a 0 that stands for a default is that default (R260). -/
def npar (x : PGraphNode) (k : Nat) : Int :=
  let v := nthI x.par k
  if v ≠ 0 then v else match x.kernel, k with
    | 0x20, 1 => 4096
    | 0x50, 0 => 8
    | 0x50, 1 => 8
    | 0x50, 2 => 1
    | 0x50, 3 => 1
    | 0x90, 4 => 1024
    | 0x70, 2 => 256
    | 0xB0, 4 => 4
    | _, _ => 0

def nparN (x : PGraphNode) (k : Nat) : Nat := (npar x k).toNat

/-- The nodes an input list names. -/
def nodeIns (x : PGraphNode) : List Nat := x.inputs.filter (· != 255)

/-- Output types (R256): 0 none, 1 IMAGE16, 2 DEV16, 3 MASK, 4 COMP. -/
def outType (kernel : Nat) : Nat :=
  match kernel with
  | 0x01 | 0x10 => 1
  | 0x20 | 0x21 => 2
  | 0x30 | 0x40 => 3
  | 0x50 | 0x60 | 0x90 | 0x70 | 0x80 => 4
  | _ => 0

/-- The types each input place may take, and whether it must be filled (R260). TILE_CUT has four images or a COMP and
three: its COMP may be left out, since it has five inputs and four places (log 30). -/
def inPlaces (kernel : Nat) : List (List Nat × Bool) :=
  match kernel with
  | 0x10 => [([1], true)]
  | 0x20 => [([1], true), ([1], true)]
  | 0x21 => [([2], true), ([2], true), ([2], false), ([2], false)]
  | 0x30 => [([2], true)]
  | 0x40 => [([3], true)]
  | 0x50 => [([3], true), ([2], false), ([1], false)]
  | 0x90 => [([1, 2, 4], true), ([1, 2], false), ([1, 2], false), ([1, 2], false)]
  | 0x60 | 0x70 | 0x80 | 0xA0 => [([4], true)]
  | 0xB0 => [([1], true)]
  | _ => []

/-- The image inputs of a TILE_CUT node, in order. -/
def imageIns (ns : Tab PGraphNode) (x : PGraphNode) : List Nat :=
  (nodeIns x).filter fun i => match tabGet ns i with | some y => outType y.kernel != 4 | none => true

def findKernel (ns : Tab PGraphNode) (k : Nat) : Option (Nat × PGraphNode) := ns.find? fun e => e.2.kernel == k

/-- Passes of a MORPH node: OPEN and CLOSE make two (R256). -/
def morphPasses (x : PGraphNode) : Nat := if npar x 0 = 2 ∨ npar x 0 = 3 then 2 else 1

/-- CD radius of a node (R256). -/
def nodeRadius (x : PGraphNode) : Nat :=
  if x.kernel = kBg then nparN x 2 else if x.kernel = kMorph then morphPasses x * ((nparN x 1 - 1) / 2) else 0

/-- MD delay of a node's own passes (R256). -/
def nodeDelay (x : PGraphNode) : Nat := if x.kernel = kMorph then morphPasses x * ((nparN x 2 - 1) / 2) else 0

/-- For each node its sum of `own` along the worst path to it (R256). -/
def pathSums (own : PGraphNode → Nat) (ns : Tab PGraphNode) : Tab Nat :=
  ns.foldl (fun acc e => tabPut acc e.1 (own e.2 + ((nodeIns e.2).map fun i => if i < e.1 then (tabGet acc i).getD 0 else 0).foldl max 0)) []

def graphReach (ns : Tab PGraphNode) : Nat := (pathSums nodeRadius ns).foldl (fun m e => max m e.2) 0

/-- D_g (R256). -/
def graphDelay (ns : Tab PGraphNode) : Nat := (pathSums nodeDelay ns).foldl (fun m e => max m e.2) 0

/-! ## Checks of CONFIG_COMMIT (R257, R304) -/

/-- Rank of a component node in the chain (R257 reason 3). -/
def chainRank (kernel : Nat) : Option Nat := [0x50, 0x60, 0x90, 0x70, 0x80, 0xA0].findIdx? (· == kernel)

/-- The COMP input of a component node: its first input, or the component node before it for a TILE_CUT without one. -/
def compInput (ns : Tab PGraphNode) (e : Nat × PGraphNode) : Option Nat :=
  let first := nth e.2.inputs 0
  match tabGet ns first with
  | some y => if outType y.kernel = 4 ∨ e.2.kernel ≠ kTile then some first else ((ns.filter fun f => decide (f.1 < e.1) && (chainRank f.2.kernel).isSome).getLast?).map fun f => f.1
  | none => some first

/-- The first node that breaks the chain; 0xFF when EMIT is missing (R257 reason 3). -/
def chainFault (ns : Tab PGraphNode) : Option Nat :=
  let labels := ns.filter fun e => e.2.kernel == kLabel
  let chain := ns.filter fun e => (chainRank e.2.kernel).isSome && (e.2.kernel != kLabel || labels.head?.map (fun x => x.1) == some e.1)
  let walk := chain.foldl (fun (st : Option Nat × Option Nat × Option Nat) e =>
    if st.2.2.isSome then st else
    let r := chainRank e.2.kernel
    let okOrder := match st.1, r with | some a, some b => decide (a < b) | none, some b => b == 0 | _, none => false
    let okLink := match st.2.1 with | some p => compInput ns e == some p | none => e.2.kernel == kLabel
    if okOrder && okLink then (r, some e.1, none) else (st.1, st.2.1, some e.1)) (none, none, none)
  match walk.2.2 with
  | some n => some n
  | none => if walk.1 = some 5 then none else some 255

/-- Whether a stream belongs to the verification port. -/
def onVerifyPort (s : State) (st : Nat) : Bool :=
  match s.cfg.verify with | some v => st / 8 == v.port && (tabGet s.cfg.streams st).isSome | none => false

def verifySlot (s : State) : Option Nat := match s.cfg.verify with | some v => if v.slot = 255 then none else some v.slot | none => none

/-- A model's input entry names a source that a tile of `n` image inputs does not have (R304). -/
def sourceBad (m : Model) (n : Nat) : Bool := (List.range (pkC m.bytes)).any fun c => decide (n ≤ nth m.bytes (64 + 16 * c))

/-- Image inputs of a graph's TILE_CUT. -/
def tileInputs (ns : Tab PGraphNode) : Nat := match findKernel ns kTile with | some t => (imageIns ns t.2).length | none => 0

/-- The failures of one node: (reason, node). -/
def nodeFaults (s : State) (slot : Nat) (ns : Tab PGraphNode) (e : Nat × PGraphNode) : List (Nat × Nat) :=
  let x := e.2
  let ver := verifySlot s = some slot
  let bad1 := (nodeIns x).any fun i => decide (e.1 ≤ i) || (tabGet ns i).isNone
  let place : Nat → Bool := fun k =>
    let i := nth x.inputs k
    match (inPlaces x.kernel)[k]? with
    | none => i == 255
    | some (ts, must) => if i = 255 then ! must else match tabGet ns i with | some y => ts.contains (outType y.kernel) | none => false
  let images := (imageIns ns x).length
  let model := tabGet s.models.loaded (nparN x 0)
  let tiles := tileInputs ns
  (if bad1 then [(1, e.1)] else []) ++
  (if ! (List.range 4).all place ∨ (x.kernel = kTile ∧ images = 0) ∨ (x.kernel = kDots ∧ ¬ ver) then [(2, e.1)] else []) ++
  (if x.kernel = kClassify then (match model with
    | some m => if sourceBad m tiles then [(2, e.1)] else []
    | none => [(8, e.1)]) else []) ++
  (if x.kernel = kClassify ∧ (findKernel ns kTile).isNone then [(4, e.1)] else []) ++
  (if (x.kernel = kLabel ∧ 1 ≤ (ns.filter fun f => f.2.kernel == kLabel && decide (f.1 < e.1)).length) ∨
      (x.kernel = kMorph ∧ 4 ≤ (ns.filter fun f => f.2.kernel == kMorph && decide (f.1 < e.1)).length) then [(5, e.1)] else []) ++
  (if 256 < (tabGet (pathSums nodeRadius ns) e.1).getD 0 then [(6, e.1)] else []) ++
  (if x.kernel = kPlane ∧ (if ver then ! onVerifyPort s (nparN x 0) else match s.cfg.geom with | some g => decide (g.planes ≤ nparN x 0) | none => true) then [(7, e.1)] else [])

/-- The lowest of a list of (reason, node). -/
def lowest (xs : List (Nat × Nat)) : Option (Nat × Nat) :=
  xs.foldl (fun m x => match m with | some y => if x.1 < y.1 ∨ (x.1 = y.1 ∧ x.2 < y.2) then some x else some y | none => some x) none

/-- The failure of a slot: the lowest reason, then the lowest node (log 31). -/
def slotFault (s : State) (slot : Nat) : Option (Nat × Nat) :=
  let ns := gnodes s.cfg.graph slot
  if ns.isEmpty then none else
  lowest ((ns.flatMap (nodeFaults s slot ns)) ++ (match chainFault ns with | some n => [(3, n)] | none => []))

/-- The reply's parameters of the first slot that fails R257, or of an EMIT on a BLOCK queue (R324). -/
def graphCommitFault (s : State) : Option (List RV) :=
  match (List.range 4).findSome? fun k => (slotFault s k).map fun f => [u8 k, u8 f.2, u8 f.1] with
  | some r => some r
  | none => (List.range 4).findSome? fun k =>
      if verifySlot s = some k then none
      else match findKernel (gnodes s.cfg.graph k) kEmit with
        | some e => if (queueCfg s (nparN e.2 0)).policy = 1 then some [u8 (nparN e.2 0)] else none
        | none => none

/-! ## Cost (R284, R285, R310, R311) -/

/-- Cost of a node in quarter engine cycles per band pixel (R260). -/
def pixelCost4 (ns : Tab PGraphNode) (x : PGraphNode) : Nat :=
  match x.kernel with
  | 0x10 => 12
  | 0x20 | 0x30 => 4
  | 0x21 => 2 * (nodeIns x).length
  | 0x40 => morphPasses x * (nparN x 1 + nparN x 2)
  | 0x50 => 24
  | 0x90 => 2 * (imageIns ns x).length
  | 0xB0 => 8
  | _ => 0

def costPixel4 (ns : Tab PGraphNode) : Nat := (ns.map fun e => pixelCost4 ns e.2).foldl (· + ·) 0

/-- Pixels of a tile that the estimator counts; those of a BBOX tile are not stated (log 32). -/
def tilePixels (x : PGraphNode) : Nat :=
  if npar x 0 = 1 then Config.bboxTilePixels (nparN x 1) (nparN x 2) else nparN x 1 * nparN x 2

/-- Cost of a node in half engine cycles per component (R260, R310). -/
def compCost2 (s : State) (ns : Tab PGraphNode) (x : PGraphNode) : Nat :=
  match x.kernel with
  | 0x60 => 4000
  | 0x90 => 3 * tilePixels x * (imageIns ns x).length
  | 0x70 => match tabGet s.models.loaded (nparN x 0) with | some m => 2 * m.cost | none => 0
  | 0x80 => 200
  | 0xA0 => 100
  | _ => 0

def costComp2 (s : State) (ns : Tab PGraphNode) : Nat := (ns.map fun e => compCost2 s ns e.2).foldl (· + ·) 0

/-- GRAPH_BUDGET of a slot, or its default (R284). -/
def graphBudgetOf (s : State) (slot : Nat) : PGraphBudget := (tabGet s.cfg.gbudget slot).getD ⟨slot, 0, 4096⟩

/-- Owned columns of band k: first and number (R200). -/
def bandCols (g : PFeGeometry) (k : Nat) : Nat × Nat :=
  let lo := min (k * bandWidth g) g.width
  (lo, min ((k + 1) * bandWidth g) g.width - lo)

/-- Width of the widest stream that a verification graph reads (R382). -/
def verifyWidth (s : State) (ns : Tab PGraphNode) : Nat :=
  ns.foldl (fun m e => if e.2.kernel = kPlane then max m (match tabGet s.cfg.streams (nparN e.2 0) with | some c => c.width | none => 0) else m) 0

/-- The load of a slot on a cluster times 256,000 × the ENG clock in kHz, per mille (R284): 1,000 × (c_pixel4 × pixels + 2 × c_comp2 × R). -/
def loadNum (s : State) (slot k : Nat) : Nat :=
  let ns := gnodes s.cfg.graph slot
  if ns.isEmpty then 0 else
  let r := (graphBudgetOf s slot).rate
  let own := fun (pix dots : Nat) => costPixel4 ns * pix + 2 * costComp2 s ns * r + 4 * 200 * dots
  if verifySlot s = some slot then
    (match s.cfg.verify with
      | some v => if v.cluster = k then
          own ((verifyWidth s ns + 512) * grantedF s) (if (findKernel ns kDots).isSome then Config.dotRate slot else 0) else 0
      | none => 0)
  else match s.cfg.geom with
    | some g => if k < g.bands then own (((bandCols g k).2 + 512) * grantedF s) 0 else 0
    | none => 0

/-- eng_load of a slot on a cluster at a clock, with the verification graph's load on its cluster (R284). -/
def engLoad (s : State) (khz slot k : Nat) : Nat :=
  let v := match verifySlot s with | some w => if w = slot then 0 else loadNum s w k | none => 0
  ceilDiv (loadNum s slot k + v) (256 * khz)

def usedSlots (s : State) : List Nat := (List.range 4).filter fun k => ! (gnodes s.cfg.graph k).isEmpty

/-- The highest eng_load over the slots given, with its cluster, the lowest on a tie (R95). -/
def topLoad (s : State) (khz : Nat) (slots : List Nat) : Nat × Nat :=
  (slots.flatMap fun k => (List.range 16).map fun c => (engLoad s khz k c, c)).foldl
    (fun m x => if m.1 < x.1 ∨ (m.1 = x.1 ∧ x.2 < m.2) then x else m) (0, 0)

def bandedCount (s : State) : Nat := match s.cfg.geom with | some g => g.bands | none => 0

/-- Bytes per second a slot adds to DRAM_LOAD (R285, R311); what the input backlog and the feature records add is not stated
(log 32). -/
def slotDram (s : State) (slot : Nat) : Nat :=
  let ns := gnodes s.cfg.graph slot
  if ns.isEmpty then 0 else
  let w := match s.cfg.geom with | some g => g.width | none => 0
  let r := (graphBudgetOf s slot).rate
  let tile := match findKernel ns kTile with | some t => w * (imageIns ns t.2).length * 2 * grantedF s | none => 0
  let model := match findKernel ns kClassify with
    | some c => (match tabGet s.models.loaded (nparN c.2 0) with | some m => pkParamLen m.bytes * r * bandedCount s | none => 0)
    | none => 0
  tile + model + Config.backlogTraffic (w * grantedF s) + Config.featureTraffic r

/-! ## Contents in force (R259, R312) -/

/-- The parameters live in a running state (R260). -/
def isLive (kernel k : Nat) : Bool :=
  match kernel, k with
  | 0x10, 1 | 0x20, 1 | 0x30, 0 | 0x30, 1 | 0x50, 2 | 0x50, 3 | 0x70, 1 => true
  | _, _ => false

def setPar (k : Nat) (v : Int) (x : PGraphNode) : PGraphNode := { x with par := listMod x.par k fun _ => v }

/-- Contents after a change (R259, R312). -/
def liveApply (g : GraphSet) : LiveCh → GraphSet
  | .param slot node k v => { g with nodes := tabMod g.nodes (slot * 32 + node) (setPar k v) }
  | .rules slot first rs => { g with rules := (rs.mapIdx fun i r => (i, r)).foldl (fun t e => tabPut t (slot * 64 + first + e.1) e.2) g.rules }
  | .marks slot first es => { g with marks := (es.mapIdx fun i r => (i, r)).foldl (fun t e => tabPut t (slot * 256 + first + e.1) e.2) g.marks }
  | .swap old new => { g with nodes := g.nodes.map fun e => if e.2.kernel = kClassify ∧ npar e.2 0 = old then (e.1, setPar 0 new e.2) else e }

/-- The changes waiting for their web lines, in sequencer order (R313). -/
def insertChange (x : Option Int × Nat × LiveCh) : List (Option Int × Nat × LiveCh) → List (Option Int × Nat × LiveCh)
  | [] => [x]
  | y :: r => if x.2.1 < y.2.1 then x :: y :: r else y :: insertChange x r

/-- A change of graph contents: in the working configuration set at once, and in a running state at its web line (R259). -/
def changeGraph (tk : Ticket) (c : LiveCh) (s : State) : State :=
  let s := { s with cfg := { s.cfg with graph := liveApply s.cfg.graph c } }
  if runningState s.dev.state then setElx (fun x => { x with changes := insertChange (tk.pos, if tk.queued then tk.ord else s.dev.order, c) x.changes }) s else s

/-! ## Commands of family 0x06 (R288) -/

def graphNode (p : PGraphNode) : Cmd := mkGraphNode p fun _ p s =>
  .ok { s with cfg := { s.cfg with graph := { s.cfg.graph with nodes := tabPut s.cfg.graph.nodes (p.slot * 32 + p.node) p } } } []

/-- Empties a slot: nodes, rules, mark table and budget (R288, log 33). -/
def clearSlot (k : Nat) (s : State) : State :=
  let g := s.cfg.graph
  let g := { g with nodes := g.nodes.filter fun e => e.1 / 32 != k, rules := g.rules.filter fun e => e.1 / 64 != k, marks := g.marks.filter fun e => e.1 / 256 != k }
  { s with cfg := { s.cfg with graph := g, gbudget := tabDel s.cfg.gbudget k } }

def graphClear (p : PGraphClear) : Cmd := mkGraphClear p fun _ p s => .ok (clearSlot p.slot s) []

/-- A grading rule's codes and reserved bytes are legal (R276). -/
def ruleOk (r : List Nat) : Bool :=
  ((List.range 4).all fun k => decide (nth r (12 * k) ≤ 19) && decide (nth r (12 * k + 1) ≤ 6) && nth r (12 * k + 2) == 0 && nth r (12 * k + 3) == 0) &&
  decide (1 ≤ nth r 48) && decide (nth r 49 ≤ 2) && decide (nth r 50 ≤ 1) && (r.drop 51).all (· == 0)

/-- Chunks of n bytes. -/
def chunks (n count : Nat) (bs : List Nat) : List (List Nat) := (List.range count).map fun i => (bs.drop (n * i)).take n

def gradeRules (p : PGradeRules) : Cmd := mkGradeRules p
  (fun tk p s => .ok (changeGraph tk (.rules p.slot p.first (chunks 64 p.count p.data)) s) [])
  (fun p _ => if 64 < p.first + p.count ∨ (chunks 64 p.count p.data).any fun r => ! ruleOk r then some (eParam, []) else none)

def markTable (p : PMarkTable) : Cmd := mkMarkTable p
  (fun tk p s => .ok (changeGraph tk (.marks p.slot p.first ((chunks 4 p.count p.data).map fun e => (nth e 0, leAt e 2 2))) s) [])
  (fun p _ => if 256 < p.first + p.count ∨ (chunks 4 p.count p.data).any fun e => decide (3 < nth e 0) || nth e 1 != 0 then some (eParam, []) else none)

/-- GRAPH_SELECT: the slot of the working configuration set, and in a running state of the first strip from its key (R258). -/
def graphSelect (p : PGraphSelect) : Cmd := mkGraphSelect p
  (fun tk p s =>
    let s := { s with cfg := { s.cfg with select := some p.slot } }
    .ok (if runningState s.dev.state then setElx (fun x => { x with select := x.select ++ [(tk.pos, p.slot)] }) s else s) [])
  (fun p s => if (gnodes s.cfg.graph p.slot).isEmpty then some (eParam, []) else none)

def graphParam (p : PGraphParam) : Cmd := mkGraphParam p
  (fun tk p s => .ok (changeGraph tk (.param p.slot p.node p.par p.value) s) [])
  (fun p s => match tabGet s.cfg.graph.nodes (p.slot * 32 + p.node) with
    | none => some (eParam, [])
    | some x => if runningState s.dev.state ∧ ! isLive x.kernel p.par then some (eParam, []) else none)

def verifyGraph (p : PVerifyGraph) : Cmd := mkVerifyGraph p
  (fun _ p s => .ok { s with cfg := { s.cfg with verify := if p.slot = 255 then none else some p } } [])
  (fun p s => match tabGet s.cfg.ports p.port with
    | some c => if c.kind = 2 then none else some (eParam, [])
    | none => some (eParam, []))

def graphBudget (p : PGraphBudget) : Cmd := mkGraphBudget p fun _ p s =>
  .ok { s with cfg := { s.cfg with gbudget := tabPut s.cfg.gbudget p.slot p } } []

def elxGating (p : PElxGating) : Cmd := mkElxGating p fun _ p s => .ok { s with cfg := { s.cfg with gating := p.idleMs } } []

/-! ## Registers (R287) -/


/-- The components of a graph that wait for CLASSIFY, or have a segment that does: number and bands. -/
def waitOf (s : State) (verify : Bool) : List (Nat × Tab Nat) :=
  (s.elx.waiting.filter fun f => f.verify == verify).map fun f => (f.id, f.comp.bands)

/-- Entries that a graph's components hold in cluster k: one for each that has pixels there and is open or waits (R272). -/
def entriesOf (k : Nat) (comps : Tab Comp) (wait : List (Nat × Tab Nat)) : Nat :=
  let has : Tab Nat → Bool := fun b => (tabGet b k).isSome
  let idle := wait.filter fun w => has w.2 && match tabGet comps w.1 with | some c => ! has c.bands | none => true
  (comps.filter fun e => has e.2.bands).length + (idle.map fun w => w.1).eraseDups.length

/-- LMU entries in use in cluster k: open components and those that wait for CLASSIFY (R272). -/
def lmuOpen (s : State) (k : Nat) : Nat :=
  entriesOf k s.elx.web.comps (waitOf s false) + entriesOf k s.elx.vlmu.comps (waitOf s true)

/-- ELX_GRAPH (R287). -/
def elxGraph (s : State) : Nat :=
  let w := if runningState s.dev.state then s.elx.slot else s.cfg.select
  (match w with | some k => k + 4 | none => 0) +
    (match s.cfg.verify with | some v => v.slot * 8 + 32 + v.cluster * 64 | none => 0)

def elxClock (s : State) : Nat :=
  (if s.dev.state = .boot then 0 else s.mon.engKhz / 1000 / 2 ^ max s.mon.divT s.mon.divM) + (s.dev.admitKhz / 1000) * 65536

def backlogLines (s : State) (k : Nat) : Nat :=
  (match tabGet s.elx.clu k with | some c => c.backlog.length | none => 0) +
    (match s.cfg.verify with | some v => if v.cluster = k then s.elx.ver.backlog.length else 0 | none => 0)

/-- ELX and LMU counters to 0; the peaks to what they now count (R287). -/
def elxCntClear (s : State) : State :=
  (List.range 16).foldl (fun s k =>
    rput (elxReg k 0x1C) 0 (rput (elxReg k 0x18) 0 (rput (elxReg k 0x14) (lmuOpen s k)
      (rput (elxReg k 0x0C) 0 (rfield (elxReg k 8) 16 16 (rget (elxReg k 8) s % 65536) s))))) s

def elxStatus (p : PElxStatus) : Cmd := mkElxStatus p fun _ p s =>
  let k := p.cluster
  .ok s [s64 (toSigned 64 (rget (elxReg k 0) s + rget (elxReg k 4) s * 2 ^ 32)), u32 (rget (elxReg k 8) s), u32 (rget (elxReg k 0x0C) s),
    u32 (lmuOpen s k), u32 (rget (elxReg k 0x14) s), u32 (rget (elxReg k 0x18) s), u32 (rget (elxReg k 0x1C) s), u32 (backlogLines s k)]

def elxCountersClear : Cmd := mkElxCountersClear fun _ s => .ok (elxCntClear s) []

/-- ELX_NOTIFY, at most once per kind and cluster in each 100 ms (R289). -/
def elxNotify (kind k : Nat) (n : Int) (s : State) : State := notifyLimited 0x06F0 kind k 1 (fun _ => [u16 0, u8 kind, u8 k, s64 n]) s

end Sys2Proof.Machine
end

