-- ==== Sys2Proof/Machine/Pixel.lean ====
section
/-! DEFINITION. Sys2Proof/Machine/Pixel.lean: the pixel stage of a cluster (R253 to R255, R260 to R265): one web line through the
nodes of a graph over the owned columns and 256 on each side. -/

namespace Sys2Proof.Machine

/-! ## Rows -/

/-- Columns computed: the owned ones and an apron of 256 on each side (R200). -/
def apron : Nat := 256

/-- Element i of a row, the nearest one beyond its ends. -/
def rowAt (r : List Int) (i : Int) : Int := nthI r (clampI 0 ((r.length : Int) - 1) i).toNat

/-- A plane's values over owned columns lo .. lo + n − 1 and the aprons; beyond the web the nearest column (R200). -/
def bandRow (plane : List Nat) (lo n : Nat) : List Int :=
  (List.range (n + 2 * apron)).map fun (i : Nat) => nth plane (clampI 0 ((plane.length : Int) - 1) ((lo : Int) - apron + i)).toNat

def sat16 (x : Int) : Int := clampI (-32768) 32767 x

/-! ## Kernels of one line (R261 to R264) -/

/-- BG_EMA: the background out, and the state after (R261). -/
def bgEma (x : PGraphNode) (state : Option (List Nat)) (lost : Bool) (v : List Int) : List Int × List Nat :=
  let k := nparN x 0
  let gate := npar x 1
  let r := nparN x 2
  let st := match state with | some t => t | none => v.map fun (a : Int) => (a * 256).toNat
  let e : List Int := st.map fun (a : Nat) => (((a + 128) / 256 : Nat) : Int)
  let bg := (List.range v.length).map fun (i : Nat) =>
    let sum : Int := (List.range (2 * r + 1)).foldl (fun (a : Int) (j : Nat) => a + rowAt e ((i : Int) - r + j)) 0
    Int.fdiv (2 * sum + 2 * r + 1) (2 * (2 * r + 1))
  let learn : Int → Int → Nat → Nat := fun a b t =>
    if gate = 0 ∨ (a - b).natAbs ≤ gate.toNat then ((t : Int) + Int.fdiv (a * 256 - t) (2 ^ k)).toNat else t
  (bg, if lost then st else (v.zip (e.zip st)).map fun p => learn p.1 p.2.1 p.2.2)

/-- DEVIATION of one pixel (R262). -/
def deviation (mode : Nat) (g v b : Int) : Int :=
  let d := v - b
  let scaled : Int → Int := fun y => Int.fdiv (y * g + 2048) 4096
  sat16 (match mode with
    | 0 => scaled d
    | 1 => scaled d.natAbs
    | 2 => scaled (max (-d) 0)
    | 3 => scaled (max d 0)
    | _ => Int.fdiv (d * g) (max b 1))

/-- COMBINE of one pixel's inputs, in order (R263). -/
def combine (op : Nat) (xs : List Int) : Int :=
  match xs with
  | [] => 0
  | x :: r => match op with
    | 0 => r.foldl (fun a b => if a.natAbs < b.natAbs then b else a) x
    | 1 => r.foldl max x
    | 2 => r.foldl min x
    | _ => sat16 (r.foldl (· + ·) x)

/-- HYST of one pixel: 1 weak, 2 strong, 4 polarity dark (R264). -/
def hyst (lo hi : Int) (pol : Nat) (d : Int) : Int :=
  let meets : Int → Bool := fun t => match pol with
    | 1 => decide (t ≤ d)
    | 2 => decide (t ≤ -d)
    | _ => decide (t ≤ d.natAbs)
  if ! meets lo then 0 else 1 + (if meets hi then 2 else 0) + (if pol = 3 ∧ d < 0 then 4 else 0)

/-! ## Morphology (R265) -/

def isWeak (m : Int) : Bool := Int.emod m 2 == 1
def isStrong (m : Int) : Bool := Int.emod (Int.fdiv m 2) 2 == 1
def isDark (m : Int) : Bool := Int.emod (Int.fdiv m 4) 2 == 1

/-- One pass over a window of rows, `q` above and below the centre row: `erode` or dilate by w columns. -/
def morphPass (erode : Bool) (w : Nat) (rows : List (List Int)) (centre : List Int) : List Int :=
  let hw := (w - 1) / 2
  let test : (Int → Bool) → Nat → Bool := fun f i =>
    let hits : List Bool := rows.flatMap fun r => (List.range w).map fun (j : Nat) => f (rowAt r ((i : Int) - hw + j))
    if erode then hits.all (· == true) else hits.any (· == true)
  centre.mapIdx fun i m =>
    let bright := test (fun x => isWeak x && ! isDark x) i
    let dark := test (fun x => isWeak x && isDark x) i
    if ! bright ∧ ! dark then 0
    else
      let d := if bright && dark then (if isWeak m then isDark m else true) else dark
      1 + (if isStrong m then 2 else 0) + (if d then 4 else 0)

/-- A row of a node at a place in the history, zeros where there is none: before the first line analysed after a restart, or
after the last (R265). -/
def histRow (hist : List PixRow) (width p key : Nat) : List Int :=
  match hist[p]? with
  | some r => (tabGet r.vals key).getD (List.replicate width 0)
  | none => List.replicate width 0

/-- One pass of a MORPH node: its input is delayed by d lines; the row q lines behind that takes its output. -/
def morphStep (erode : Bool) (w q width d inKey outKey : Nat) (hist : List PixRow) : List PixRow :=
  let rows := (List.range (2 * q + 1)).map fun j => histRow hist width (d + j) inKey
  match hist[d + q]? with
  | none => hist
  | some r =>
    if r.vals.isEmpty then hist
    else
      let out := morphPass erode w rows (histRow hist width (d + q) inKey)
      hist.set (d + q) { r with vals := tabPut r.vals outKey out }

/-- MORPH node i over the history, with its input's delay (R265). -/
def morphNode (i d : Nat) (x : PGraphNode) (width : Nat) (hist : List PixRow) : List PixRow :=
  let w := nparN x 1
  let q := (nparN x 2 - 1) / 2
  let src := nth x.inputs 0
  match npar x 0 with
  | 0 => morphStep true w q width d src i hist
  | 1 => morphStep false w q width d src i hist
  | 2 => morphStep false w q width (d + q) (64 + i) i (morphStep true w q width d src (64 + i) hist)
  | _ => morphStep true w q width (d + q) (64 + i) i (morphStep false w q width d src (64 + i) hist)

/-- Every MORPH node of a graph over the history after a row has been pushed. -/
def morphAll (ns : Tab PGraphNode) (width : Nat) (hist : List PixRow) : List PixRow :=
  let delays := pathSums nodeDelay ns
  (ns.filter fun e => e.2.kernel == kMorph).foldl (fun h e =>
    morphNode e.1 ((tabGet delays (nth e.2.inputs 0)).getD 0) e.2 width h) hist

/-! ## A line through the nodes -/

/-- The source of a PLANE node: plane P0 of a web line, or stream P0's line of the verification port (R256). -/
def planeRow (verify : Bool) (l : WebLine) (p : Nat) : List Nat := l.planes.getD (if verify then p % 8 else p) []

/-- The rows of the nodes that need one line only, and the background states after it (R261 to R264). -/
def pixelRows (ns : Tab PGraphNode) (verify : Bool) (l : WebLine) (lost : Bool) (lo n lines : Nat) (bg : Tab (List Nat)) :
    Tab (List Int) × Tab (List Nat) :=
  ns.foldl (fun (st : Tab (List Int) × Tab (List Nat)) e =>
    let x := e.2
    let inp : Nat → List Int := fun k => (tabGet st.1 (nth x.inputs k)).getD []
    match x.kernel with
    | 0x01 => (tabPut st.1 e.1 (bandRow (planeRow verify l (nparN x 0)) lo n), st.2)
    | 0x10 =>
      let r := bgEma x (tabGet st.2 e.1) lost (inp 0)
      (tabPut st.1 e.1 r.1, tabPut st.2 e.1 r.2)
    | 0x20 =>
      let warm := (nodeIns x).any fun i => match tabGet ns i with
        | some y => y.kernel == kBg && decide (lines < nparN y 3)
        | none => false
      let row := List.zipWith (deviation (nparN x 0) (npar x 1)) (inp 0) (inp 1)
      (tabPut st.1 e.1 (if warm then row.map fun _ => 0 else row), st.2)
    | 0x21 =>
      let rows := (nodeIns x).map fun i => (tabGet st.1 i).getD []
      (tabPut st.1 e.1 ((List.range (inp 0).length).map fun i => combine (nparN x 0) (rows.map fun r => nthI r i)), st.2)
    | 0x30 => (tabPut st.1 e.1 ((inp 0).map (hyst (npar x 0) (npar x 1) (nparN x 2))), st.2)
    | _ => st) ([], bg)

/-- The owned part of a row. -/
def owned (n : Nat) (r : List Int) : List Int := (r.drop apron).take n

/-- Delay of the mask that LABEL reads. -/
def maskDelay (ns : Tab PGraphNode) : Nat :=
  match findKernel ns kLabel with
  | some l => (tabGet (pathSums nodeDelay ns) (nth l.2.inputs 0)).getD 0
  | none => 0

/-- What labelling takes of a line that has passed every pixel-stage node (R266, R267, R278). -/
def bandOut (ns : Tab PGraphNode) (n : Nat) (r : PixRow) : BandRow :=
  let row : Nat → List Int := fun i => owned n ((tabGet r.vals i).getD [])
  match findKernel ns kLabel with
  | none => ⟨[], [], [], []⟩
  | some l =>
    let opt : Nat → List Int := fun k => if nth l.2.inputs k = 255 then [] else row (nth l.2.inputs k)
    ⟨(row (nth l.2.inputs 0)).map Int.toNat, opt 1, opt 2, match findKernel ns kTile with | some t => (imageIns ns t.2).map row | none => []⟩

/-- Lines kept for the passes of MORPH: four nodes of two passes of 31 lines each, and the window of the last. -/
def histMax : Nat := 160

/-- A row enters a cluster's history; the line then complete, if any. -/
def pushRow (ns : Tab PGraphNode) (n : Nat) (r : PixRow) (hist : List PixRow) : List PixRow × Option (PixRow × BandRow) :=
  let h := (morphAll ns (n + 2 * apron) (r :: hist)).take histMax
  (h, match h[maskDelay ns]? with
    | some x => if x.vals.isEmpty then none else some (x, bandOut ns n x)
    | none => none)

/-- The lines still inside MORPH when a graph restarts or the analysis ends: completed with rows after them as 0 (log 34). -/
def flushRows (ns : Tab PGraphNode) (n : Nat) : Nat → List PixRow → List (PixRow × BandRow)
  | 0, _ => []
  | k + 1, h =>
    let r := pushRow ns n ⟨0, 0, []⟩ h
    (match r.2 with | some o => [o] | none => []) ++ flushRows ns n k r.1

end Sys2Proof.Machine
end

