-- ==== Sys2Proof/Machine/Label.lean ====
section
/-! DEFINITION. Sys2Proof/Machine/Label.lean: labelling and the label-merge unit (R266, R267, R271 to R275). Lines are labelled in
order of entry, each once every band has passed it (log 35). -/

namespace Sys2Proof.Machine

/-- How a component's record becomes final. -/
inductive End where
  | segment
  | closed
  | truncated
  | evicted (k : Nat)
  deriving DecidableEq, Repr

/-- What labelling needs of the graph and the web: the LABEL node's parameters, and the band of a column. -/
structure Lbl where
  conn : Nat
  gap : Nat
  width : Nat
  /-- The verification graph's cluster, which holds every column of it. -/
  only : Option Nat
  bw : Nat
  /-- Components that wait for CLASSIFY: of this graph, and of the other one (R272). -/
  wait : List (Nat × Tab Nat)
  waitO : List (Nat × Tab Nat)

def Lbl.band (x : Lbl) (c : Nat) : Nat := match x.only with | some k => k | none => c / x.bw

/-- LMU entries of a cluster (R252). -/
def lmuEntries : Nat := 262144

/-- Labelling in progress: the graph's unit and the other graph's, the runs of the line so far, and the components whose records have
become final, newest last: this graph's, and the other's that were evicted (R273). -/
structure LblSt where
  m : Lmu
  o : Lmu := {}
  cur : List Run := []
  out : List (Nat × Comp × End) := []
  outO : List (Nat × Comp × End) := []

/-! ## Components -/

def addPixel (n : Int) (c : Nat) (strong : Bool) (d v : Int) (x : Comp) : Comp :=
  { x with
    area := x.area + 1, sumC := x.sumC + c, sumN := x.sumN + n, sumCC := x.sumCC + c * c, sumNN := x.sumNN + (n * n).toNat, sumCN := x.sumCN + c * n
    cMin := if x.area = 0 then c else min x.cMin c, cMax := if x.area = 0 then c else max x.cMax c
    nMin := if x.area = 0 then n else min x.nMin n, nMax := if x.area = 0 then n else max x.nMax n
    strong := x.strong + boolNat strong, bright := x.bright + boolNat (decide (0 < d)), dark := x.dark + boolNat (decide (d < 0))
    devSum := x.devSum + d.natAbs, devMax := max x.devMax d.natAbs
    vMin := if x.area = 0 then v.toNat else min x.vMin v.toNat, vMax := if x.area = 0 then v.toNat else max x.vMax v.toNat }

def firstOf (a b : Int × Nat) : Int × Nat := if b.1 < a.1 ∨ (b.1 = a.1 ∧ b.2 < a.2) then b else a

/-- The union of two components; the segment open is that of `a` where it has been cut (R272, R274). -/
def joinComp (a b : Comp) : Comp :=
  let e := a.area = 0
  let f := b.area = 0
  { a with
    n0 := if a.segs = 0 then min a.n0 b.n0 else a.n0, first := firstOf a.first b.first
    cumArea := a.cumArea + b.cumArea, cumStrong := a.cumStrong + b.cumStrong
    bands := b.bands.foldl (fun t x => tabPut t x.1 (max x.2 ((tabGet t x.1).getD 0))) a.bands
    area := a.area + b.area, sumC := a.sumC + b.sumC, sumN := a.sumN + b.sumN, sumCC := a.sumCC + b.sumCC, sumNN := a.sumNN + b.sumNN, sumCN := a.sumCN + b.sumCN
    cMin := if e then b.cMin else if f then a.cMin else min a.cMin b.cMin, cMax := max a.cMax b.cMax
    nMin := if e then b.nMin else if f then a.nMin else min a.nMin b.nMin, nMax := if e then b.nMax else if f then a.nMax else max a.nMax b.nMax
    strong := a.strong + b.strong, boundary := a.boundary + b.boundary, bright := a.bright + b.bright, dark := a.dark + b.dark
    devSum := a.devSum + b.devSum, devMax := max a.devMax b.devMax
    vMin := if e then b.vMin else if f then a.vMin else min a.vMin b.vMin, vMax := max a.vMax b.vMax }

/-- The component that goes on after its segment (R274). -/
def nextSegment (n : Int) (x : Comp) : Comp :=
  { n0 := x.n0 + 65536 * Int.fdiv (n - x.n0) 65536, first := x.first, segs := x.segs + 1
    cumArea := x.cumArea + x.area, cumStrong := x.cumStrong + x.strong, bands := x.bands }

/-- Pixels that wait for the line below, of one component. -/
def pendOf (m : Lmu) (id : Nat) : Nat := (m.pend.filter fun p => p.2 == id).length

/-- A component leaves: the pixels that waited for the line below have none there (R267). -/
def finish (id : Nat) (how : End) (x : LblSt) : LblSt :=
  match tabGet x.m.comps id with
  | none => x
  | some c =>
    { x with
      m := { x.m with comps := tabDel x.m.comps id, pend := x.m.pend.filter fun p => p.2 != id }
      out := x.out ++ [(id, { c with boundary := c.boundary + pendOf x.m id }, how)] }

/-- A component is cut where it first gains a pixel on a line at or beyond n0 + 65,536 (R274). -/
def cutAt (n : Int) (id : Nat) (x : LblSt) : LblSt :=
  match tabGet x.m.comps id with
  | none => x
  | some c =>
    if n < c.n0 + 65536 then x
    else { x with m := { x.m with comps := tabPut x.m.comps id (nextSegment n c) }, out := x.out ++ [(id, c, .segment)] }

/-- The order of age: components already cut first, then by first pixel (log 35). -/
def older (a b : Nat × Comp) : Bool :=
  if (a.2.segs = 0) ≠ (b.2.segs = 0) then decide (b.2.segs = 0)
  else decide (a.2.first.1 < b.2.first.1 ∨ (a.2.first.1 = b.2.first.1 ∧ (a.2.first.2 < b.2.first.2 ∨ (a.2.first.2 = b.2.first.2 ∧ a.1 < b.1))))

def oldestOf (xs : List (Nat × Comp)) : Option (Nat × Comp) :=
  xs.foldl (fun m x => match m with | some y => if older x y then some x else some y | none => some x) none

/-- Component `b` becomes part of `a`. -/
def mergeInto (a b : Nat) (x : LblSt) : LblSt :=
  if a = b then x else
  match tabGet x.m.comps a, tabGet x.m.comps b with
  | some p, some q =>
    let ren : Nat → Nat := fun i => if i = b then a else i
    let m := { x.m with
      comps := tabPut (tabDel x.m.comps b) a (joinComp p q)
      prev := x.m.prev.map fun e => (e.1, e.2.map fun r => { r with id := ren r.id })
      pend := x.m.pend.map fun e => (e.1, ren e.2) }
    { x with m := m, cur := x.cur.map fun r => { r with id := ren r.id } }
  | _, _ => x

/-- A component needs an entry in cluster k: its oldest open component, of either graph, is closed when all are in use (R273). -/
def needEntry (x : Lbl) (k : Nat) (st : LblSt) : LblSt :=
  if entriesOf k st.m.comps x.wait + entriesOf k st.o.comps x.waitO < lmuEntries then st else
  let oldest : Lmu → Option (Nat × Comp) := fun m => oldestOf ((m.comps.filter fun e => (tabGet e.2.bands k).isSome).map fun e => (e.1, { e.2 with segs := 0 }))
  let evictO : Nat → LblSt := fun i => let r := finish i (.evicted k) { m := st.o }; { st with o := r.m, outO := st.outO ++ r.out }
  match oldest st.m, oldest st.o with
  | some a, some b => if older (0, b.2) (0, a.2) then evictO b.1 else finish a.1 (.evicted k) st
  | some a, none => finish a.1 (.evicted k) st
  | none, some b => evictO b.1
  | none, none => st

/-! ## One line -/

/-- The full row of a part of the bands' rows, `d` elsewhere. -/
def fullRow (x : Lbl) (parts : Tab BandRow) (f : BandRow → List Int) (d : Int) : List Int :=
  match x.only with
  | some k => match tabGet parts k with | some p => f p | none => List.replicate x.width d
  | none => (List.range (ceilDiv x.width (max 1 x.bw))).flatMap fun (k : Nat) =>
      let n := min ((k + 1) * x.bw) x.width - k * x.bw
      match tabGet parts k with
      | some p => (List.range n).map fun (i : Nat) => (f p).getD i d
      | none => List.replicate n d

/-- The runs of a mask row: weak pixels of one polarity, left to right; `c` is the column, `cur` the run open. -/
def runsOf : List Nat → Nat → Option (Nat × Nat) → List (Nat × Nat × Nat)
  | [], c, some (a, p) => [(a, c - 1, p)]
  | [], _, none => []
  | m :: r, c, cur =>
    let p := m / 4 % 2
    if m % 2 = 0 then (match cur with | some (a, q) => (a, c - 1, q) :: runsOf r (c + 1) none | none => runsOf r (c + 1) none)
    else match cur with
      | some (a, q) => if p = q then runsOf r (c + 1) (some (a, q)) else (a, c - 1, q) :: runsOf r (c + 1) (some (c, p))
      | none => runsOf r (c + 1) (some (c, p))

/-- The pixels that waited for this line: those whose column it holds are decided (R267 BOUNDARY). -/
def settlePend (x : Lbl) (analysed : Nat → Bool) (mask : List Nat) (m : Lmu) : Lmu :=
  let prevPol : Nat → Nat := fun c => match tabGet m.prev (x.band c) with
    | some rs => match rs.find? fun r => decide (r.a ≤ c ∧ c ≤ r.b) with | some r => r.pol | none => 2
    | none => 2
  let due := m.pend.filter fun p => analysed (x.band p.1)
  let below : Nat → Bool := fun c => let v := nth mask c; v % 2 == 1 && v / 4 % 2 == prevPol c
  let comps := due.foldl (fun t p => if below p.1 then t else tabMod t p.2 fun c => { c with boundary := c.boundary + 1 }) m.comps
  { m with comps := comps, pend := m.pend.filter fun p => ! analysed (x.band p.1) }

/-- Open components that a run of this line touches on the bands' last analysed lines (R266). -/
def touched (x : Lbl) (m : Lmu) (r : Nat × Nat × Nat) : List Nat :=
  let span := if x.conn = 4 then 0 else 1
  let all := m.prev.flatMap fun e => e.2.filter fun p => p.pol == r.2.2 && decide (p.a ≤ r.2.1 + span) && decide (r.1 ≤ p.b + span)
  (all.map fun p => p.id).eraseDups.filter fun i => (tabGet m.comps i).isSome

/-- The bands a run has pixels in. -/
def runBands (x : Lbl) (r : Nat × Nat × Nat) : List Nat := ((List.range (r.2.1 + 1 - r.1)).map fun i => x.band (r.1 + i)).eraseDups

/-- One run joins the components it touches, or starts one; its pixels are added (R266, R272 to R274). -/
def addRun (x : Lbl) (n : Int) (mask dev img : List Int) (st : LblSt) (r : Nat × Nat × Nat) : LblSt :=
  let ids := touched x st.m r
  let kept := oldestOf (ids.filterMap fun i => (tabGet st.m.comps i).map fun c => (i, c))
  let new : Comp := { n0 := n, first := (n, r.1) }
  let id := match kept with | some (a, _) => a | none => st.m.nextId
  let st := match kept with
    | some (a, _) => ids.foldl (fun s b => mergeInto a b s) (cutAt n a st)
    | none => { st with m := { st.m with comps := tabPut st.m.comps st.m.nextId new, nextId := st.m.nextId + 1 } }
  let st := (runBands x r).foldl (fun s k =>
    let s := match tabGet s.m.comps id with | some c => if (tabGet c.bands k).isSome then s else needEntry x k s | none => s
    { s with m := { s.m with comps := tabMod s.m.comps id fun c => { c with bands := tabPut c.bands k ((tabGet s.m.count k).getD 0) } } }) st
  let cols := (List.range (r.2.1 + 1 - r.1)).map (r.1 + ·)
  let add : Comp → Comp := fun c =>
    cols.foldl (fun c i => addPixel n i (isStrong (nthI mask i)) (nthI dev i) (nthI img i) c) { c with first := firstOf c.first (n, r.1) }
  { st with m := { st.m with comps := tabMod st.m.comps id add, pend := st.m.pend ++ cols.map fun i => (i, id) }, cur := st.cur ++ [⟨r.1, r.2.1, r.2.2, id⟩] }

/-- Pixels of this line with an outer neighbour beside or above them are boundary pixels; the others wait for the line
below (R267). -/
def sideBoundary (x : Lbl) (old : Tab (List Run)) (r : Run) (m : Lmu) : Lmu :=
  if (tabGet m.comps r.id).isNone then m else
  let above : Nat → Bool := fun c => match tabGet old (x.band c) with
    | some rs => rs.any fun p => decide (p.a ≤ c ∧ c ≤ p.b) && p.id == r.id
    | none => false
  let hit := ((List.range (r.b + 1 - r.a)).map (r.a + ·)).filter fun c => c == r.a || c == r.b || ! above c
  { m with
    comps := tabMod m.comps r.id fun c => { c with boundary := c.boundary + hit.length }
    pend := m.pend.filter fun p => ! (p.2 == r.id && hit.contains p.1) }

/-- The part of a run within one band. -/
def clipRun (x : Lbl) (k : Nat) (r : Run) : Option Run :=
  match x.only with
  | some _ => some r
  | none =>
    let a := max r.a (k * x.bw)
    let b := min (r.b + 1) ((k + 1) * x.bw)
    if a < b then some { r with a := a, b := b - 1 } else none

/-- A component has been untouched for G analysed lines on every band that holds it (R271). -/
def closable (x : Lbl) (m : Lmu) (c : Comp) : Bool := c.bands.all fun e => decide (e.2 + x.gap ≤ (tabGet m.count e.1).getD 0)

/-- A pixel within the last G analysed lines of some band (R258, R275). -/
def recent (x : Lbl) (m : Lmu) (c : Comp) : Bool := c.bands.any fun e => decide ((tabGet m.count e.1).getD 0 < e.2 + x.gap)

def homeOf (x : Lbl) (c : Comp) : Nat := x.band c.first.2

/-- Components in the order of their records: home, first line, first column (log 35). -/
def insertHome (x : Lbl) (a : Nat × Comp) : List (Nat × Comp) → List (Nat × Comp)
  | [] => [a]
  | b :: r =>
    let k : Nat × Comp → Nat × Int × Nat := fun e => (homeOf x e.2, e.2.nMin, e.2.cMin)
    if (k a).1 < (k b).1 ∨ ((k a).1 = (k b).1 ∧ ((k a).2.1 < (k b).2.1 ∨ ((k a).2.1 = (k b).2.1 ∧ (k a).2.2 < (k b).2.2))) then a :: b :: r
    else b :: insertHome x a r

def inOrder (x : Lbl) (cs : List (Nat × Comp)) : List (Nat × Comp) := cs.foldl (fun acc e => insertHome x e acc) []

/-- Every open component closes: at a restart or the end of the analysis, or with TRUNCATED at the drain limit (R258, R275). -/
def closeAll (x : Lbl) (limit : Bool) (m : Lmu) : LblSt :=
  let st := (inOrder x m.comps).foldl (fun s e => finish e.1 (if limit || recent x m e.2 then .truncated else .closed) s) { m := m }
  { st with m := { st.m with prev := [], pend := [], count := [] } }

/-- Tags of lines that no open component reaches back to are dropped. -/
def pruneTags (m : Lmu) : Lmu :=
  let low := m.comps.foldl (fun a e => match a with | some v => some (min v e.2.nMin) | none => some e.2.nMin) (none : Option Int)
  { m with tags := match low with | some v => m.tags.filter fun t => decide (v ≤ t.1) | none => m.tags.drop (m.tags.length - 1) }

/-- The tile history with each band's last `keep` lines; the table counts those passed. -/
def trimTiles (keep : Nat) : Tab Nat → List (Int × Tab BandRow) → List (Int × Tab BandRow)
  | _, [] => []
  | t, e :: r =>
    let p := e.2.filter fun b => decide ((tabGet t b.1).getD 0 < keep)
    let rest := trimTiles keep (e.2.foldl (fun t b => tabPut t b.1 ((tabGet t b.1).getD 0 + 1)) t) r
    if p.isEmpty then rest else (e.1, p) :: rest

/-- The tile history takes a line and keeps the last `keep` that each band has analysed (R278). -/
def pushTiles (keep : Nat) (n : Int) (parts : Tab BandRow) (m : Lmu) : Lmu := { m with tiles := trimTiles keep [] ((n, parts) :: m.tiles) }

/-- Labels one line: the components whose records it makes final, and then those that close after it (R266 to R274). -/
def labelRow (x : Lbl) (keep : Nat) (row : LmuRow) (o m : Lmu) : LblSt :=
  let l := row.line
  let analysed : Nat → Bool := fun k => (tabGet row.parts k).isSome
  let mask := fullRow x row.parts (fun p => p.mask.map fun (v : Nat) => (v : Int)) 0
  let dev := fullRow x row.parts (fun p => p.dev) 0
  let img := fullRow x row.parts (fun p => p.img) 0
  let maskN := mask.map Int.toNat
  let seen := row.parts.foldl (fun a e => a + 2 ^ e.1) 0
  let m := { m with
    count := row.parts.foldl (fun t e => tabPut t e.1 ((tabGet t e.1).getD 0 + 1)) m.count
    tags := m.tags ++ [(l.n, l.lost, seen, l.sec, l.ns)] }
  let m := pushTiles keep l.n row.parts (settlePend x analysed maskN m)
  let st := (runsOf maskN 0 none).foldl (addRun x l.n mask dev img) { m := m, o := o }
  let m := st.cur.foldl (fun m r => sideBoundary x st.m.prev r m) st.m
  let m := { m with prev := row.parts.foldl (fun t e => tabPut t e.1 (st.cur.filterMap (clipRun x e.1))) m.prev }
  (inOrder x (m.comps.filter fun e => closable x m e.2)).foldl (fun s e => finish e.1 .closed s) { st with m := m }

end Sys2Proof.Machine
end

