-- ==== Sys2Proof/Machine/TombacCode.lean ====
section
/-! DEFINITION. Sys2Proof/Machine/TombacCode.lean: the Tombac bitstream (R455 to R469): the stream the device writes for given
samples, and the samples or the break that a stream gives. -/

namespace Sys2Proof.Machine

/-- The parameters of a stream (R456). -/
structure TbcP where
  planes : Nat
  depth : Nat
  width : Nat
  height : Nat
  keyInt : Nat
  shift : Nat
  near : Nat
  signed : Bool
  effort : Nat
  deriving DecidableEq, Repr

/-- A coding context (R466): A and N. -/
abbrev TbcCtx := Nat × Nat

/-- The contexts at the start of a line: 0 to 16, then the run context (R466). -/
def tbcCtxs (b : Nat) : List TbcCtx := List.replicate 17 (max 2 ((2 ^ b + 32) / 64), 1) ++ [(4, 1)]

/-- The smallest k with N × 2^k ≥ A, at most `top` (R466). -/
def tbcK (c : TbcCtx) : Nat → Nat → Nat
  | 0, k => k
  | f + 1, k => if c.1 ≤ c.2 * 2 ^ k then k else tbcK c f (k + 1)

def tbcKOf (i : Nat) (cs : List TbcCtx) : Nat := tbcK (cs.getD i (4, 1)) (if i = 17 then 6 else 15) 0

/-- A context after a value v (R466). -/
def tbcLearn (v : Nat) (c : TbcCtx) : TbcCtx := if c.2 + 1 = 64 then ((c.1 + v) / 2, 32) else (c.1 + v, c.2 + 1)

/-- The low n bits of v, most significant first. -/
def bitsOf (n v : Nat) : List Bool := (List.range n).map fun i => Nat.testBit v (n - 1 - i)

/-- GR(v, k, L) (R466). -/
def grCode (v k l : Nat) : List Bool :=
  if v / 2 ^ k < 24 then List.replicate (v / 2 ^ k) true ++ false :: bitsOf k v
  else List.replicate 24 true ++ bitsOf l v

/-! ## Prediction (R462 to R464) -/

/-- How a block predicts: a predictor code, or a match (R461). -/
inductive TbcMode where
  | pred (k : Nat)
  | fromLine (dy : Nat) (dx : Int)
  deriving DecidableEq, Repr

/-- The neighbours a, b, c, d of the sample at column x (R462). -/
def tbcNear (b w : Nat) (key : Bool) (up : List Nat) (left : Option Nat) (x : Nat) : Nat × Nat × Nat × Nat :=
  if key then
    let a := left.getD (2 ^ (b - 1))
    (a, a, a, a)
  else
    let u := nth up x
    (left.getD u, u, if x = 0 then u else nth up (x - 1), if x + 1 < w then nth up (x + 1) else u)

/-- The context of a sample (R465). -/
def tbcQ (nb : Nat × Nat × Nat × Nat) : Nat :=
  let (_, b, c, d) := nb
  let a := nb.1
  let g := ((d : Int) - b).natAbs + ((b : Int) - c).natAbs + ((c : Int) - a).natAbs
  min 15 (if g = 0 then 0 else Nat.log2 g + 1)

/-- The prediction of a sample (R463); `refs` are the reconstructed lines since the key line, newest first. -/
def tbcPred (m : TbcMode) (bd w : Nat) (refs : List (List Nat)) (nb : Nat × Nat × Nat × Nat) (x : Nat) : Int :=
  let (a, b, c, _) := nb
  match m with
  | .pred 0 => a
  | .pred 1 => b
  | .pred 2 => if max a b ≤ c then min a b else if c ≤ min a b then max a b else clampI 0 (2 ^ bd - 1 : Nat) ((a : Int) + b - c)
  | .pred _ => ((a + b + 1) / 2 : Nat)
  | .fromLine dy dx => nth (refs.getD (dy - 1) []) (clampI 0 (w - 1 : Nat) (x + dx)).toNat

/-- The coded residual of a value (R464). -/
def tbcResid (b d : Nat) (v : Nat) (p : Int) : Int :=
  let e := (v : Int) - p
  if d = 0 then Int.emod (e + 2 ^ (b - 1)) (2 ^ b) - 2 ^ (b - 1)
  else if e < 0 then -(((e.natAbs + d) / (2 * d + 1) : Nat) : Int) else (((e.natAbs + d) / (2 * d + 1) : Nat) : Int)

/-- The reconstructed value (R464). -/
def tbcRecon (b d : Nat) (p eq : Int) : Nat :=
  if d = 0 then (Int.emod (p + eq) (2 ^ b)).toNat else (clampI 0 (2 ^ b - 1 : Nat) (p + eq * (2 * d + 1 : Nat))).toNat

def tbcMap (eq : Int) : Nat := if 0 ≤ eq then (2 * eq).toNat else (-2 * eq - 1).toNat

def tbcUnmap (m : Nat) : Int := if m % 2 = 0 then (m / 2 : Nat) else -(((m + 1) / 2 : Nat) : Int)

/-! ## Encoding -/

/-- What every block of a line sees. -/
structure TbcLine where
  p : TbcP
  key : Bool
  up : List Nat
  refs : List (List Nat)

/-- The samples of a block in one mode: context, coded residual and reconstruction of each (R464, R465). -/
def tbcScan (l : TbcLine) (m : TbcMode) : List Nat → Nat → Option Nat → List (Nat × Int × Nat)
  | [], _, _ => []
  | v :: vs, x, left =>
    let nb := tbcNear l.p.depth l.p.width l.key l.up left x
    let p := tbcPred m l.p.depth l.p.width l.refs nb x
    let eq := tbcResid l.p.depth l.p.near v p
    let r := tbcRecon l.p.depth l.p.near p eq
    (tbcQ nb, eq, r) :: tbcScan l m vs (x + 1) (some r)

def tbcScore (xs : List (Nat × Int × Nat)) : Nat := xs.foldl (fun a e => a + tbcMap e.2.1) 0

/-- The residuals of a block coded (R465); in a run, `run` counts the samples it still covers. -/
def tbcCode (b : Nat) : List (Nat × Int × Nat) → Option Nat → List TbcCtx → List Bool × List TbcCtx
  | [], _, cs => ([], cs)
  | (q, eq, _) :: r, run, cs =>
    let ends := fun (cs : List TbcCtx) =>
      let m := tbcMap eq
      let rest := tbcCode b r none (listMod cs 16 (tbcLearn m))
      (grCode (m - 1) (tbcKOf 16 cs) b ++ rest.1, rest.2)
    match run with
    | some 0 => ends cs
    | some (k + 1) => tbcCode b r (some k) cs
    | none =>
      if q = 0 then
        let n := (((q, eq, 0) :: r).takeWhile fun e => e.2.1 == 0).length
        let code := grCode n (tbcKOf 17 cs) 7
        let cs := listMod cs 17 (tbcLearn n)
        if n = 0 then let t := ends cs; (code ++ t.1, t.2)
        else let t := tbcCode b r (some (n - 1)) cs; (code ++ t.1, t.2)
      else
        let m := tbcMap eq
        let rest := tbcCode b r none (listMod cs q (tbcLearn m))
        (grCode m (tbcKOf q cs) b ++ rest.1, rest.2)

/-- The columns a match may reach at an effort level, nearest first, the negative before the positive (R452, R468). -/
def tbcDxs (effort : Nat) : List Int :=
  let r := match effort with | 3 => 4 | 4 => 16 | 5 => 32 | 6 => 64 | 7 => 128 | _ => 0
  0 :: ((List.range r).flatMap fun (i : Nat) => [-((i : Int) + 1), (i : Int) + 1]).filter fun d => d < 128

/-- The modes a block of a line tries, in order of preference (R452, R463, R468). -/
def tbcModes (l : TbcLine) : List TbcMode :=
  let top := match l.p.effort with | 0 | 1 => 0 | 2 => 1 | 3 => 2 | 4 => 4 | 5 => 8 | _ => 16
  (if l.p.effort = 0 then [.pred 2] else [.pred 0, .pred 1, .pred 2, .pred 3]) ++
  (if l.key then [] else (List.range (min top l.refs.length)).flatMap fun i => (tbcDxs l.p.effort).map fun dx => .fromLine (i + 1) dx)

/-- The first mode of lowest score, with its samples (R468). -/
def tbcBest (l : TbcLine) (vs : List Nat) (x : Nat) (left : Option Nat) : List TbcMode → Option (TbcMode × List (Nat × Int × Nat) × Nat)
  | [] => none
  | m :: r =>
    let s := tbcScan l m vs x left
    match tbcBest l vs x left r with
    | some (m', s', k) => if tbcScore s ≤ k then some (m, s, tbcScore s) else some (m', s', k)
    | none => some (m, s, tbcScore s)

def tbcHead : TbcMode → List Bool
  | .pred k => [false, false] ++ bitsOf 2 k
  | .fromLine dy dx => [false, true] ++ bitsOf 4 (dy - 1) ++ bitsOf 8 (toUnsigned 8 dx)

/-- One block: its bits, its reconstruction and the contexts after it (R461, R468). -/
def tbcBlock (l : TbcLine) (vs : List Nat) (x : Nat) (left : Option Nat) (cs : List TbcCtx) : List Bool × List Nat × List TbcCtx :=
  let raw := ([true, false] ++ vs.flatMap (bitsOf l.p.depth), vs, cs)
  match tbcBest l vs x left (tbcModes l) with
  | none => raw
  | some (m, s, _) =>
    let c := tbcCode l.p.depth s none cs
    let code := tbcHead m ++ c.1
    if 2 + vs.length * l.p.depth ≤ code.length then raw else (code, s.map fun e => e.2.2, c.2)

/-- The blocks of a line, 64 samples each: at most `fuel` blocks. -/
def tbcBlocks (l : TbcLine) : Nat → List Nat → Nat → Option Nat → List TbcCtx → List Bool × List Nat
  | 0, _, _, _, _ => ([], [])
  | f + 1, vs, x, left, cs =>
    if vs.isEmpty then ([], [])
    else
      let b := tbcBlock l (vs.take 64) x left cs
      let r := tbcBlocks l f (vs.drop 64) (x + 64) (match b.2.1.getLast? with | some v => some v | none => left) b.2.2
      (b.1 ++ r.1, b.2.1 ++ r.2)

def byteOf (bs : List Bool) : Nat := bs.foldl (fun a b => 2 * a + boolNat b) 0

/-- Bits packed most significant first into bytes, to a 32-bit boundary (R459); `n` bounds the bytes. -/
def packBits : Nat → List Bool → List Nat
  | 0, _ => []
  | n + 1, bs => byteOf ((bs ++ List.replicate 8 false).take 8) :: packBits n (bs.drop 8)

def lineBytes (bs : List Bool) : List Nat := packBits (4 * ceilDiv bs.length 32) bs

/-- Whether line y is a key line (R458). -/
def tbcKey (keyInt y : Nat) : Bool := y == 0 || (0 < keyInt && y % keyInt == 0)

/-- A line as coded: its header and data, and its reconstruction (R459). -/
def tbcEncLine (p : TbcP) (y pl : Nat) (refs : List (List Nat)) (vs : List Nat) : List Nat × List Nat :=
  let key := tbcKey p.keyInt y
  let refs := if key then [] else refs
  let r := tbcBlocks ⟨p, key, refs.headD [], refs⟩ (ceilDiv p.width 64) vs 0 none (tbcCtxs p.depth)
  let data := lineBytes r.1
  (leBytes 4 data.length ++ leBytes 2 (y % 65536 : Nat) ++ [pl, boolNat key] ++ data, r.2)

/-- A sample as coded from a delivered sample, and back (R457). -/
def tbcIn (p : TbcP) (v : Nat) : Nat := (if p.signed then v ^^^ 0x8000 else v) / 2 ^ p.shift % 2 ^ p.depth
def tbcOut (p : TbcP) (v : Nat) : Nat := let x := v * 2 ^ p.shift; if p.signed then x ^^^ 0x8000 else x

/-- Coding in progress: the references of each plane, the bytes so far and the delivered samples so far. -/
structure TbcEnc where
  refs : List (List (List Nat))
  bytes : List Nat
  sent : List Nat

/-- Codes the lines of index y of every plane (R455). -/
def tbcEncRow (p : TbcP) (y : Nat) (rows : List (List Nat)) (e : TbcEnc) : TbcEnc :=
  (rows.mapIdx fun i r => (i, r)).foldl (fun (e : TbcEnc) x =>
    let refs := if tbcKey p.keyInt y then [] else e.refs.getD x.1 []
    let c := tbcEncLine p y x.1 refs (x.2.map (tbcIn p))
    { refs := listMod e.refs x.1 fun _ => (c.2 :: refs).take 16, bytes := e.bytes ++ c.1
      sent := e.sent ++ c.2.flatMap fun v => leBytes 2 (tbcOut p v : Nat) }) e

def tbcHeader (p : TbcP) : List Nat :=
  let h := leBytes 4 0x43424D54 ++ leBytes 2 1 ++ [p.planes, p.depth] ++ leBytes 4 p.width ++ leBytes 4 p.height ++ leBytes 4 p.keyInt ++
    [p.shift, p.near, boolNat p.signed, p.effort, 0, 0, 0, 0]
  h ++ leBytes 4 (crc32c h)

def tbcTrailer (e : TbcEnc) : List Nat :=
  leBytes 4 0x444E4554 ++ leBytes 4 (crc32c e.sent) ++ leBytes 4 (32 + e.bytes.length + 16 : Nat) ++ [0, 0, 0, 0]

def tbcStart (p : TbcP) : TbcEnc := ⟨List.replicate p.planes [], [], []⟩

/-- The stream of rows: for each y, the samples of each plane (R455). -/
def tbcEncode (p : TbcP) (rows : List (List (List Nat))) : List Nat :=
  let e := (rows.mapIdx fun y r => (y, r)).foldl (fun e x => tbcEncRow p x.1 x.2 e) (tbcStart p)
  tbcHeader p ++ e.bytes ++ tbcTrailer e

/-- The longest a stream can be (R469). -/
def tbcBound (w h p b : Nat) : Nat := 48 + h * p * (8 + 4 * ceilDiv (2 * ceilDiv w 64 + w * b) 32)

/-! ## Decoding -/

/-- What a stream gives: its parameters and delivered samples row by row, or the line and byte offset at which it breaks
R467, or those of a SAMPLE_CRC mismatch (R484). -/
inductive TbcResult where
  | ok (p : TbcP) (rows : List (List (List Nat)))
  | format (line off : Nat)
  | crc (line off : Nat)
  deriving DecidableEq, Repr

def readBits (n : Nat) (bs : List Bool) : Option (Nat × List Bool) :=
  if bs.length < n then none else some (byteOf (bs.take n), bs.drop n)

/-- Reads GR(v, k, L). -/
def grRead (k l : Nat) (bs : List Bool) : Option (Nat × List Bool) :=
  let u := ((bs.take 24).takeWhile fun b => b).length
  if u = 24 then readBits l (bs.drop 24)
  else if bs.length ≤ u then none
  else (readBits k (bs.drop (u + 1))).map fun r => (u * 2 ^ k + r.1, r.2)

/-- The samples of a PRED or MATCH block (R465): reconstruction, bits left, contexts. -/
def tbcDecSamples (l : TbcLine) (m : TbcMode) : Nat → Nat → Option Nat → Option Nat → List Bool → List TbcCtx → Option (List Nat × List Bool × List TbcCtx)
  | 0, _, _, _, bs, cs => some ([], bs, cs)
  | n + 1, x, left, run, bs, cs =>
    let nb := tbcNear l.p.depth l.p.width l.key l.up left x
    let p := tbcPred m l.p.depth l.p.width l.refs nb x
    let q := tbcQ nb
    let step : Option (Int × Option Nat × List Bool × List TbcCtx) :=
      let ends := fun (bs : List Bool) (cs : List TbcCtx) =>
        (grRead (tbcKOf 16 cs) l.p.depth bs).map fun r => (tbcUnmap (r.1 + 1), (none : Option Nat), r.2, listMod cs 16 (tbcLearn (r.1 + 1)))
      match run with
      | some 0 => ends bs cs
      | some (k + 1) => some (0, some k, bs, cs)
      | none =>
        if q = 0 then
          match grRead (tbcKOf 17 cs) 7 bs with
          | none => none
          | some (r, bs) =>
            let cs := listMod cs 17 (tbcLearn r)
            if n + 1 < r then none else if r = 0 then ends bs cs else some (0, some (r - 1), bs, cs)
        else (grRead (tbcKOf q cs) l.p.depth bs).map fun r => (tbcUnmap r.1, none, r.2, listMod cs q (tbcLearn r.1))
    match step with
    | none => none
    | some (eq, run, bs, cs) =>
      let r := tbcRecon l.p.depth l.p.near p eq
      (tbcDecSamples l m n (x + 1) (some r) run bs cs).map fun t => (r :: t.1, t.2)

/-- The samples of a RAW block. -/
def tbcDecRaw (b : Nat) : Nat → List Bool → Option (List Nat × List Bool)
  | 0, bs => some ([], bs)
  | n + 1, bs => match readBits b bs with
    | none => none
    | some (v, bs) => (tbcDecRaw b n bs).map fun t => (v :: t.1, t.2)

/-- The blocks of a line (R461, R463, R467): `left` samples remain. -/
def tbcDecBlocks (l : TbcLine) : Nat → Nat → Nat → Option Nat → List Bool → List TbcCtx → Option (List Nat × List Bool)
  | 0, _, _, _, bs, _ => some ([], bs)
  | f + 1, x, rest, left, bs, cs =>
    let n := min 64 rest
    let block : Option (List Nat × List Bool × List TbcCtx) :=
      match bs with
      | false :: false :: b1 :: b0 :: bs => tbcDecSamples l (.pred (2 * boolNat b1 + boolNat b0)) n x left none bs cs
      | false :: true :: bs =>
        match readBits 4 bs with
        | none => none
        | some (dy, bs) => match readBits 8 bs with
          | none => none
          | some (dx, bs) => if l.key ∨ l.refs.length ≤ dy then none else tbcDecSamples l (.fromLine (dy + 1) (toSigned 8 dx)) n x left none bs cs
      | true :: false :: bs => (tbcDecRaw l.p.depth n bs).map fun t => (t.1, t.2, cs)
      | _ => none
    match block with
    | none => none
    | some (vs, bs, cs) =>
      if rest ≤ n then some (vs, bs)
      else (tbcDecBlocks l f (x + n) (rest - n) vs.getLast? bs cs).map fun t => (vs ++ t.1, t.2)

def tbcParams (bs : List Nat) : TbcP :=
  ⟨nth bs 6, nth bs 7, leAt bs 8 4, leAt bs 12 4, leAt bs 16 4, nth bs 20, nth bs 21, nth bs 22 = 1, nth bs 23⟩

/-- The stream header is within R456. -/
def tbcHeaderOk (bs : List Nat) : Bool :=
  let p := tbcParams bs
  32 ≤ bs.length && leAt bs 0 4 == 0x43424D54 && leAt bs 4 2 == 1 && 1 ≤ p.planes && p.planes ≤ 4 && 1 ≤ p.depth && p.depth ≤ 16 &&
  1 ≤ p.width && p.width ≤ 262144 && 1 ≤ p.height && p.height ≤ 1048576 && p.keyInt ≤ 65535 && p.shift ≤ 15 && p.depth + p.shift ≤ 16 &&
  p.near ≤ 15 && nth bs 22 ≤ 1 && (! p.signed || (p.depth == 16 && p.shift == 0)) && p.effort ≤ 7 && leAt bs 24 4 == 0 &&
  leAt bs 28 4 == crc32c (bs.take 28)

/-- One coded line at the head of the bytes: its reconstruction and the bytes after it. -/
def tbcDecLine (p : TbcP) (y pl : Nat) (refs : List (List Nat)) (bs : List Nat) : Option (List Nat × List Nat) :=
  let key := tbcKey p.keyInt y
  let refs := if key then [] else refs
  let len := leAt bs 0 4
  if bs.length < 8 + len ∨ len % 4 ≠ 0 ∨ leAt bs 4 2 ≠ y % 65536 ∨ nth bs 6 ≠ pl ∨ nth bs 7 ≠ boolNat key then none
  else
    let bits := ((bs.drop 8).take len).flatMap (bitsOf 8)
    match tbcDecBlocks ⟨p, key, refs.headD [], refs⟩ (ceilDiv p.width 64) 0 p.width none bits (tbcCtxs p.depth) with
    | none => none
    | some (vs, rest) => if 32 ≤ rest.length ∨ rest.any (fun b => b) then none else some (vs, bs.drop (8 + len))

/-- The lines of index y of each plane: references, delivered samples of the row, bytes left; or the offset of the break. -/
def tbcDecRow (p : TbcP) (total y : Nat) : Nat → List (List (List Nat)) → List Nat → Sum (List (List (List Nat)) × List (List Nat) × List Nat) Nat
  | 0, refs, bs => .inl (refs, [], bs)
  | k + 1, refs, bs =>
    let pl := p.planes - (k + 1)
    let mine := refs.getD pl []
    match tbcDecLine p y pl mine bs with
    | none => .inr (total - bs.length)
    | some (vs, bs) =>
      let keep := (vs :: (if tbcKey p.keyInt y then [] else mine)).take 16
      match tbcDecRow p total y k (listMod refs pl fun _ => keep) bs with
      | .inr o => .inr o
      | .inl (refs, row, bs) => .inl (refs, vs.map (tbcOut p) :: row, bs)

def tbcDecRows (p : TbcP) (total : Nat) : Nat → List (List (List Nat)) → List (List (List Nat)) → List Nat → TbcResult
  | 0, _, acc, bs =>
    let rows := acc.reverse
    let off := total - bs.length
    if bs.length ≠ 16 ∨ leAt bs 0 4 ≠ 0x444E4554 ∨ leAt bs 8 4 ≠ total ∨ leAt bs 12 4 ≠ 0 then .format p.height off
    else if leAt bs 4 4 ≠ crc32c (rows.flatMap fun r => r.flatMap fun l => l.flatMap fun (v : Nat) => leBytes 2 v) then .crc p.height (off + 4)
    else .ok p rows
  | n + 1, refs, acc, bs =>
    let y := p.height - (n + 1)
    match tbcDecRow p total y p.planes refs bs with
    | .inr o => .format y o
    | .inl (refs, row, bs) => tbcDecRows p total n refs (row :: acc) bs

/-- What a stream gives (R467). -/
def tbcDecode (bs : List Nat) : TbcResult :=
  if ! tbcHeaderOk bs then .format 0 0
  else
    let p := tbcParams bs
    tbcDecRows p bs.length p.height (List.replicate p.planes []) [] (bs.drop 32)

/-! ## The engine's load (R452) -/

def setTbc (f : Tbc → Tbc) (s : State) : State := { s with tbc := f s.tbc }

/-- Throughput of R452 in 50 Msample/s. -/
def tbcRate (effort near : Nat) : Nat := let u := nth [400, 320, 260, 220, 180, 150, 120, 100] effort; if near = 0 then u else u / 2

/-- Engine time of w coded samples, in 1/(50 × 10^6 × 2,059,200) s (R452). -/
def tbcWork (w effort near : Nat) : Nat := w * (2059200 / max 1 (tbcRate effort near))

/-- The same of one decoded sample, at 16 Gpixel/s (R452). -/
def tbcUnpack : Nat := 2059200 / 320

def tbcMeter (n : Nat) (s : State) : State := setTbc (fun t => { t with load := meterAdd (s.now / secPs) (50000000 * 2059200) n t.load }) s

end Sys2Proof.Machine
end

