-- ==== Sys2Proof/Machine/Emit.lean ====
section
/-! DEFINITION. Sys2Proof/Machine/Emit.lean: from a component to its record (R267 to R270, R276 to R282): features, grading, tile,
classification, mark decision, and the record for the result writer. -/

namespace Sys2Proof.Machine

/-! ## Coordinates (R269, R380) -/

/-- Where a graph's pixels lie: pitches, width, and the MD and CD of the grid's origin. -/
structure Frame where
  /-- CD pitch in 1/den nm: PCD is u16.16 (R380). -/
  pcd : Nat
  den : Nat
  pmd : Nat
  width : Nat
  cd0 : Int
  md0 : Int

/-- The web's frame, or that of a verification stream: columns by MRK_VERIFY_GEOMETRY, lines those of its generator (log 36). -/
def frameOf (s : State) (verify : Bool) (ns : Tab PGraphNode) : Frame :=
  if ! verify then
    match s.cfg.geom with | some g => ⟨g.cdPitch, 1, g.mdPitch, g.width, 0, 0⟩ | none => ⟨1, 1, 1, 1, 0, 0⟩
  else
    let st := match ns.find? fun e => e.2.kernel == kPlane with | some e => nparN e.2 0 | none => 0
    let v := tabGet s.cfg.verifyGeo st
    let l := match tabGet s.cfg.streams st with | some c => tabGet s.cfg.ltg c.trig | none => none
    ⟨(match v with | some x => x.pcd | none => 1), 65536, (match l with | some x => x.pitch | none => 1), max 1 (verifyWidth s ns),
      (match v with | some x => x.cd0 | none => 0), (match l with | some x => x.phase | none => 0) - (match v with | some x => x.omd | none => 0)⟩

/-- The centroid's CD and MD, nm (R269). -/
def centroidCd (f : Frame) (c : Comp) : Int := f.cd0 + Int.fdiv ((2 * c.sumC + c.area) * f.pcd + c.area * f.den : Nat) (2 * c.area * f.den)
def centroidMd (f : Frame) (c : Comp) : Int := f.md0 + Int.fdiv (2 * c.sumN * f.pmd + c.area) (2 * c.area)

/-- n_c, the line of the centroid (R270), and its column. -/
def centreLine (c : Comp) : Int := roundDivUp c.sumN c.area
def centreCol (c : Comp) : Int := roundDivUp c.sumC c.area

/-! ## Features (R267, R268) -/

/-- LOST: lines of the component's span that were lost or skipped in a band that holds its pixels (R267). -/
def lostLines (m : Lmu) (c : Comp) : Nat :=
  (m.tags.filter fun t => decide (c.nMin ≤ t.1 ∧ t.1 ≤ c.nMax) && c.bands.any fun b => bit t.2.1 b.1 || ! bit t.2.2.1 b.1).length

/-- The features by code; `hasD` and `hasV` say whether the optional inputs are there. -/
def feature (f : Frame) (m : Lmu) (hasD hasV : Bool) (c : Comp) (code : Nat) : Int :=
  let w : Int := (c.cMax : Int) - c.cMin + 1
  let len := c.nMax - c.nMin + 1
  let d : Int → Int := fun x => if hasD then x else 0
  let v : Int → Int := fun x => if hasV then x else 0
  match code with
  | 0 => c.area
  | 1 => w
  | 2 => len
  | 3 => Int.fdiv (w * f.pcd) f.den
  | 4 => len * f.pmd
  | 5 => Int.fdiv ((c.area : Int) * f.pcd * f.pmd) (1000000 * f.den)
  | 6 => c.strong
  | 7 => d c.devSum
  | 8 => d c.devMax
  | 9 => d (c.devSum / c.area : Nat)
  | 10 => v c.vMin
  | 11 => v c.vMax
  | 12 => Int.fdiv (1000 * c.area) (w * len)
  | 13 => (roundAngle f.pcd f.den f.pmd c.area c.sumC c.sumN c.sumCC c.sumNN c.sumCN).1
  | 14 => (roundAngle f.pcd f.den f.pmd c.area c.sumC c.sumN c.sumCC c.sumNN c.sumCN).2
  | 15 => c.boundary
  | 16 => Int.fdiv (min (c.cMin : Int) ((f.width : Int) - 1 - c.cMax) * f.pcd) f.den
  | 17 => lostLines m c
  | 18 => d (if c.bright = c.area then 0 else if c.dark = c.area then 1 else 2)
  | 19 => centroidCd f c
  | _ => 0

/-! ## Grading (R276, R277) -/

def compareOp (op : Nat) (a b : Int) : Bool :=
  match op with
  | 1 => decide (a < b)
  | 2 => decide (a ≤ b)
  | 3 => decide (b < a)
  | 4 => decide (b ≤ a)
  | 5 => decide (a = b)
  | 6 => decide (a ≠ b)
  | _ => true

/-- Whether an enabled rule's four conditions hold. -/
def ruleHolds (feat : Nat → Int) (r : List Nat) : Bool :=
  nth r 50 == 1 && (List.range 4).all fun k => compareOp (nth r (12 * k + 1)) (feat (nth r (12 * k))) (leAtI r (12 * k + 4) 8)

/-- The class and action of the first rule that holds: action 0 CLASS, 1 CLASSIFY, 2 DISCARD (R277). -/
def gradeBy (g : GraphSet) (slot : Nat) (feat : Nat → Int) : Nat × Nat :=
  match (List.range 64).findSome? fun k => match tabGet g.rules (slot * 64 + k) with
    | some r => if ruleHolds feat r then some (nth r 48, nth r 49) else none
    | none => none with
  | some x => x
  | none => (0, 0)

/-! ## Camera set mask (R270) -/

/-- The ports that contribute to web column c with a weight other than 0 (R193, R194, R196). -/
def portsAt (s : State) (c : Nat) : Nat :=
  let cs := (webStreams s).filter fun e => decide (e.2.1.cFirst ≤ c ∧ c ≤ e.2.1.cLast) && (mapPos e.2.1 e.2.2 c).isSome
  let weighs : Nat → Nat → Bool := fun a b => match seamAt s a b c with
    | none => true
    | some sm =>
      let wb := if sm.n = 0 then (if c < sm.s0 then 0 else 256) else ((2 * (c - sm.s0) + 1) * 256 + sm.n) / (2 * sm.n)
      if sm.left = a then decide (wb < 256) else decide (0 < wb)
  cs.foldl (fun m e => if cs.all fun o => o.1 == e.1 || weighs e.1 o.1 then m ||| 2 ^ (e.1 / 8) else m) 0

def camMask (s : State) (verify : Bool) (c : Comp) : Nat :=
  if verify then (match s.cfg.verify with | some v => 2 ^ v.port | none => 0)
  else (List.range (c.cMax + 1 - c.cMin)).foldl (fun m i => m ||| portsAt s (c.cMin + i)) 0

/-! ## Tiles (R278, R337, R338) -/

/-- The nearest first line to n0 from which `th` lines in a row are all held; n0 where there is none. -/
def placeWindow (held : List Int) (n0 : Int) (th : Nat) : Int × Bool :=
  let ok : Int → Bool := fun n => (List.range th).all fun (i : Nat) => held.contains (n + i)
  if ok n0 then (n0, false) else
  match (held.filter ok).foldl (fun (m : Option Int) n => match m with
    | some b => if (n - n0).natAbs < (b - n0).natAbs ∨ ((n - n0).natAbs = (b - n0).natAbs ∧ n < b) then some n else some b
    | none => some n) none with
  | some n => (n, true)
  | none => (n0, false)

/-- A tile input's pixel, signed for a DEV16 input: the nearest web column of a held line; a line not held gives a free value (log 3). -/
def tilePixel (x : Lbl) (m : Lmu) (signed : Bool) (k input : Nat) (n c : Int) : Int :=
  let free := if signed then toSigned 16 (Config.freeNat k) else (Config.freeNat k : Int) % 65536
  let col := (clampI 0 ((x.width : Int) - 1) c).toNat
  match m.tiles.find? fun e => e.1 == n && (tabGet e.2 (x.band col)).isSome with
  | none => free
  | some e => match tabGet e.2 (x.band col) with
    | some p => nthI (p.tile.getD input []) (match x.only with | some _ => col | none => col % x.bw)
    | none => free

/-- The tile of a component by its TILE_CUT node (R278). -/
def cutTile (x : Lbl) (m : Lmu) (free : Nat) (ns : Tab PGraphNode) (t : PGraphNode) (c : Comp) : Cut :=
  let bbox := npar t 0 = 1
  let w0 := if bbox then c.cMax + 1 - c.cMin + 2 * nparN t 1 else nparN t 1
  let h0 := if bbox then (c.nMax - c.nMin + 1).toNat + 2 * nparN t 2 else nparN t 2
  let big := 1024 < w0 ∨ 1024 < h0
  let tw := if bbox ∧ big then 1024 else w0
  let th := if bbox ∧ big then 1024 else h0
  let centred := ¬ bbox ∨ big
  let c0 : Int := if centred then centreCol c - (tw / 2 : Nat) else (c.cMin : Int) - npar t 1
  let n0 : Int := if centred then centreLine c - (th / 2 : Nat) else c.nMin - npar t 2
  let col : Int → Nat := fun c => (clampI 0 ((x.width : Int) - 1) c).toNat
  let bands := (List.range 16).filter fun k => match x.only with | some v => k == v | none => decide (col c0 / x.bw ≤ k ∧ k ≤ col (c0 + tw - 1) / x.bw)
  let p := placeWindow ((m.tiles.filter fun e => bands.all fun k => (tabGet e.2 k).isSome).map fun e => e.1) n0 th
  let ins := imageIns ns t
  let types := (ins.mapIdx fun k i => match tabGet ns i with | some y => if outType y.kernel = 2 then 2 ^ k else 0 | none => 0).foldl (· + ·) 0
  ⟨p.1, c0, tw, th, types, p.2, (List.range ins.length).map fun k =>
    (List.range th).flatMap fun (r : Nat) => (List.range tw).map fun (i : Nat) => tilePixel x m (bit types k) (free + (k * th + r) * tw + i) k (p.1 + r) (c0 + i)⟩

/-- The payload of a tile (R338): raw, or one Tombac stream for each input. -/
def tilePayload (storage effort : Nat) (t : Cut) : List Nat :=
  padTo 4 ((t.inputs.mapIdx fun k px =>
    let signed := bit t.types k
    if storage = 0 then px.flatMap fun (v : Int) => leBytes 2 v
    else
      let p : TbcP := { planes := 1, depth := 16, width := t.tw, height := t.th, keyInt := 0, shift := 0, near := 0, signed := signed, effort := effort }
      let bs := tbcEncode p ((List.range t.th).map fun r => [((px.drop (r * t.tw)).take t.tw).map fun (v : Int) => toUnsigned 16 v])
      padTo 4 (leBytes 4 bs.length ++ bs)).flatten)

/-- Puts a tile into the pool: its handle (R334, R337). -/
def putTile (storage queue home : Nat) (t : Cut) (s : State) : Nat × State :=
  let pay := tilePayload storage s.cfg.tileEffort t
  let header : Nat → List Nat := fun h =>
    leBytes 8 h ++ leBytes 8 0 ++ leBytes 8 t.n0 ++ leBytes 4 t.c0 ++ leBytes 2 t.tw ++ leBytes 2 t.th ++
    [t.inputs.length, t.types, storage, boolNat t.moved, queue, home, 0, 0] ++ leBytes 4 pay.length ++ List.replicate 16 0
  tileAlloc header pay s

/-- Stores a tile: a raw one at once, one of Tombac storage once the engine has compressed it (R453, R474). Its handle, or the number of the engine's work. -/
def storeTile (storage queue home : Nat) (t : Cut) (s : State) : Nat × Option Nat × State :=
  if storage = 0 then let r := putTile 0 queue home t s; (r.1, none, r.2)
  else
    let no := s.tbc.tileNo
    (0, some no, setTbc (fun b => { b with tiles := b.tiles ++ [{ no := no, cut := t, storage := storage, queue := queue, home := home }], tileNo := no + 1 }) s)

/-! ## Records (R318, R319) -/

def flagClosed : Nat := 1
def flagMerged : Nat := 2
def flagTruncated : Nat := 4
def flagChain : Nat := 8
def flagMoved : Nat := 64
def flagShed : Nat := 128

/-- Bytes 16 to 119 of a DEFECT record (R318). -/
def recordBody (f : Found) (mark queue : Nat) (extra : Int) : List Nat :=
  let c := f.comp
  leBytes 8 f.md ++ leBytes 8 f.cd ++ leBytes 8 (Int.fdiv f.nc 4096) ++ leBytes 8 c.nMin ++ leBytes 8 c.area ++ leBytes 8 f.tile ++
  leBytes 8 f.sec ++ leBytes 4 f.ns ++ leBytes 4 (c.nMax - c.nMin + 1) ++ leBytes 4 c.cMin ++ leBytes 4 c.cMax ++ leBytes 2 f.cams ++
  leBytes 2 f.model ++ leBytes 2 f.conf ++ [f.cls, mark] ++ leBytes 2 f.flags ++ [0, queue, f.home, f.slot + (if f.verify then 4 else 0), 0, 0] ++
  leBytes 8 extra ++ List.replicate 8 0

/-- The contents in force when a component closed. -/
def contentsOf (s : State) (ver : Nat) : GraphSet := (tabGet s.elx.vers ver).getD s.cfg.graph

/-- Whether an earlier segment of a component's chain is still to be decided. -/
def chainWaits (s : State) (id seg : Nat) (verify : Bool) : Bool :=
  (s.elx.waiting ++ s.elx.tiling).any fun f => f.chained && f.id == id && f.verify == verify && decide (f.comp.segs < seg)

/-- The chains' numbers: those of the verification graph are apart. -/
def chainKey (verify : Bool) (id : Nat) : Nat := 2 * id + boolNat verify

/-- Hands on the held records of a chain whose earlier segments have all been decided, in order (R274). -/
def releaseHeld (s : State) : State :=
  let free : PRec → Bool := fun p => ! chainWaits s (p.chain / 2) p.seg (p.chain % 2 == 1)
  let go := s.elx.held.filter free
  go.foldl (fun s p => submitRec p s) (setElx (fun x => { x with held := x.held.filter fun p => ! free p }) s)

/-- The mark decision of a component (R281). -/
def markOf (g : GraphSet) (ns : Tab PGraphNode) (slot cls conf : Nat) : Nat :=
  if (findKernel ns kMark).isNone then 0
  else match tabGet g.marks (slot * 256 + cls) with
    | some (style, least) => if least ≤ conf then style else 0
    | none => 0

/-- A decided component leaves its record and its mark decision, unless EMIT drops its class (R281, R282); both wait for its tile (R474, log 134). -/
def emitFound (f : Found) (s : State) : State :=
  if f.packed.isSome then setElx (fun x => { x with tiling := x.tiling ++ [f] }) s else
  let g := contentsOf s f.ver
  let ns := gnodes g f.slot
  match findKernel ns kEmit with
  | none => s
  | some e =>
    if f.cls = 0 ∧ npar e.2 1 = 0 then releaseHeld s
    else
      let q := nparN e.2 0
      let mark := markOf g ns f.slot f.cls f.conf
      let code := (queueCfg s q).extra
      let body := recordBody f mark q (nthI f.extras code)
      let id := s.res.recNo
      let s := setRes (fun r => { r with recNo := id + 1 }) s
      let p : PRec := ⟨id, q, false, f.home, body, f.tile, chainKey f.verify f.id, f.comp.segs, f.chained⟩
      let dec : MarkDec := ⟨id, mark, q, f.home, body, f.md, f.cd, f.comp.cMin, f.comp.cMax, f.comp.nMin, f.comp.nMax⟩
      let s := if mark = 0 then s else { s with mrk := { s.mrk with inbox := s.mrk.inbox ++ [dec] } }
      let s := if chainWaits s f.id f.comp.segs f.verify then setElx (fun x => { x with held := x.held ++ [p] }) s else submitRec p s
      releaseHeld s

/-- Tile `no` has its handle: the component that it is of goes on. -/
def tileStored (no h : Nat) (s : State) : State :=
  let mine : Found → Bool := fun f => f.packed == some no
  let has : Found → Found := fun f => { f with tile := h, packed := none }
  let go := s.elx.tiling.filter mine
  let s := setElx (fun x => { x with tiling := x.tiling.filter (fun f => ! mine f), waiting := x.waiting.map fun f => if mine f then has f else f }) s
  go.foldl (fun s f => emitFound (has f) s) s

/-! ## A component whose record is final (R271 to R282) -/

/-- Grades, tiles, and decides a component or hands it to CLASSIFY. -/
def componentFinal (x : Lbl) (verify : Bool) (slot ver : Nat) (n : Int) (s : State) (o : Nat × Comp × End) : State :=
  let g := contentsOf s ver
  let ns := gnodes g slot
  let m := if verify then s.elx.vlmu else s.elx.web
  let c := o.2.1
  let home := homeOf x c
  let s := match o.2.2 with
    | .evicted k => elxNotify 1 k n (publish (0x0520 + k) (bump (elxReg k 0x18) 1 (rset (elxBase + 4) 1 s)))
    | _ => s
  let lab := match findKernel ns kLabel with | some l => l.2 | none => ⟨0, 0, 0, [], []⟩
  if ((c.cumArea + c.area : Nat) : Int) < npar lab 2 ∨ ((c.cumStrong + c.strong : Nat) : Int) < npar lab 3 then s else
  let f := frameOf s verify ns
  let feat := feature f m (nth lab.inputs 1 != 255) (nth lab.inputs 2 != 255) c
  let gr := if (findKernel ns kGrade).isSome then gradeBy g slot feat else (0, 0)
  if gr.2 = 2 then s else
  let chained := o.2.2 == .segment || decide (0 < c.segs)
  let trunc := match o.2.2 with | .truncated | .evicted _ => true | _ => false
  let flags := (if o.2.2 = .segment then 0 else flagClosed) + (if 2 ≤ c.bands.length then flagMerged else 0) + (if trunc then flagTruncated else 0) + (if chained then flagChain else 0)
  let nc := centreLine c
  let t := takeNat s
  let tag := match m.tags.find? fun e => e.1 == nc with
    | some e => (e.2.2.2.1, e.2.2.2.2, s)
    | none => (t.1 % 2 ^ 48, t.1 % 1000000000, t.2)
  let s := tag.2.2
  let queue := match findKernel ns kEmit with | some e => nparN e.2 0 | none => 0
  let tl : Option Cut × Nat × Option Nat × State := match findKernel ns kTile with
    | none => (none, 0, none, s)
    | some tn =>
      if s.elx.noTile then (none, 0, none, s) else
      let cut := cutTile x m s.free ns tn.2 c
      let s := { s with free := s.free + 4 * 1024 * 1024 }
      let s := if cut.moved then elxNotify 3 home n (rset (elxBase + 4) 3 s) else s
      let r := storeTile (nparN tn.2 3) queue home cut s
      (some cut, r)
  let s := tl.2.2.2
  let flags := flags + (match tl.1 with | some k => if k.moved then flagMoved else 0 | none => 0)
  let fd : Found := ⟨home, c, o.1, flags, chained, ver, slot, verify, gr.1, 65535, 0, tl.2.1, tl.1, (List.range 20).map feat, centroidMd f c, centroidCd f c,
    tag.1, tag.2.1, camMask s verify c, nc, tl.2.2.1⟩
  match gr.2, findKernel ns kClassify with
  | 1, some k =>
    if ((s.elx.waiting.filter fun w => w.home == home).length : Int) < npar k.2 2 then
      setElx (fun e => { e with waiting := e.waiting ++ [{ fd with model := nparN k.2 0 }] }) s
    else
      let s := elxNotify 2 home n (bump (elxReg home 0x1C) 1 (rset (elxBase + 4) 2 s))
      emitFound { fd with flags := flags + flagShed } s
  | _, _ => emitFound fd s

def removeFirst (p : Found → Bool) : List Found → List Found
  | [] => []
  | f :: r => if p f then r else f :: removeFirst p r

/-- CLASSIFY of a cluster finishes its oldest waiting tile (R279); poisoned model parameters shed it (R280, R646). -/
def classifyDone (k : Nat) (poison : Bool) (s : State) : State :=
  match s.elx.waiting.find? fun f => f.home == k with
  | none => s
  | some f =>
    let s := setElx (fun e => { e with waiting := removeFirst (fun g => g.home == k) e.waiting }) s
    if poison then
      let s := elxNotify 2 k f.nc (bump (elxReg k 0x1C) 1 (rset (elxBase + 4) 2 s))
      emitFound { f with model := 0, flags := f.flags + flagShed } s
    else match tabGet s.models.loaded f.model, f.cut with
    | some m, some t =>
      let r := classifyTile m.bytes t.tw t.th t.inputs
      let least := match findKernel (gnodes (contentsOf s f.ver) f.slot) kClassify with | some n => npar n.2 1 | none => 0
      let cls := if least ≤ (r.2.2.1 : Int) then r.2.1 else f.cls
      emitFound { f with cls := cls, conf := r.2.2.1 } (setModels (fun x => { x with loaded := tabPut x.loaded f.model { m with tiles := m.tiles + 1 } }) s)
    | _, _ => emitFound { f with model := 0 } s

end Sys2Proof.Machine
end

