-- ==== Sys2Proof/Machine/HevcBits.lean ====
section
/-! DEFINITION. Sys2Proof/Machine/HevcBits.lean: the NAL units that an encoding context writes (R423, R426, R432 to R435, R441), in the syntax
of ITU-T H.265, which the manual does not restate (log 47). An optional element that the manual does not name is not written; an element
that H.265 asks for and the manual does not fix is a free value (log 40). -/

namespace Sys2Proof.Machine

/-! ## Bits -/

/-- The n low bits of a number, the highest first. -/
def msbBits (n v : Nat) : List Bool := (List.range n).map fun i => v.testBit (n - 1 - i)

/-- An ue(v) element. -/
def ueBits (v : Nat) : List Bool := List.replicate (v + 1).log2 false ++ msbBits ((v + 1).log2 + 1) (v + 1)

/-- Bits as bytes, the highest first; the last byte is filled up with zeros. -/
def bitBytes : Nat → List Bool → List Nat
  | 0, _ => []
  | _, [] => []
  | n + 1, bs => ((bs ++ List.replicate 8 false).take 8).foldl (fun a b => 2 * a + boolNat b) 0 :: bitBytes n (bs.drop 8)

/-- Emulation prevention: after two zero bytes, a byte of 3 or less follows a 3. -/
def escapeNal : Nat → List Nat → List Nat
  | _, [] => []
  | z, b :: r => if z = 2 ∧ b ≤ 3 then 3 :: b :: escapeNal (if b = 0 then 1 else 0) r else b :: escapeNal (if b = 0 then z + 1 else 0) r

/-- A NAL unit with its four-byte start code: its type, layer 0, temporal sublayer 0, and the bytes of its payload (R441). -/
def nalUnit (type : Nat) (rbsp : List Nat) : List Nat := [0, 0, 0, 1, 2 * type, 1] ++ escapeNal 0 rbsp

/-- A NAL unit of parameters: the stop bit follows its bits. -/
def paramNal (type : Nat) (bs : List Bool) : List Nat := nalUnit type (bitBytes (bs.length + 1) (bs ++ [true]))

/-! ## Parameter sets (R423, R426, R432 to R434) -/

/-- A free value of the stream, below m. -/
def streamOpen (i m : Nat) : Nat := (Config.streamField i).toNat % m

/-- What the manual fixes of a context's parameter sets: the profile code, general_level_idc, size, full range with the colour description, SAO, the
structure and the mini-GOP. -/
structure StreamP where
  profile : Nat
  level : Nat
  w : Nat
  h : Nat
  range : Nat
  colour : List Nat
  sao : Nat
  struct : Nat
  mini : Nat

/-- Pictures that output reorders (R433). -/
def reorder (p : StreamP) : Nat := if p.struct = 3 then p.mini - 1 else 0

/-- profile_tier_level: Main, Main 10 or, for Main 4:2:2 10, the format range extensions with its constraint flags; High tier (R423, R426). -/
def profileBits (p : StreamP) : List Bool :=
  let idc := match p.profile with | 0 => 1 | 1 => 2 | _ => 4
  let compat := msbBits 32 (match p.profile with | 0 => 3 * 2 ^ 29 | 1 => 2 ^ 29 | _ => 2 ^ 27)
  let limits := if idc = 4 then msbBits 44 (0b110100001 * 2 ^ 35) else msbBits 44 0
  msbBits 2 0 ++ [true] ++ msbBits 5 idc ++ compat ++ msbBits 4 (streamOpen 3 16) ++ limits ++ msbBits 8 p.level

/-- sps_max_dec_pic_buffering_minus1, sps_max_num_reorder_pics and sps_max_latency_increase_plus1, for the one sublayer (R433). -/
def orderBits (p : StreamP) : List Bool := [true] ++ ueBits (reorder p + streamOpen 5 (16 - reorder p)) ++ ueBits (reorder p) ++ ueBits (streamOpen 6 16)

/-- The VPS: one layer, one sublayer, no timing and so no HRD parameters (R432). -/
def vpsBits (p : StreamP) : List Bool :=
  msbBits 4 (streamOpen 0 16) ++ [true, true] ++ msbBits 6 0 ++ msbBits 3 0 ++ [true] ++ msbBits 16 0xFFFF ++ profileBits p ++ orderBits p ++
    msbBits 6 0 ++ ueBits 0 ++ [false, false]

/-- The VUI: full range and the colour description, and nothing else (R432, R434). -/
def vuiBits (p : StreamP) : List Bool :=
  [false, false] ++ [true] ++ msbBits 3 (streamOpen 7 6) ++ msbBits 1 p.range ++ [true] ++ p.colour.flatMap (msbBits 8) ++ [false] ++ msbBits 1 (streamOpen 8 2) ++
    [false, false, false, false, false]

/-- The SPS: chroma format, padded size with the padding as a conformance window, depth, CU 8 to 64, TU 4 to 32, residual quadtree depth 1 inter and 2
intra, and the tools of R432. -/
def spsBits (p : StreamP) : List Bool :=
  let depth := if p.profile = 0 then 0 else 2
  let w8 := padded8 p.w
  let h8 := padded8 p.h
  let window := if w8 = p.w ∧ h8 = p.h then [false] else
    [true] ++ ueBits 0 ++ ueBits ((w8 - p.w) / 2) ++ ueBits 0 ++ ueBits ((h8 - p.h) / if p.profile = 2 then 1 else 2)
  msbBits 4 (streamOpen 0 16) ++ msbBits 3 0 ++ [true] ++ profileBits p ++ ueBits (streamOpen 1 16) ++ ueBits (if p.profile = 2 then 2 else 1) ++
    ueBits w8 ++ ueBits h8 ++ window ++ ueBits depth ++ ueBits depth ++ ueBits (streamOpen 4 13) ++ orderBits p ++
    ueBits 0 ++ ueBits 3 ++ ueBits 0 ++ ueBits 3 ++ ueBits 1 ++ ueBits 2 ++ [false, false] ++ msbBits 1 p.sao ++ [false] ++ Config.refSets p.struct p.mini ++
    [false, true, true, true] ++ vuiBits p ++ [false]

/-- The PPS: sign data hiding, no dependent slices, constrained intra prediction, transform skip, weighted prediction, transquant bypass, tiles,
wavefronts or scaling lists; deblocking with offsets 0 (R432). -/
def ppsBits : List Bool :=
  let qp := streamOpen 13 2
  ueBits (streamOpen 2 64) ++ ueBits (streamOpen 1 16) ++ [false, false] ++ msbBits 3 0 ++ [true] ++ msbBits 1 (streamOpen 9 2) ++ ueBits (streamOpen 10 15) ++
    ueBits (streamOpen 11 15) ++ ueBits (streamOpen 12 53) ++ [false, false] ++ msbBits 1 qp ++ (if qp = 1 then ueBits (streamOpen 14 4) else []) ++
    ueBits (streamOpen 15 25) ++ ueBits (streamOpen 16 25) ++ msbBits 1 (streamOpen 17 2) ++ [false, false, false, false, false] ++ msbBits 1 (streamOpen 18 2) ++
    [false, false, false] ++ ueBits (streamOpen 19 5) ++ [false, false]

/-- VPS, SPS and PPS of an IRAP access unit (R434, R441). -/
def paramSets (p : StreamP) : List Nat := paramNal 32 (vpsBits p) ++ paramNal 33 (spsBits p) ++ paramNal 34 ppsBits

/-! ## Slices (R433, R435) -/

/-- The NAL unit type of a picture: IDR_W_RADL, CRA in RANDOM_ACCESS, RASL for the pictures that lead a CRA, else TRAIL; whether a picture that is no IRAP
picture is a reference is a free value (R433; log 40). -/
def nalType (struct : Nat) (irap leads ref : Bool) : Nat :=
  if irap then (if struct = 3 then 21 else 19) else (if leads then 8 else 0) + boolNat ref

/-- Bits of slice_segment_address in a picture of n CTUs. -/
def addressBits (n : Nat) : Nat := if n ≤ 1 then 0 else (n - 1).log2 + 1

/-- An independent slice segment NAL unit: its header as far as the manual fixes it, to slice_type, and the bits of the rest of it (R435). -/
def sliceNal (type first address ctus ptype : Nat) (rest : List Bool) : List Nat :=
  let bs := msbBits 1 first ++ (if 16 ≤ type then msbBits 1 (streamOpen 20 2) else []) ++ ueBits (streamOpen 2 64) ++
    (if first = 1 then [] else msbBits (addressBits ctus) address) ++ ueBits (2 - ptype) ++ rest
  nalUnit type (bitBytes bs.length bs)

end Sys2Proof.Machine
end

