-- ==== Sys2Proof/Machine/Hevc.lean ====
section
/-! DEFINITION. Sys2Proof/Machine/Hevc.lean: the HEVC codec (chapter 11): contexts, the shared engine, rate control, rings and statistics,
and the commands of family 0x0B. What H.265 makes of a slice comes with the row VCU_SLICE_DONE (log 40). -/

namespace Sys2Proof.Machine

def setVcu (f : Vcu → Vcu) (s : State) : State := { s with vcu := f s.vcu }

def vctx (s : State) (k : Nat) : VCtx := (tabGet s.vcu.ctxs k).getD {}

def setVctx (k : Nat) (f : VCtx → VCtx) (s : State) : State := setVcu (fun v => { v with ctxs := tabPut v.ctxs k (f ((tabGet v.ctxs k).getD {})) }) s

/-! ## Settings with their defaults (log 46) -/

def vcoding (s : State) (k : Nat) : PVcuCoding :=
  (tabGet s.cfg.vcoding k).getD ⟨k, 2, (match tabGet s.cfg.vctx k with | some c => max 1 ((c.f + 500) / 1000) | none => 1), 8, 68, 1, 0⟩

def vrate (s : State) (k : Nat) : PVcuRate := (tabGet s.cfg.vrate k).getD ⟨k, 0, 100, 4, [32, 32, 32], [qpLo s k, 51]⟩

def vout (s : State) (k : Nat) : PVcuOutput := (tabGet s.cfg.vout k).getD ⟨k, 1, 0, 0, 0, 0, 0⟩

def ctuCols (w : Nat) : Nat := ceilDiv (padded8 w) 64
def ctuRows (h : Nat) : Nat := ceilDiv (padded8 h) 64

/-- CTUs of slice i of a context's picture (R435). -/
def sliceCtus (s : State) (k : Nat) (c : PVcuContext) (i : Nat) : Nat :=
  let rs := (vcoding s k).rs
  ctuCols c.w * min rs (ctuRows c.h - i * rs)

/-- Levels of H.265: level × 30, luma picture size, luma samples/s, kbit/s of the tier the level has (log 47). -/
def levels : List (Nat × Nat × Nat × Nat) :=
  [(30, 36864, 552960, 128), (60, 122880, 3686400, 1500), (63, 245760, 7372800, 3000), (90, 552960, 16588800, 6000), (93, 983040, 33177600, 10000),
   (120, 2228224, 66846720, 30000), (123, 2228224, 133693440, 50000), (150, 8912896, 267386880, 100000), (153, 8912896, 534773760, 160000),
   (156, 8912896, 1069547520, 240000), (180, 35651584, 1069547520, 240000), (183, 35651584, 2139095040, 480000)]

/-- general_level_idc (R426). -/
def levelIdc (s : State) (k : Nat) (c : PVcuContext) : Nat :=
  let w := padded8 c.w
  let h := padded8 c.h
  let r := vrate s k
  let rate := if r.mode = 0 then 0 else r.rate
  match levels.find? fun l => decide (w * h ≤ l.2.1 ∧ w * w ≤ 8 * l.2.1 ∧ h * h ≤ 8 * l.2.1 ∧ w * h * c.f ≤ l.2.2.1 * 1000 ∧
      rate * 1000 ≤ l.2.2.2 * (if c.profile = 2 then 1667 else 1000)) with
  | some l => l.1
  | none => 183

def vcuNotify (k kind cause : Nat) (x : Int) (s : State) : State := notifyLimited 0x0BF0 kind k 1 (fun c => [u8 k, u8 kind, u16 cause, s64 x, u32 c]) s

/-! ## Rings (R441 to R443, R448) -/

/-- Writes bytes at a unit of a host byte ring, wrapping at its end. -/
def ringWrite (link addr size at_ : Nat) (bs : List Nat) (s : State) : State :=
  let room := size - at_ * 64
  let s := serviceWr link (addr + at_ * 64) (bs.take room) s
  if bs.length ≤ room then s else serviceWr link addr (bs.drop room) s

/-- Keeps the newest chunks that fit `room` bytes, newest first. -/
def keepChunks : Nat → List (Nat × List Nat) → List (Nat × List Nat)
  | _, [] => []
  | room, c :: r => if c.2.length ≤ room then c :: keepChunks (room - c.2.length) r else []

/-- A 64-byte header from its bytes 0 to 55, its payload, and the padding: CRC and VALID as every ring has them. -/
def sealChunk (head payload : List Nat) : List Nat :=
  padTo 64 (head ++ leBytes 4 (crc32c (head ++ payload)) ++ [1, 0, 0, 0] ++ payload)

/-- Writes a chunk into the ring of a context, and its copy into the host ring (R441, R443). -/
def writeChunk (k kind flags poc slice ptype gap : Nat) (pic : VPic) (payload : List Nat) (s : State) : State :=
  let c := vctx s k
  let o := vout s k
  let head := leBytes 8 c.next ++ leBytes 8 (pic.idx % 2 ^ 48 : Nat) ++ leBytes 8 (pic.sec % 2 ^ 48 : Nat) ++ leBytes 4 pic.ns ++ leBytes 4 payload.length ++
    leBytes 2 k ++ [kind, flags] ++ leBytes 4 poc ++ leBytes 2 slice ++ [ptype, 0] ++ leBytes 4 gap ++ List.replicate 8 0
  let bs := sealChunk head payload
  let units := bs.length / 64
  let s := setVctx k (fun x => { x with next := x.next + 1, chunks := keepChunks (o.mib * 1048576) ((c.next, bs) :: x.chunks) }) s
  if o.mirror = 0 then s else
  let size := o.size / 64
  let s := ringWrite o.link o.addr o.size c.tail (bs.take 60 ++ [0, 0, 0, 0] ++ bs.drop 64) s
  let s := serviceWr o.link (o.addr + c.tail * 64 + 60) [1, 0, 0, 0] s
  let s := setVctx k (fun x => { x with tail := (x.tail + units) % max 1 size, used := x.used + units }) s
  emit (.msix o.link 67) (rset (vcuBase + 0x1000 + o.link * 0x1000 + k / 32 * 4) (k % 32) s)

/-- Writes waiting decoded pictures into free slots (R448). -/
def flushSlots (k : Nat) : Nat → State → State
  | 0, s => s
  | f + 1, s =>
    let c := vctx s k
    let o := vout s k
    match c.outq with
    | [] => s
    | p :: rest =>
      if o.size ≤ c.used ∨ o.slotBytes = 0 then s else
      let head := leBytes 8 (c.done + 1 : Nat) ++ leBytes 4 p.poc ++ leBytes 2 p.w ++ leBytes 2 p.h ++
        [p.depth, boolNat p.concealed + boolNat p.hashErr * 2 + boolNat p.irap * 4] ++ leBytes 2 k ++ leBytes 4 p.ctus ++ leBytes 4 p.bytes.length ++ List.replicate 28 0
      let bs := head ++ leBytes 4 (crc32c (head ++ p.bytes)) ++ [1, 0, 0, 0] ++ p.bytes
      let at_ := o.addr + c.tail * o.slotBytes
      let s := serviceWr o.link (at_ + 60) [1, 0, 0, 0] (serviceWr o.link (at_ + 64) (bs.drop 64) (serviceWr o.link at_ (bs.take 60 ++ [0, 0, 0, 0]) s))
      let s := setVctx k (fun x => { x with outq := rest, done := x.done + 1, tail := (x.tail + 1) % max 1 o.size, used := x.used + 1 }) s
      flushSlots k f (emit (.msix o.link 67) (rset (vcuBase + 0x1000 + o.link * 0x1000 + k / 32 * 4) (k % 32) s))

/-! ## Pictures begin (R431, R433, R438, R443) -/

/-- The coding order of pictures lo to hi of a mini-GOP, coarse levels first. -/
def hierarchy : Nat → Nat → Nat → List Nat
  | 0, _, _ => []
  | f + 1, lo, hi => if hi < lo then [] else let m := (lo + hi) / 2; m :: hierarchy f lo (m - 1) ++ hierarchy f (m + 1) hi

/-- A mini-GOP of which no picture has been coded gives its pictures back, in their order, so that an IRAP picture asked for comes next (R433, log 48). -/
def dropGop (x : VCtx) : VCtx :=
  if ! x.force ∨ x.gop.isEmpty ∨ x.gop.length ≠ x.gopLen then x else
  let first := x.poc - x.gopLen
  let pics := (List.range x.gopLen).filterMap fun (i : Nat) => (x.gop.find? fun e => e.2.1 == first + 1 + i).map fun e => e.1
  { x with queue := pics ++ x.queue, gop := [], poc := first, since := x.gopSince }

/-- Forms the next mini-GOP of a RANDOM_ACCESS context once its pictures are all in the queue (R433, log 48). -/
def formGop (s : State) (k : Nat) : State :=
  let s := if (vctx s k).force then setVctx k dropGop s else s
  let c := vctx s k
  let g := vcoding s k
  if g.struct ≠ 3 ∨ ! c.gop.isEmpty then s
  else if c.fresh ∨ c.force then
    match c.queue with
    | p :: r => setVctx k (fun x => { x with queue := r, gop := [(p, x.poc + 1, true)], gopLen := 0, poc := x.poc + 1, fresh := false, force := false, since := 1 }) s
    | [] => s
  else
    let left := max 1 (g.g + 1 - c.since)
    let m := min g.mini left
    if c.queue.length < m then s else
    let pics := c.queue.take m
    let order : List Nat := m :: hierarchy m 1 (m - 1)
    let gop := order.filterMap fun (i : Nat) => (pics[i - 1]?).map fun p => (p, c.poc + i, i == m && m == left)
    setVctx k (fun x => { x with queue := x.queue.drop m, gop := gop, gopLen := m, gopSince := x.since, poc := x.poc + m, since := if m = left then 1 else x.since + m }) s

/-- The next picture to be coded: it, its POC, whether it is an IRAP picture, and the context after it is taken. -/
def nextPicture (s : State) (k : Nat) : Option (VPic × Int × Bool × VCtx) :=
  let c := vctx s k
  let g := vcoding s k
  if g.struct = 3 then match c.gop with
    | (p, poc, irap) :: r => some (p, poc, irap, { c with gop := r })
    | [] => none
  else match c.queue with
    | p :: r =>
      let irap := g.struct == 0 || c.fresh || c.force || decide (g.g ≤ c.since)
      let poc := if irap then 0 else c.poc + 1
      some (p, poc, irap, { c with queue := r, fresh := false, force := false, poc := poc, since := if irap then 1 else c.since + 1 })
    | [] => none

/-- N_p (R438). -/
def nominal (f : Nat) (r : PVcuRate) (g : Nat) (irap : Bool) : Int :=
  let t := r.rate * 1000000 / max 1 f
  let iw := min r.iw g
  if g ≤ 1 then t else if irap then (t * iw : Nat) else (t * (g - iw) / (g - 1) : Nat)

/-- Starts the next picture of a context; one without host room is not coded and leaves no trace (R431, R443). -/
def startPicture (k : Nat) (c : PVcuContext) (s : State) : State :=
  match nextPicture s k with
  | none => s
  | some (p, poc, irap, x) =>
    let r := vrate s k
    let g := vcoding s k
    let o := vout s k
    let d0 := if x.rate = (r.mode, r.rate) then x.d else 0
    let np := nominal c.f r g.g irap
    let b := max (np - d0) (Int.fdiv np 8)
    let free := o.size - x.used * 64
    let need := if r.mode = 0 then 65536 else (Int.fdiv b 8).toNat * 2 + 65536
    let x := { x with rate := (r.mode, r.rate), d := d0 }
    if o.mirror = 1 ∧ free < need then
      let s := setVctx k (fun c => { c with queue := x.queue, gop := x.gop, rate := x.rate, d := d0, gap := c.gap + 1, skipped := c.skipped + 1, force := c.force || g.struct == 3 && irap }) s
      vcuNotify k 1 stOk p.idx (bump (vcuBase + 0x44) 1 (rset (vcuBase + 4) 1 s))
    else
      let room : Int := if o.mirror = 1 then 8 * ((free : Int) - 65536) else 4 * (o.mib * 1048576 : Nat)
      let leads := g.struct == 3 && ! irap && match x.crap with | some q => decide (poc < q) | none => false
      let ptype := if irap then 0 else if g.struct = 1 then 1 else 2
      let cur : VCur := { pic := p, ptype := ptype, poc := poc, irap := irap, gap := x.gap, rc := r, leads := leads, budget := if r.mode = 0 then none else some b, room := room }
      setVctx k (fun _ => { x with cur := some cur, gap := 0, coded := if irap ∧ g.struct ≠ 3 then [] else x.coded, crap := if irap then some poc else x.crap, d := if r.mode = 0 then x.d else x.d - (np - b) }) s

/-! ## The engine (R430) -/

/-- A slice segment NAL unit starts here, with its start code: first_slice_segment_in_pic_flag. -/
def sliceHere : List Nat → Option Bool
  | 0 :: 0 :: 1 :: a :: _ :: b :: _ =>
    let t := a / 2 % 64
    if t < 10 ∨ (16 ≤ t ∧ t < 22) then some (decide (128 ≤ b)) else none
  | _ => none

/-- The first slice segment NAL unit of an Annex B byte stream: its place, and whether it is the first of its picture (R430, log 40). -/
def findSlice : Nat → List Nat → Option (Nat × Bool)
  | n, x :: r =>
    match sliceHere (x :: r) with
    | some first => some (n, first)
    | none => findSlice (n + 1) r
  | _, [] => none

/-- The place of the next start code, where there is one: a NAL unit has arrived in full once the next one begins (R430; log 248). -/
def nalEnd : Nat → List Nat → Option Nat
  | n, 0 :: (0 :: 1 :: _) => some n
  | n, _ :: r => nalEnd (n + 1) r
  | _, [] => none

/-- When the byte before place `o` of the input buffer arrived. -/
def arrivedAt (x : VCtx) (o : Nat) : Nat := match x.inMarks.find? fun m => decide (x.inPos + o ≤ m.1) with | some m => m.2 | none => 0

/-- When the last byte of the first slice segment of the picture that is next to be decoded arrived, where a slice segment has (R430). -/
def decReady (x : VCtx) : Option Nat :=
  (findSlice 0 x.inBuf).bind fun f => (nalEnd (f.1 + 3) (x.inBuf.drop (f.1 + 3))).map fun e => if f.2 then arrivedAt x e else x.picAt

/-- The deadline of a context's next slice in TMU ns, where one is ready. -/
def sliceDeadline (s : State) (e : Nat × PVcuContext) : Option Nat :=
  let x := vctx s e.1
  let per := 1000000000000 / max 1 e.2.f
  match e.2.kind with
  | 0 => none
  | 3 => if ! x.outq.isEmpty ∨ (vout s e.1).size ≤ x.used then none else (decReady x).map (· + per)
  | _ => match x.cur with
    | some c => some (c.pic.at_ + per)
    | none => (nextPicture s e.1).map fun p => p.1.at_ + per

/-- The engine takes the ready slice of the earliest deadline, the lower context on a tie; pictures without room are passed
over (R430, R443). -/
def vcuPick : Nat → State → State
  | 0, s => s
  | f + 1, s =>
    if s.vcu.current.isSome then s else
    let s := s.cfg.vctx.foldl (fun s e => formGop s e.1) s
    let best := s.cfg.vctx.foldl (fun (m : Option (Nat × Nat)) e => match sliceDeadline s e with
      | some d => (match m with | some b => if d < b.1 then some (d, e.1) else some b | none => some (d, e.1))
      | none => m) none
    match best with
    | none => s
    | some b =>
      match tabGet s.cfg.vctx b.2 with
      | none => s
      | some c =>
        let s := if c.kind ≠ 3 ∧ (vctx s b.2).cur.isNone then startPicture b.2 c s else s
        if c.kind = 3 ∨ (vctx s b.2).cur.isSome then setVcu (fun v => { v with current := some b.2, last := b.2 }) s else vcuPick f s

def vcuRun (s : State) : State := vcuPick (1 + s.vcu.ctxs.foldl (fun n e => n + e.2.queue.length + e.2.gop.length) 0) s

/-- Frames of the colour pipeline that a destination accepted at their first row and that are still to come (R411). -/
def dueAt (s : State) (dest idx : Nat) : Nat :=
  (s.clp.prim ++ s.clp.buf).foldl (fun n f => n + (f.taken.filter fun h => match tabGet s.cfg.heads2 h with
    | some c => c.dest == dest && c.destIdx == idx
    | none => false).length) 0

/-- Whether a context can accept one more picture (R431). -/
def vcuRoom (s : State) (k : Nat) : Bool :=
  match tabGet s.cfg.vctx k with
  | some c => decide ((vctx s k).queue.length + (vctx s k).gop.length + dueAt s 1 k < c.qin)
  | none => false

/-- An accepted picture joins its context's queue. -/
def vcuPush (k : Nat) (p : VPic) (s : State) : State := vcuRun (setVctx k (fun x => { x with queue := x.queue ++ [p] }) s)

/-- A picture reaches an encoding context; false where Q_in wait (R431). -/
def vcuAccept (k : Nat) (p : VPic) (s : State) : Bool × State :=
  if vcuRoom s k then (true, vcuPush k p s) else (false, setVctx k (fun x => { x with gap := x.gap + 1 }) s)

/-! ## A slice ends (R434, R435, R438, R439, R444) -/

/-- The prefix SEI user data message of an access unit (R434). -/
def seiNal (p : VPic) : List Nat :=
  let uuid := [0x4B, 0x75, 0x69, 0x6C, 0x64, 0x65, 0x6C, 0x54, 0x4D, 0x55, 0x74, 0x69, 0x6D, 0x65, 0x30, 0x31]
  nalUnit 39 ([5, 36] ++ uuid ++ beBytes 8 p.idx ++ beBytes 8 (p.sec % 2 ^ 48) ++ beBytes 4 p.ns ++ [0x80])

/-- Full range and the colour description of a context (R434): those of the head that feeds it, or those set for a host. -/
def vuiOf (s : State) (c : PVcuContext) : List Nat :=
  match c.kind, tabGet s.cfg.heads2 c.head with
  | 1, some h => h.range :: (match h.enc with
    | 0 => [1, 1, 1]
    | 1 => [9, if h.n = 8 then 1 else 14, 9]
    | 2 => [9, 16, 9]
    | _ => [9, 18, 9])
  | _, _ => c.full :: c.colour

/-- VPS, SPS and PPS of an IRAP access unit (R426, R432 to R434). -/
def paramNals (s : State) (k : Nat) (c : PVcuContext) : List Nat :=
  let g := vcoding s k
  let v := vuiOf s c
  paramSets ⟨c.profile, levelIdc s k c, c.w, c.h, nth v 0, [nth v 1, nth v 2, nth v 3], g.sao, g.struct, g.mini⟩

/-- The QPs that a rate mode leaves the encoder for a picture type (R437): the one set in CQP; in CAPPED none below it, and none above the first at which the
picture's bits, `need` at the one set and those above it, fit its budget. -/
def qpRange (r : PVcuRate) (ptype : Nat) (budget : Option Int) (need : List Nat) : Int × Int :=
  let lo := nthI r.qpLim 0
  let hi := nthI r.qpLim 1
  let base := clampI lo hi (nthI r.qp ptype)
  match r.mode with
  | 0 => (base, base)
  | 1 => (lo, hi)
  | _ => (base, match budget, need.findIdx? (fun n => match budget with | some b => decide ((n : Int) ≤ b) | none => true) with
    | some _, some i => min hi (base + i)
    | _, _ => hi)

/-- Whether the bits spent reach the limit with `rem` CTUs still to code (R439). -/
def limitHit (lim : Option (Int × Int)) (rem bits : Nat) : Bool :=
  match lim with | some (b, h) => decide (0 < rem) && decide (min b (h - 2048 * (rem : Int)) ≤ bits) | none => false

/-- The CTUs of a slice from what the encoder made, with those after the limit forced (R437, R439): the CTUs, whether the
picture has overrun, and the bits so far. -/
def forceCtus (lim : Option (Int × Int)) (qlo qhi : Int) (total : Nat) : List CtuOut → Nat → Bool → Nat → List CtuOut × Bool
  | [], _, overN, _ => ([], overN)
  | c :: r, done, overN, bits =>
    let c := if overN then { c with ctype := 3, qp := qhi, bits := min c.bits 2048 } else { c with ctype := c.ctype % 3, qp := clampI qlo qhi c.qp }
    let bits := bits + c.bits
    let q := forceCtus lim qlo qhi total r (done + 1) (overN || limitHit lim (total - (done + 1)) bits) bits
    (c :: q.1, q.2)

/-- A row of the 8 × 8 Hadamard transform. -/
def had8 : Nat → List Int → List Int
  | 0, x => x
  | f + 1, x =>
    let n := x.length / 2
    let a := x.take n
    let b := x.drop n
    had8 f (List.zipWith (· + ·) a b) ++ had8 f (List.zipWith (· - ·) a b)

/-- SATD of one 8 × 8 block. -/
def satdBlock (px : Nat → Nat → Int) (x0 y0 : Nat) : Nat :=
  let rows := (List.range 8).map fun y => had8 3 ((List.range 8).map fun x => px (x0 + x) (y0 + y))
  let cols := (List.range 8).map fun x => had8 3 (rows.map fun r => nthI r x)
  ((cols.foldl (fun a c => c.foldl (fun a v => a + v.natAbs) a) 0) - (nthI (cols.headD []) 0).natAbs) / 4

/-- SATD of a CTU on the source luma as padded; blocks beyond the padded picture count 0 (R426, R444). -/
def satdCtu (w h : Nat) (luma : List (List Nat)) (cx cy : Nat) : Nat :=
  let px : Nat → Nat → Int := fun x y => nth (luma.getD (min y (h - 1)) []) (min x (w - 1))
  (List.range 64).foldl (fun a b =>
    let x := cx * 64 + b % 8 * 8
    let y := cy * 64 + b / 8 * 8
    if x < padded8 w ∧ y < padded8 h then a + satdBlock px x y else a) 0

/-- The payload of a STATS chunk (R444): its 32-byte picture block and the CTU entries. -/
def statsPayload (c : PVcuContext) (v : VCur) (d : Int) : List Nat :=
  let n := v.ctus.length
  let mean := if n = 0 then 0 else roundDivUp (v.ctus.foldl (fun a e => a + e.qp * 256) 0) n
  let head := leBytes 2 (ctuCols c.w) ++ leBytes 2 (ctuRows c.h) ++ leBytes 4 v.spent ++ leBytes 4 (v.budget.getD 0) ++ leBytes 4 d ++ leBytes 2 mean ++ List.replicate 14 0
  let intra := v.ptype == 0
  head ++ (v.ctus.mapIdx fun i e =>
    let satd := satdCtu c.w c.h (v.pic.luma.getD v.luma) (i % ctuCols c.w) (i / ctuCols c.w)
    leBytes 4 satd ++ leBytes 4 (if intra then 0 else e.sad : Nat) ++ leBytes 2 (if intra then 0 else e.mvx) ++ leBytes 2 (if intra then 0 else e.mvy) ++
      leBytes 2 (min 65535 (ceilDiv e.bits 8) : Nat) ++ leBytes 1 e.qp ++ [e.ctype]).flatten

/-- A picture is coded: D, its counters, and its STATS chunk (R438, R439, R444). -/
def endPicture (k : Nat) (c : PVcuContext) (v : VCur) (s : State) : State :=
  let r := v.rc
  let t : Int := (r.rate * 1000000 / max 1 c.f : Nat)
  let x := vctx s k
  let d := match v.budget with
    | some b => if r.mode = 1 then max (x.d + v.spent - b) (-t) else max (x.d + v.spent - b) 0
    | none => x.d
  let s := setVctx k (fun x => { x with cur := none, d := d, coded := (v.poc :: x.coded).take 64, done := x.done + 1, overrun := if v.overN then x.overrun + 1 else x.overrun }) s
  let s := if v.overN then vcuNotify k 0 stOk v.pic.idx (bump (vcuBase + 0x40) 1 (rset (vcuBase + 4) 0 s)) else s
  if (vcoding s k).stats = 0 then s else
  let flags := boolNat v.irap * 4 + boolNat v.overN * 8
  let s := writeChunk k 1 flags (toUnsigned 32 v.poc) 0 v.ptype v.gap v.pic (statsPayload c v d) s
  s

/-- The POCs that a picture predicts from, in each list: none, the previous picture, the two previous ones in both lists, or the nearest coded past and future
ones; a picture of RANDOM_ACCESS without a coded one after it takes the past one in both (R433; log 48). -/
def refLists (struct : Nat) (v : VCur) (coded : List Int) : List Int × List Int :=
  if v.ptype = 0 then ([], []) else
  match struct with
  | 1 => (coded.take 1, [])
  | 2 => (coded.take 2, coded.take 2)
  | _ =>
    let past := (coded.filter fun q => decide (q < v.poc)).foldl (fun m q => match m with | some b => some (max b q) | none => some q) (none : Option Int)
    let next := (coded.filter fun q => decide (v.poc < q)).foldl (fun m q => match m with | some b => some (min b q) | none => some q) (none : Option Int)
    (past.toList, (match next with | some q => some q | none => past).toList)

/-- The luma rows of slice i of a host's picture: as many as it has, of the picture's width and depth (R435, R444). -/
def hostRows (s : State) (k : Nat) (c : PVcuContext) (i : Nat) (rows : List (List Nat)) : List (List Nat) :=
  let top := i * (vcoding s k).rs * 64
  (List.range (min ((vcoding s k).rs * 64) (c.h - top))).map fun y => (List.range c.w).map fun x => nth (rows.getD y []) x % (if c.profile = 0 then 256 else 1024)

/-- A slice of an encoding context is coded. -/
def encSliceDone (k : Nat) (c : PVcuContext) (v : VCur) (e : EncSlice) (s : State) : State :=
  let g := vcoding s k
  let n := sliceCtus s k c v.slice
  let total := ctuCols c.w * ctuRows c.h
  let front := if v.slice = 0 then (if v.irap then paramNals s k c else []) ++ seiNal v.pic else []
  let given := (e.ctus ++ List.replicate n (⟨0, 0, 0, 0, 0, 0⟩ : CtuOut)).take n
  let q := qpRange v.rc v.ptype v.budget e.need
  let lim := v.budget.map fun b => (b, v.room)
  let bits0 := v.spent + 8 * front.length
  let f := forceCtus lim q.1 q.2 total given v.ctus.length (v.overN || limitHit lim (total - v.ctus.length) bits0) bits0
  let rest := e.bits.take (f.1.foldl (fun a x => a + x.bits) 0)
  let payload := front ++ sliceNal (nalType g.struct v.irap v.leads e.ref) (boolNat (v.slice == 0)) v.ctus.length total v.ptype rest
  let last := decide (vcuSlices s k c.h ≤ v.slice + 1)
  let flags := boolNat (v.slice == 0) + boolNat last * 2 + boolNat v.irap * 4 + boolNat f.2 * 8
  let v2 := { v with spent := v.spent + 8 * payload.length, slice := v.slice + 1, overN := f.2, ctus := v.ctus ++ f.1
                     luma := if c.kind = 2 then v.luma ++ hostRows s k c v.slice e.luma else [] }
  let s := writeChunk k 0 flags (toUnsigned 32 v.poc) v.slice v.ptype v.gap v.pic payload s
  if last then endPicture k c v2 s else setVctx k (fun x => { x with cur := some v2 }) s

/-! ## Decoding (R424, R425, R445 to R448) -/

/-- Whether the decoder takes a sequence: Main or Main 10, frames, up to level 6.1 (general_level_idc 183), within the context's size. Every coding tool
of those profiles is taken. -/
def seqTaken (c : PVcuContext) (q : DecSeq) : Bool :=
  let depth : Nat → Bool := fun n => decide (8 ≤ n ∧ n ≤ (if q.profile = 1 then 8 else 10))
  (q.profile == 1 || q.profile == 2) && q.chroma == 1 && depth q.depthY && depth q.depthC && decide (q.level ≤ 183) && decide (q.w ≤ c.w ∧ q.h ≤ c.h) && ! q.field

def seqCols (q : DecSeq) : Nat := ceilDiv q.w q.ctb

def seqCtus (q : DecSeq) : Nat := seqCols q * ceilDiv q.h q.ctb

/-- A sample of a picture's plane: 0 luma, 1 Cb, 2 Cr. -/
def dpbSample (p : DpbPic) (plane x y : Nat) : Nat :=
  let q := p.seq
  let sub := if plane = 0 then 1 else 2
  let n := q.ctb / sub
  let cx := x / max 1 n
  let cy := y / max 1 n
  let lw := min q.ctb (q.w - cx * q.ctb)
  let lh := min q.ctb (q.h - cy * q.ctb)
  let base := match plane with | 0 => 0 | 1 => lw * lh | _ => lw * lh + lw / 2 * (lh / 2)
  let fill := 2 ^ ((if plane = 0 then q.depthY else q.depthC) - 1)
  ((tabGet p.px (cy * seqCols q + cx)).getD []).getD (base + (y - cy * n) * (lw / sub) + (x - cx * n)) fill

/-- A picture as it is output: planar, cropped to the conformance window (R409, R448). -/
def dpbBytes (p : DpbPic) : List Nat :=
  let q := p.seq
  [0, 1, 2].flatMap fun plane =>
    let d := if plane = 0 then 1 else 2
    (List.range (nth q.crop 3 / d)).flatMap fun y => (List.range (nth q.crop 2 / d)).flatMap fun x =>
      leBytes (if q.depthY = 8 ∧ q.depthC = 8 then 1 else 2) (dpbSample p plane (nth q.crop 0 / d + x) (nth q.crop 1 / d + y))

/-- The decoded picture with the greatest POC below `poc` (R446). -/
def below (dpb : List DpbPic) (poc : Int) : Option DpbPic :=
  (dpb.filter fun p => ! p.sub && decide (p.poc < poc)).foldl (fun m p => match m with
    | some b => if b.poc < p.poc then some p else some b
    | none => some p) none

/-- The substitute of a missing reference (R446). -/
def substituteFor (q : DecSeq) (dpb : List DpbPic) (poc : Int) : DpbPic :=
  match below dpb poc with
  | some b => { b with poc := poc, sub := true, shown := false }
  | none => { poc := poc, seq := q, irap := false, shown := false, sub := true }

/-- Conceals CTUs of a picture with the co-located samples of the picture that R446 chooses. -/
def concealCtus (dpb : List DpbPic) (as_ : List Nat) (p : DpbPic) : DpbPic :=
  let src := match below dpb p.poc with | some b => if b.seq.w = p.seq.w ∧ b.seq.h = p.seq.h ∧ b.seq.ctb = p.seq.ctb then b.px else [] | none => []
  let as_ := as_.filter fun a => ! p.covered.contains a && decide (a < seqCtus p.seq)
  if as_.isEmpty then p else
  { p with
    px := as_.foldl (fun t a => match tabGet src a with | some v => tabPut t a v | none => tabDel t a) p.px
    covered := p.covered ++ as_, concealed := true, lost := p.lost + as_.length }

/-- A picture is complete: CTUs that no slice covered are concealed; it is counted and enters the decoded picture buffer (R446, R447). -/
def endDec (k : Nat) (hashErr : Bool) (s : State) : State :=
  let x := vctx s k
  match x.dcur with
  | none => s
  | some p =>
    let p := { concealCtus x.dpb (List.range (seqCtus p.seq)) p with hashErr := hashErr }
    let s := setVctx k (fun x => { x with dcur := none, dpb := x.dpb ++ [p], concealed := if p.concealed then x.concealed + 1 else x.concealed }) s
    let s := if p.concealed then vcuNotify k 2 stOk p.poc (bump (vcuBase + 0x48) 1 (rset (vcuBase + 4) 2 s)) else s
    if p.hashErr then vcuNotify k 4 stOk p.poc (rset (vcuBase + 4) 4 s) else s

/-- A picture begins: substitutes take the place of references that are missing, and pictures that are neither named nor still to be output leave the
buffer (R446). -/
def openDec (h : DecHead) (q : DecSeq) (x : VCtx) : VCtx :=
  let missing := h.refs.eraseDups.filter fun r => ! x.dpb.any fun p => p.poc == r
  let subs := missing.map (substituteFor q x.dpb)
  { x with
    dpb := (x.dpb.filter fun p => p.shown || h.refs.contains p.poc) ++ subs
    dcur := some { poc := h.poc, seq := q, irap := h.irap, shown := h.shown } }

/-- The first slice segment of a picture: decoding starts at an IRAP access unit, RASL pictures of the CRA at which it starts are passed over, and a
sequence that the decoder does not take refuses the stream (R445, R447). -/
def headDec (k : Nat) (c : PVcuContext) (h : DecHead) (s : State) : State :=
  let s := endDec k false s
  let x := vctx s k
  match (match h.seq with | some q => some q | none => x.seq) with
  | none => s
  | some q =>
    if x.wait ∧ (! h.irap ∨ h.seq.isNone) then s
    else if h.irap ∧ h.seq.isSome ∧ ! seqTaken c q then
      vcuNotify k 3 eFormat 0 (rset (vcuBase + 4) 3 (setVctx k (fun x => { x with wait := true }) s))
    else if h.rasl ∧ x.noRasl then s
    else setVctx k (fun x => openDec h q { x with wait := false, seq := some q, noRasl := if h.irap then x.wait else x.noRasl }) s

/-- A slice segment's CTUs: those it decodes, those after an error, and those of a slice without its parameter sets (R447). A picture that predicts from a
substitute is CONCEALED (R446). -/
def segDec (g : DecSeg) (x : VCtx) : VCtx :=
  match x.dcur with
  | none => x
  | some p =>
    let all := (List.range g.count).map (g.first + ·)
    if ! g.known then { x with dcur := some (concealCtus x.dpb all p) } else
    let n := min g.good g.count
    let p := { p with
      px := (all.take n).foldl (fun t a => match tabGet g.px a with | some v => tabPut t a v | none => t) p.px
      covered := p.covered ++ (all.take n).filter (fun a => ! p.covered.contains a)
      concealed := p.concealed || g.uses.any fun r => x.dpb.any fun b => b.poc == r && b.sub }
    { x with dcur := some (concealCtus x.dpb (all.drop n) p) }

/-- A picture is output: it waits for a slot (R448). A substitute is never output (R446). -/
def outDec (k : Nat) (s : State) (poc : Int) : State :=
  match (vctx s k).dpb.find? fun p => p.poc == poc && p.shown && ! p.sub with
  | none => s
  | some p =>
    let o : DecPic := ⟨p.poc, nth p.seq.crop 2, nth p.seq.crop 3, p.seq.depthY, p.irap, p.concealed, p.hashErr, p.lost, dpbBytes p⟩
    setVctx k (fun x => { x with outq := x.outq ++ [o], dpb := x.dpb.map fun b => if b = p then { b with shown := false } else b }) s

/-- A decode context's slice (R445 to R448). -/
def decSlice (k : Nat) (c : PVcuContext) (d : DecSlice) (s : State) : State :=
  let s := setVctx k (fun x =>
    let n := min (max 1 d.used) x.inBuf.length
    { x with inBuf := x.inBuf.drop n, inPos := x.inPos + n, inMarks := x.inMarks.filter fun m => decide (x.inPos + n < m.1), picAt := (decReady x).getD x.picAt }) s
  let s := match d.seg with
    | none => s
    | some g => setVctx k (segDec g) (match g.head with | some h => headDec k c h s | none => s)
  let s := match d.ends with | some e => endDec k e s | none => s
  d.outs.foldl (outDec k) s

/-- Weighted padded samples of one slice, in the units of vcuCost, and the switch where the engine comes from another context (R428). -/
def sliceWork (s : State) (k : Nat) (c : PVcuContext) (d : DecSlice) : Nat :=
  let samples := if c.kind = 3 then
      match d.seg with
      | some g => match (match g.head with | some h => h.seq | none => none), (vctx s k).seq with
        | some q, _ | none, some q => (List.range g.count).foldl (fun a i =>
            let x := (g.first + i) % seqCols q * q.ctb
            let y := (g.first + i) / seqCols q * q.ctb
            a + min q.ctb (padded8 q.w - x) * min q.ctb (padded8 q.h - y)) 0
        | none, none => 0
      | none => 0
    else match (vctx s k).cur with
      | some v => let top := v.slice * (vcoding s k).rs * 64; padded8 c.w * min ((vcoding s k).rs * 64) (padded8 c.h - top)
      | none => 0
  samples * (if c.profile = 2 ∧ c.kind ≠ 3 then 4 else 3) + if s.vcu.done = some k then 0 else 9000

/-- Whether a slice is one that the encoder makes: its reference lists are those of R433 (log 40). -/
def sliceFits (s : State) (k : Nat) (e : EncSlice) : Bool :=
  match tabGet s.cfg.vctx k, (vctx s k).cur with
  | some c, some v => c.kind == 3 || refLists (vcoding s k).struct v (vctx s k).coded == (e.l0, e.l1)
  | _, _ => true

/-- The engine completes a slice of context k and passes to the next (R430). `poison` says that the source came poisoned (R646). -/
def vcuSliceDone (k : Nat) (e : EncSlice) (d : DecSlice) (poison : Bool) (s : State) : State :=
  if s.vcu.current ≠ some k ∨ (! poison ∧ ! sliceFits s k e) then s else
  let s := setVcu (fun v => { v with current := none }) s
  match tabGet s.cfg.vctx k with
  | none => s
  | some c =>
    let s := setVcu (fun v => { v with load := meterAdd (s.now / secPs) 6000000000 (sliceWork s k c d) v.load, done := some k }) s
    let s := if c.kind = 3 then
        let s := decSlice k c d s
        flushSlots k (vctx s k).outq.length s
      else match (vctx s k).cur with
        | none => s
        | some v =>
          if poison then setVctx k (fun x => { x with cur := none, gap := x.gap + v.gap + 1, force := x.force || v.irap }) s
          else encSliceDone k c v e s
    vcuRun s

/-! ## The host ring's head (R443, R448) -/

def vcuHostHead (link k value : Nat) (s : State) : State :=
  let o := vout s k
  let x := vctx s k
  let dec := match tabGet s.cfg.vctx k with | some c => c.kind == 3 | none => false
  let size := if dec then o.size else if o.mirror = 1 then o.size / 64 else 0
  let n := (value + size - x.head) % max 1 size
  if o.link ≠ link ∨ size ≤ value ∨ x.used < n then rset (vcuBase + 4) 5 s
  else
    let s := setVctx k (fun x => { x with head := value, used := x.used - n }) s
    vcuRun (flushSlots k x.outq.length s)

/-! ## Checks of CONFIG_COMMIT (R410, R423, R427, R433) -/

/-- Whether a context's profile takes a format at a depth. -/
def profileTakes (profile fmt n : Nat) : Bool :=
  match profile with | 0 => fmt == 4 && n == 8 | 1 => fmt == 4 && n == 10 | _ => fmt == 3 && n == 10

def vcuCommitFault (s : State) : Option (List RV) :=
  let bad : Nat × PVcuContext → Bool := fun e =>
    e.2.kind == 1 && (match tabGet s.cfg.heads2 e.2.head with
      | some h => ! (h.dest == 1 && h.destIdx == e.1 && profileTakes e.2.profile h.fmt h.n && h.out == [e.2.w, e.2.h])
      | none => true)
  match s.cfg.vctx.find? bad with
  | some e => some [u8 e.1]
  | none =>
    match s.cfg.heads2.find? fun h => h.2.dest == 1 && (match tabGet s.cfg.vctx h.2.destIdx with
        | some c => ! (c.kind == 1 && c.head == h.1)
        | none => true) with
    | some h => some [u8 h.2.destIdx]
    | none => if s.cfg.vctx.any fun e => (e.2.kind == 1 || e.2.kind == 2) && (vcoding s e.1).struct == 3 && decide (e.2.qin < (vcoding s e.1).mini) then some [] else none

/-- The HEVC figure (R429). -/
def hevcFigure (s : State) : Nat := ceilDiv (1000 * vcuOthers s 64) 6000000000000

/-! ## Commands of family 0x0B (R450) -/

def setCfgV (f : Cfg → Cfg) (s : State) : State := { s with cfg := f s.cfg }

def vcuContext (p : PVcuContext) : Cmd := mkVcuContext p fun _ p s =>
  .ok (setVctx p.ctx (fun _ => {}) (setCfgV (fun c => { c with vctx := tabPut c.vctx p.ctx p }) s)) [u32 p.f]

def vcuCoding (p : PVcuCoding) : Cmd := mkVcuCoding p fun _ p s => .ok (setCfgV (fun c => { c with vcoding := tabPut c.vcoding p.ctx p }) s) []

def vcuRate (p : PVcuRate) : Cmd := mkVcuRate p fun _ p s => .ok (setCfgV (fun c => { c with vrate := tabPut c.vrate p.ctx p }) s) []

def vcuOutput (p : PVcuOutput) : Cmd := mkVcuOutput p fun _ p s =>
  .ok (setVctx p.ctx (fun x => { x with head := 0, tail := 0, used := 0 }) (setCfgV (fun c => { c with vout := tabPut c.vout p.ctx p }) s)) []

def vcuForceIrap (p : PVcuForceIrap) : Cmd := mkVcuForceIrap p fun _ p s => .ok (setVctx p.ctx (fun x => { x with force := true }) s) []

/-- Bytes of a host's picture as R409 stores it: planes of one byte a sample, or of two above 8 bits. -/
def hostPicBytes (c : PVcuContext) : Nat :=
  c.w * c.h * (if c.profile = 2 then 4 else 3) / 2 * if c.profile = 0 then 1 else 2

/-- VCU_ENC_SUBMIT: the picture is read from the host's memory as it is accepted (R431); the rows read come with its slices (R444). A submission to a context that does not encode from a host is refused (log 49). -/
def vcuEncSubmit (p : PVcuEncSubmit) : Cmd := mkVcuEncSubmit p fun _ p s =>
  match tabGet s.cfg.vctx p.ctx with
  | some c =>
    if c.kind ≠ 2 then .no eState []
    else
      let r := vcuAccept p.ctx ⟨p.frame, p.sec, p.ns, tmuNs s, none⟩ s
      if r.1 then .ok (emit (.hostRd p.link p.addr (hostPicBytes c)) r.2) [] else .no eQueueFull []
  | none => .no eState []

def vcuDecWrite (p : PVcuDecWrite) : Cmd := mkVcuDecWrite p fun _ p s =>
  match tabGet s.cfg.vctx p.ctx with
  | some c =>
    let have_ := (vctx s p.ctx).inBuf.length
    if c.kind ≠ 3 then .no eState []
    else if 8388608 < have_ + p.length then .no eBusy [u32 (8388608 - have_)]
    else
      let s := setVctx p.ctx (fun x => { x with inBuf := x.inBuf ++ p.data.take p.length, inMarks := x.inMarks ++ [(x.inPos + have_ + p.length, tmuNs s)] }) s
      .ok (vcuRun s) [u32 (8388608 - have_ - p.length)]
  | none => .no eState []

/-- The bytes of a ring's entry: zeros before it is written, none once overwritten (R442, R472). -/
def ringRead (recs : List (Nat × List Nat)) (next seq off len : Nat) : Option (List Nat) :=
  if next ≤ seq then some (List.replicate len 0)
  else (recs.find? fun c => c.1 == seq).map fun c => (c.2.drop off).take len

def vcuRead (p : PVcuRead) : Cmd := mkVcuRead p fun _ p s =>
  let x := vctx s p.ctx
  match ringRead x.chunks x.next p.seq p.offset p.length with
  | some bs => .ok s [.block bs]
  | none => .no eStale []

def vcuStatus (p : PVcuStatus) : Cmd := mkVcuStatus p fun _ p s =>
  let x := vctx s p.ctx
  let c := (tabGet s.cfg.vctx p.ctx).getD ⟨p.ctx, 0, 0, 0, 0, 0, 0, 0, [], 0⟩
  .ok s [u8 c.kind, u8 (if c.kind = 0 ∨ c.kind = 3 then 0 else levelIdc s p.ctx c), u32 c.f, u64 (x.next - 1), s64 x.d, u64 x.done, u32 x.overrun, u32 x.skipped, u32 x.concealed]

def vcuCntClear (s : State) : State :=
  let s := rput (vcuBase + 0x48) 0 (rput (vcuBase + 0x44) 0 (rput (vcuBase + 0x40) 0 s))
  setVcu (fun v =>
    let m := meterAt (s.now / secPs) 6000000000 v.load
    { v with ctxs := v.ctxs.map (fun e => (e.1, { e.2 with overrun := 0, skipped := 0, concealed := 0 })), load := { m with peak := m.last } }) s

def vcuCountersClear : Cmd := mkVcuCountersClear fun _ s => .ok (vcuCntClear s) []

/-- A Block reset of VCU (R448). -/
def vcuReset (s : State) : State :=
  setVcu (fun v => { v with current := none, last := 0, done := none, load := {}, ctxs := v.ctxs.map fun e => (e.1, { e.2 with
    gop := [], cur := none, gap := e.2.gap + e.2.gop.length + (match e.2.cur with | some v => v.gap + 1 | none => 0), coded := [], crap := none, d := 0, since := 0, fresh := true, force := false, head := 0, tail := 0, used := 0, wait := true, noRasl := false, seq := none, dpb := [], dcur := none, overrun := 0, skipped := 0, concealed := 0 }) }) s

end Sys2Proof.Machine
end

