-- ==== Sys2Proof/Machine/Tombac.lean ====
section
/-! DEFINITION. Sys2Proof/Machine/Tombac.lean: the Tombac engine (chapter 12): head frames, web history and jobs, and the commands of
family 0x0C. -/

namespace Sys2Proof.Machine

def thead (s : State) (h : Nat) : THead := (tabGet s.tbc.heads h).getD {}

def setTHead (h : Nat) (f : THead → THead) (s : State) : State := setTbc (fun t => { t with heads := tabPut t.heads h (f ((tabGet t.heads h).getD {})) }) s

def tbcHeadCfg (s : State) (h : Nat) : PTbcHeadOutput := (tabGet s.cfg.tbcHeads h).getD ⟨h, 0, 0, 0, 16, 0, 0, 0, 1048576⟩

def tbcNotify (kind result n : Nat) (x : Int) (s : State) : State := notifyLimited 0x0CF0 kind 0 n (fun c => [u8 kind, u8 result, s64 x, u32 c]) s

/-- A head did not send a frame (R411, R422). -/
def headDrop (h ctx idx : Nat) (s : State) : State :=
  let s := rset (clpBase + 4) 4 (bump (clpBase + 0x408 + h * 0x10) 1 s)
  notifyLimited 0x0AF0 2 ctx 1 (fun c => [u8 ctx, u8 2, u8 h, u64 idx, u32 c]) s

/-! ## Head frames (R470 to R473) -/

/-- DEPTH and SHIFT of a head's streams (R470). -/
def headDepth (s : State) (f : HFrame) : Nat × Nat :=
  match tabGet s.cfg.heads2 f.head with
  | some c =>
    if c.tap ≠ 0 then (if c.tap = 1 then 16 else f.n, 0)
    else match tabGet s.cfg.area f.ctx with
      | some a => match tabGet s.cfg.streams a.stream with
        | some st => (fmtBits st.fmt, 16 - fmtBits st.fmt)
        | none => (16, 0)
      | none => (16, 0)
  | none => (16, 0)

def planeW (p : List (List Nat)) : Nat := (p.headD []).length

/-- The sizes of a head frame's planes (R408, R409). -/
def planeSizes (fmt w h : Nat) : List (Nat × Nat) :=
  match fmt with
  | 0 => [(w, h)]
  | 1 | 2 => [(w, h), (w, h), (w, h)]
  | 3 => [(w, h), (w / 2, h), (w / 2, h)]
  | _ => [(w, h), (w / 2, h / 2), (w / 2, h / 2)]

/-- Bytes a frame may take of the host ring (R473). -/
def frameBound (s : State) (f : HFrame) : Nat :=
  f.planes.foldl (fun a p => a + 4 + tbcBound (planeW p) p.length 1 (headDepth s f).1) 64

/-- Whether a Tombac head can accept a frame of this shape: its host ring has room for it beside the frames accepted before it (R473,
log 136). -/
def tbcRoom (s : State) (f : HFrame) : Bool :=
  let c := tbcHeadCfg s f.head
  let x := thead s f.head
  let owed := x.frames.foldl (fun a g => a + ceilDiv (frameBound s g) 64 * 64) 0
  c.mirror != 1 || decide (frameBound s f ≤ c.bytes - x.used * 64 - owed)

/-- A frame that was accepted at its first row reaches its Tombac head whole (R411). -/
def tbcPush (f : HFrame) (s : State) : State := setTHead f.head (fun x => { x with frames := x.frames ++ [f] }) s

/-- The stream of one plane (R470). -/
def planeStream (s : State) (f : HFrame) (p : List (List Nat)) : List Nat :=
  let c := tbcHeadCfg s f.head
  let d := headDepth s f
  tbcEncode { planes := 1, depth := d.1, width := planeW p, height := p.length, keyInt := c.keyInt, shift := d.2, near := c.near, signed := false, effort := c.effort }
    (p.map fun row => [row])

/-- Frames missing by index since the last one written (R414, R471). -/
def indexGap (last : Option Nat) (idx : Nat) : Nat :=
  match last with | some l => min 0xFFFFFFFF ((idx + 2 ^ 48 - l % 2 ^ 48 - 1) % 2 ^ 48) | none => 0

/-- Writes a frame's record (R471), and its copy in the host ring (R473). -/
def writeFrameRec (f : HFrame) (s : State) : State :=
  let h := f.head
  let x := thead s h
  let c := tbcHeadCfg s h
  let payload := f.planes.flatMap fun p => let b := planeStream s f p; leBytes 4 b.length ++ padTo 4 b
  let head := leBytes 8 x.next ++ leBytes 8 (f.idx % 2 ^ 48 : Nat) ++ leBytes 8 (f.sec % 2 ^ 48 : Nat) ++ leBytes 4 f.ns ++ leBytes 4 payload.length ++
    [h, f.planes.length, f.fmt, boolNat f.repaired] ++ leBytes 4 (indexGap x.lastIdx f.idx) ++ List.replicate 16 0
  let bs := sealChunk head payload
  let s := setTHead h (fun x => { x with next := x.next + 1, lastIdx := some f.idx, recs := keepChunks (c.mib * 1048576) ((x.next, bs) :: x.recs) }) s
  let s := bump (tbcBase + 0x40) 1 s
  if c.mirror = 0 then s else
  let size := c.bytes / 64
  let s := ringWrite c.link c.addr c.bytes x.tail (bs.take 60 ++ [0, 0, 0, 0] ++ bs.drop 64) s
  let s := serviceWr c.link (c.addr + x.tail * 64 + 60) [1, 0, 0, 0] s
  let s := setTHead h (fun x => { x with tail := (x.tail + bs.length / 64) % max 1 size, used := x.used + bs.length / 64 }) s
  emit (.msix c.link 68) (rset (tbcBase + 0x1000 + c.link * 0x1000) h s)

/-! ## Web history (R475 to R479) -/

/-- The planes a plane mask selects. -/
def histPlanes (c : PTbcHistory) : List Nat := (List.range 4).filter fun p => bit c.planes p

/-- Lines staged and not yet compressed. -/
def stagedLines (t : Tbc) : Nat := t.strips.foldl (fun a h => if h.dead then a else a + (h.rows.length - h.done)) 0

/-- Lines of the history are lost (R476). -/
def histLose (strip : Int) (n : Nat) (s : State) : State :=
  let s := setTbc (fun t => { t with histLost := t.histLost + n }) (bump (tbcBase + 0x4C) n s)
  tbcNotify 1 0 n strip (publish 0x0801 (rset (tbcBase + 4) 0 s))

/-- Abandons the oldest strip not finished (R476). -/
def abandonStrip (s : State) : State :=
  match s.tbc.strips.find? fun h => ! h.dead with
  | none => s
  | some x =>
    let s := setTbc (fun t => { t with strips := t.strips.filterMap fun h =>
      if ! h.dead ∧ h.strip = x.strip ∧ h.n = x.n then (if h.ended then none else some { h with dead := true, rows := [], done := 0 }) else some h }) s
    histLose x.strip x.rows.length s

/-- The record of a strip whose lines are all compressed (R477). -/
def writeHistRec (c : PTbcHistory) (x : HStrip) (s : State) : State :=
  let w := match s.cfg.geom with | some g => g.width | none => 0
  let pitch : Nat := match s.cfg.geom with | some g => g.mdPitch | none => 0
  let stream := tbcEncode { planes := (histPlanes c).length, depth := 16, width := w, height := x.rows.length, keyInt := 0, shift := 0, near := 0, signed := false, effort := c.effort } x.rows
  let seq := s.tbc.histNext
  let head := leBytes 8 seq ++ leBytes 8 x.strip ++ leBytes 8 x.n ++ leBytes 4 x.rows.length ++ leBytes 4 stream.length ++ leBytes 8 (x.n * (pitch : Int)) ++
    leBytes 8 (x.sec % 2 ^ 48 : Nat) ++ leBytes 4 x.ns ++ leBytes 4 (min 0xFFFFFFFF s.tbc.histLost : Nat)
  let bs := sealChunk head stream
  let keep : Nat → List HRec → List HRec := fun room l => (l.foldl (fun (a : Nat × List HRec) r =>
    if a.1 < r.bytes.length then (0, a.2) else (a.1 - r.bytes.length, a.2 ++ [r])) (room, [])).2
  bump (tbcBase + 0x48) 1 (setTbc (fun t => { t with histNext := seq + 1, histLost := 0, hist := keep (c.mib * 1048576) (⟨seq, x.n, x.rows.length, bs, pitch⟩ :: t.hist) }) s)

/-- Strips that have ended and are compressed leave their records. -/
def finishStrips (s : State) : State :=
  match s.cfg.tbcHist with
  | none => s
  | some c =>
    let ready : HStrip → Bool := fun h => h.ended && (h.dead || h.done == h.rows.length)
    let go := s.tbc.strips.filter ready
    go.foldl (fun s h => if h.dead ∨ h.rows.isEmpty then s else writeHistRec c h s) (setTbc (fun t => { t with strips := t.strips.filter fun h => ! ready h }) s)

def endStrips (s : State) : State := finishStrips (setTbc (fun t => { t with strips := t.strips.map fun h => { h with ended := true } }) s)

/-- A web line is copied into the staging ring (R475, R476). -/
def histLine (s : State) (l : WebLine) : State :=
  match s.cfg.tbcHist with
  | none => s
  | some c =>
    if c.enable = 0 then s else
    let s := if l.first then endStrips s else s
    let s := if s.tbc.strips.any fun h => ! h.ended then s
      else setTbc (fun t => { t with strips := t.strips ++ [⟨l.strip, l.n, l.sec, l.ns, [], 0, false, false⟩] }) s
    let s := if c.stage ≤ stagedLines s.tbc then abandonStrip s else s
    let dead := match s.tbc.strips.getLast? with | some h => h.dead | none => true
    let s := if dead then histLose l.strip 1 s
      else setTbc (fun t => { t with strips := listMod t.strips (t.strips.length - 1) fun h => { h with rows := h.rows ++ [(histPlanes c).map fun p => l.planes.getD p []] } }) s
    if l.stripEnd then endStrips s else s

/-! ## Jobs (R480 to R484) -/

def jobOp (j : List Nat) : Nat := nth j 0
def jobSrc (j : List Nat) : Nat := nth j 1
def jobDst (j : List Nat) : Nat := nth j 2
def jobWait (j : List Nat) : Bool := bit (nth j 3) 1
def jobStride (j : List Nat) : Nat := leAt j 24 4
def jobCap (j : List Nat) : Nat := leAt j 56 8

def jobParams (j : List Nat) : TbcP :=
  { planes := nth j 6, depth := nth j 7, width := leAt j 12 4, height := leAt j 16 4, keyInt := leAt j 20 4, shift := nth j 8, near := nth j 5, signed := bit (nth j 3) 0, effort := nth j 4 }

/-- Bytes of a raw sample (R481). -/
def sampleBytes (p : TbcP) : Nat := if p.depth + p.shift ≤ 8 then 1 else 2

/-- Bytes from the first to the end of the last raw sample. -/
def rawExtent (p : TbcP) (stride : Nat) : Nat := if p.planes * p.height = 0 then 0 else (p.planes * p.height - 1) * stride + p.width * sampleBytes p

/-- Whether a descriptor's fields are in range (R480). -/
def jobOk (s : State) (j : List Nat) : Bool :=
  let p := jobParams j
  let size := s.cfg.tbcPool * 1048576
  let comp := jobOp j = 0
  let base := jobOp j ≤ 1 && jobDst j ≤ 4 && nth j 3 ≤ 3 && leAt j 10 2 == 0 && jobStride j % 4 == 0 && nth j 9 ≤ 3 &&
    (jobSrc j ≤ 4 || (jobSrc j == 5 && ! comp)) && (jobDst j != 0 || decide (leAt j 40 8 + jobCap j ≤ size))
  let shape := 1 ≤ p.planes && p.planes ≤ 4 && 1 ≤ p.depth && p.depth + p.shift ≤ 16 && p.shift ≤ 15 && p.near ≤ 15 && p.effort ≤ 7 && 1 ≤ p.width &&
    p.width ≤ 262144 && 1 ≤ p.height && p.height ≤ 1048576 && p.keyInt ≤ 65535 && (! p.signed || (p.depth == 16 && p.shift == 0))
  let src := jobSrc j != 0 || (if comp then decide (leAt j 32 8 + rawExtent p (jobStride j) ≤ size) else decide (leAt j 32 8 + leAt j 48 8 ≤ size))
  base && src && (! comp || shape) && ((! comp && jobSrc j != 5) || leAt j 48 8 == 0)

/-- Bytes of a job's source in a buffer or in host memory. -/
def jobSrcLen (j : List Nat) : Nat := if jobOp j = 0 then rawExtent (jobParams j) (jobStride j) else leAt j 48 8

/-- The source bytes of a job: those of host memory are free values (log 3). The tile gives none once it is reused. -/
def jobSource (j : List Nat) (s : State) : Option (List Nat) × State :=
  let n := jobSrcLen j
  match jobSrc j with
  | 0 => (some (memRead s.tbc.buf (leAt j 32 8) n), s)
  | 5 => (match tileOf s (leAt j 32 8) with
    | none => none
    | some t =>
      let skip : Nat → List Nat → List Nat := fun k bs => (List.range k).foldl (fun (bs : List Nat) _ => bs.drop (4 + ceilDiv (leAt bs 0 4) 4 * 4)) bs
      let bs := skip (nth j 9) (t.bytes.drop 64)
      some (if nth t.bytes 34 = 0 ∨ nth t.bytes 32 ≤ nth j 9 then [] else (bs.drop 4).take (leAt bs 0 4)), s)
  | _ => let r := takeBytes n s; (some r.1, r.2)

/-- Raw samples as rows of planes (R481). -/
def rawRows (p : TbcP) (stride : Nat) (bs : List Nat) : List (List (List Nat)) :=
  let b := sampleBytes p
  (List.range p.height).map fun y => (List.range p.planes).map fun pl =>
    let line := bs.drop ((pl * p.height + y) * stride)
    (List.range p.width).map fun x => leAt line (x * b) b

/-- Writes bytes into a job's destination. -/
def jobWrite (j : List Nat) (off : Nat) (bs : List Nat) (s : State) : State :=
  let a := leAt j 40 8 + off
  if jobDst j = 0 then { setTbc (fun t => { t with buf := memWrite t.buf a bs }) s with dmc := { s.dmc with bad := clearBad 5 a bs.length s.dmc.bad } } else emit (.hostWr (jobDst j - 1) a bs) s

/-- A job ends (R484). -/
def endJob (j : Job) (d : JobDone) (s : State) : State :=
  let s := setTbc (fun t => { t with jobs := t.jobs.filter fun x => x.id != j.id, dones := (d :: t.dones).take 256 }) s
  let s := if d.result = 0 then bump (tbcBase + 0x50) 1 s else bump (tbcBase + 0x54) 1 (rset (tbcBase + 4) 1 s)
  publishFrom j.origin 0x0800 (notify j.session 0x0CF0 j.tag 0 [u8 0, u8 d.result, s64 d.id, u32 1] s)

/-- The coder of a COMPRESS job after `n` lines, with the bytes its stream then has after the header. -/
def jobEncode (p : TbcP) (rows : List (List (List Nat))) (n : Nat) : TbcEnc :=
  ((rows.take n).mapIdx fun y r => (y, r)).foldl (fun e x => tbcEncRow p x.1 x.2 e) (tbcStart p)

/-- The extent of a DECOMPRESS destination: as the stream's header gives it, all that it may take where no header was read. -/
def jobExtent (j : Job) : Nat :=
  match j.src with
  | some src => if tbcHeaderOk src then let p := tbcParams src; min (jobCap j.desc) (p.planes * p.height * jobStride j.desc) else jobCap j.desc
  | none => jobCap j.desc

/-- A job fails: a DECOMPRESS destination is undefined unless nothing was to be written, a COMPRESS header is 0 (R483). `j` has the lines completed; the
bytes written are those of its lines, with the 32 zeros of a COMPRESS job (log 239). -/
def failJob (j : Job) (result line off : Nat) (s : State) : State :=
  let zero := j.src.isSome ∧ 32 ≤ jobCap j.desc
  let n := match j.src with
    | none => 0
    | some src => if jobOp j.desc = 0 then (if zero then 32 else 0) + (jobEncode (jobParams j.desc) (rawRows (jobParams j.desc) (jobStride j.desc) src) j.lines).bytes.length
      else let p := tbcParams src; j.lines * p.planes * p.width * sampleBytes p
  let s := if jobOp j.desc = 0 then (if zero then jobWrite j.desc 0 (List.replicate 32 0) s else s)
    else if result = 1 ∨ (result = 5 ∧ j.src.isNone) then s else let r := takeBytes (jobExtent j) s; jobWrite j.desc 0 r.1 r.2
  endJob j ⟨j.id, leAt j.desc 28 4, result, n, j.lines, line, off⟩ s

/-- Writes the samples of a decoded stream (R481). -/
def writeRaw (d : List Nat) (p : TbcP) (rows : List (List (List Nat))) (s : State) : State :=
  (rows.mapIdx fun y r => (y, r)).foldl (fun s yr => (yr.2.mapIdx fun pl l => (pl, l)).foldl (fun s pl =>
    jobWrite d ((pl.1 * p.height + yr.1) * jobStride d) (pl.2.flatMap fun (v : Nat) => leBytes (sampleBytes p) v) s) s) s

/-- A job has done one more line: that line is written, and after the last the trailer and then the header (R483). Its cancellation takes effect then (R484). -/
def jobLine (j : Job) (s : State) : State :=
  let r := match j.src with | some b => (some b, s) | none => jobSource j.desc s
  let stale := decide (jobSrc j.desc = 5) && (tileOf r.2 (leAt j.desc 32 8)).isNone
  let put : Job → State → State := fun j s =>
    if j.cancel then failJob j 5 0 0 s else setTbc (fun t => { t with jobs := t.jobs.map fun x => if x.id = j.id then j else x }) s
  let host : Nat → Bool := fun sp => decide (1 ≤ sp ∧ sp ≤ 4)
  if (host (jobSrc j.desc) || host (jobDst j.desc)) && wrapClosed 40 r.2 then failJob j 4 0 0 r.2 else
  match r.1, stale with
  | none, _ | _, true => failJob j 6 0 0 r.2
  | some src, false =>
    let j0 := { j with src := some src }
    let j := { j0 with lines := j.lines + 1 }
    let s := r.2
    if jobOp j.desc = 0 then
      let p := jobParams j.desc
      let s := tbcMeter (tbcWork (p.width * p.planes) p.effort p.near) s
      let rows := rawRows p (jobStride j.desc) src
      let done := (jobEncode p rows j0.lines).bytes.length
      let e := jobEncode p rows j.lines
      let last := decide (p.height ≤ j.lines)
      if jobCap j.desc < 32 + e.bytes.length then failJob j0 1 0 0 s
      else
        let s := jobWrite j.desc (32 + done) (e.bytes.drop done) s
        if ! last then put j s
        else if j.cancel then failJob j 5 0 0 s
        else if jobCap j.desc < 32 + e.bytes.length + 16 then failJob j 1 0 0 s
        else
          let s := jobWrite j.desc 0 (tbcHeader p) (jobWrite j.desc (32 + e.bytes.length) (tbcTrailer e) s)
          endJob j ⟨j.id, leAt j.desc 28 4, 0, 48 + e.bytes.length, j.lines, 0, 0⟩ s
    else
      let p := tbcParams src
      let s := tbcMeter (p.width * p.planes * tbcUnpack) s
      if tbcHeaderOk src ∧ jobCap j.desc < p.planes * p.height * jobStride j.desc then failJob { j with lines := 0 } 1 0 0 s
      else match tbcDecode src with
        | .format line off => if line < j.lines then failJob j0 2 line off s else put j s
        | .crc line off => if p.height ≤ j.lines then failJob j 3 line off s else put j s
        | .ok p rows =>
          if j.lines < p.height ∨ j.cancel then put j s
          else endJob j ⟨j.id, leAt j.desc 28 4, 0, p.planes * p.height * p.width * sampleBytes p, j.lines, 0, 0⟩ (writeRaw j.desc p rows s)

/-- The job that may run: the first, unless it waits for a delivery (R482). -/
def jobReady (s : State) : Option Job :=
  match s.tbc.jobs with
  | j :: _ => if jobWait j.desc ∧ ! j.released then none else some j
  | [] => none

/-- A delivery to TBC.START releases the first job that waits (R482, R498). -/
def releaseJob (origin : Nat) (s : State) : State :=
  match s.tbc.jobs.find? fun j => jobWait j.desc && ! j.released with
  | none => s
  | some w => setTbc (fun t => { t with jobs := t.jobs.map fun j => if j.id = w.id then { j with released := true, origin := some origin } else j }) s

/-! ## The engine (R453) -/

/-- The highest source with work: 0 none, 1 head frames, 2 tiles, 3 history, 4 jobs. -/
def tbcReady (s : State) : Nat :=
  if s.tbc.heads.any fun e => ! e.2.frames.isEmpty then 1
  else if ! s.tbc.tiles.isEmpty then 2
  else if s.tbc.strips.any fun h => ! h.dead && decide (h.done < h.rows.length) then 3
  else if (jobReady s).isSome then 4 else 0

/-- The width of the coded line of an index, the planes' lines one after another. -/
def lineWidth : List (List (List Nat)) → Nat → Nat
  | [], _ => 0
  | p :: r, i => if i < p.length then planeW p else lineWidth r (i - p.length)

/-- One line of the head frame in front (R470, R471). -/
def tbcHeadLine (bad : Bool) (s : State) : State :=
  match s.tbc.heads.find? fun e => ! e.2.frames.isEmpty with
  | none => s
  | some (h, x) =>
    match x.frames with
    | [] => s
    | f :: rest =>
      let c := tbcHeadCfg s h
      let s := tbcMeter (tbcWork (lineWidth f.planes x.done) c.effort c.near) s
      if bad then headDrop h f.ctx f.idx (setTHead h (fun x => { x with frames := rest, done := 0 }) s)
      else if x.done + 1 < f.planes.foldl (fun a p => a + p.length) 0 then setTHead h (fun x => { x with done := x.done + 1 }) s
      else writeFrameRec f (setTHead h (fun x => { x with frames := rest, done := 0 }) s)

/-- One line of the tile in front (R474): after the last it takes its blocks from the pool. Poisoned data leaves the component without a tile, as that of the
tile history does (R646). -/
def tbcTileLine (bad : Bool) (s : State) : State :=
  match s.tbc.tiles with
  | [] => s
  | t :: rest =>
    let s := tbcMeter (tbcWork t.cut.tw s.cfg.tileEffort 0) s
    if bad then tileStored t.no 0 (setTbc (fun b => { b with tiles := rest }) s)
    else if t.done + 1 < t.cut.th * t.cut.inputs.length then setTbc (fun b => { b with tiles := { t with done := t.done + 1 } :: rest }) s
    else
      let r := putTile t.storage t.queue t.home t.cut (bump (tbcBase + 0x44) 1 (setTbc (fun b => { b with tiles := rest }) s))
      tileStored t.no r.1 r.2

/-- One line of the history strip in front. -/
def tbcHistLine (bad : Bool) (s : State) : State :=
  if bad then abandonStrip s else
  let w := match s.cfg.geom with | some g => g.width | none => 0
  let e := match s.cfg.tbcHist with | some c => c.effort | none => 0
  let n := match s.cfg.tbcHist with | some c => (histPlanes c).length | none => 0
  let idx := (s.tbc.strips.findIdx? fun h => ! h.dead && decide (h.done < h.rows.length)).getD s.tbc.strips.length
  finishStrips (tbcMeter (tbcWork (w * n) e 0) (setTbc (fun t => { t with strips := listMod t.strips idx fun h => { h with done := h.done + 1 } }) s))

def tbcJobLine (bad : Bool) (s : State) : State :=
  match jobReady s with
  | none => s
  | some j => if bad then failJob j 4 0 0 s else jobLine j s

/-- The engine takes the highest ready source (R453). -/
def tbcPick (s : State) : State := setTbc (fun t => { t with busy := tbcReady s }) s

/-- The engine completes a line; `bad` says that its source or destination failed (R481, R646). -/
def tbcLineDone (bad : Bool) (s : State) : State :=
  let s := match s.tbc.busy with
    | 1 => tbcHeadLine bad s
    | 2 => tbcTileLine bad s
    | 3 => tbcHistLine bad s
    | 4 => tbcJobLine bad s
    | _ => s
  tbcPick s

/-- The host releases room of a head's ring (R473). -/
def tbcHostHead (link h value : Nat) (s : State) : State :=
  let c := tbcHeadCfg s h
  let x := thead s h
  let size := if c.mirror = 1 then c.bytes / 64 else 0
  let n := (value + size - x.head) % max 1 size
  if c.link ≠ link ∨ size ≤ value ∨ x.used < n then tbcNotify 2 0 1 h (rset (tbcBase + 4) 2 s)
  else setTHead h (fun x => { x with head := value, used := x.used - n }) s

/-- A Block reset of TBC: the job, the strip and the frame in progress end (R486). -/
def tbcReset (s : State) : State :=
  let busy := s.tbc.busy
  let s := match s.tbc.jobs with
    | j :: _ => if busy = 4 ∨ j.src.isSome then failJob j 5 0 0 s else s
    | [] => s
  let s := if busy = 3 ∨ s.tbc.strips.any fun h => ! h.dead && decide (0 < h.done) then abandonStrip s else s
  let front := (s.tbc.heads.find? fun e => ! e.2.frames.isEmpty).map fun e => e.1
  let s := setTbc (fun t => { t with heads := t.heads.map fun e =>
    if 0 < e.2.done ∨ (busy = 1 ∧ front = some e.1) then (e.1, { e.2 with frames := e.2.frames.drop 1, done := 0 }) else e }) s
  setTbc (fun t => { t with busy := 0, load := {}, tiles := t.tiles.map fun x => { x with done := 0 }, heads := t.heads.map fun e => (e.1, { e.2 with head := 0, tail := 0, used := 0 }) }) (rclear tbcBase (tbcBase + 0x100) (rclear (tbcBase + 0x1000) (tbcBase + 0x5000) s))

/-! ## Registers and commands of family 0x0C (R486, R487) -/

def tbcStat (s : State) : Nat := boolNat (s.tbc.busy != 0) + s.tbc.busy * 2 + min 256 s.tbc.jobs.length * 256

def tbcTileCoding (p : PTbcTileCoding) : Cmd := mkTbcTileCoding p fun _ p s => .ok (setCfgV (fun c => { c with tileEffort := p.effort }) s) []

def tbcHeadOutput (p : PTbcHeadOutput) : Cmd := mkTbcHeadOutput p fun _ p s =>
  .ok (setTHead p.head (fun x => { x with head := 0, tail := 0, used := 0 }) (setCfgV (fun c => { c with tbcHeads := tabPut c.tbcHeads p.head p }) s)) []

def tbcHistory (p : PTbcHistory) : Cmd := mkTbcHistory p fun _ p s => .ok (setCfgV (fun c => { c with tbcHist := some p }) s) []

def tbcPoolConfig (p : PTbcPoolConfig) : Cmd := mkTbcPoolConfig p fun _ p s =>
  .ok (setTbc (fun t => { t with buf := t.buf.filter fun e => decide (e.1 < p.mib * 1048576) }) (setCfgV (fun c => { c with tbcPool := p.mib }) s)) []

def tbcJobSubmit (p : PTbcJobSubmit) : Cmd := mkTbcJobSubmit p fun tk p s =>
  if ! jobOk s p.desc then .no eParam []
  else if 256 ≤ s.tbc.jobs.length then .no eQueueFull []
  else
    let id := s.tbc.jobNext
    let s := setTbc (fun t => { t with jobs := t.jobs ++ [{ id := id, desc := p.desc, session := tk.session, tag := tk.tag }], jobNext := id % (2 ^ 32 - 1) + 1 }) s
    .ok (if s.tbc.busy = 0 then tbcPick s else s) [u32 id]

/-- A completion's fields (R484). -/
def donePs (d : JobDone) : List RV := [u32 d.id, u32 d.tag, u8 d.result, u64 d.bytes, u32 d.lines, u32 d.failLine, u64 d.failOff]

def tbcJobStatus (p : PTbcJobStatus) : Cmd := mkTbcJobStatus p fun _ p s =>
  match s.tbc.jobs.findIdx? (fun j => j.id == p.job), s.tbc.dones.find? fun d => d.id == p.job with
  | some i, _ =>
    let waits := (s.tbc.jobs.take (i + 1)).any fun j => jobWait j.desc && ! j.released
    let st := if waits then 1 else if i = 0 ∧ s.tbc.busy = 4 then 2 else 0
    let j := (s.tbc.jobs[i]?).map fun j => (leAt j.desc 28 4, j.lines)
    .ok s (u8 st :: donePs ⟨p.job, (j.getD (0, 0)).1, 0, 0, (j.getD (0, 0)).2, 0, 0⟩)
  | none, some d => .ok s (u8 3 :: donePs d)
  | none, none => .no eParam []

def tbcJobCancel (p : PTbcJobCancel) : Cmd := mkTbcJobCancel p fun _ p s =>
  match s.tbc.jobs.findIdx? (fun j => j.id == p.job) with
  | none => if s.tbc.dones.any fun d => d.id == p.job then .ok s [] else .no eParam []
  | some i =>
    match s.tbc.jobs[i]? with
    | none => .no eParam []
    | some j =>
      if i = 0 ∧ (s.tbc.busy = 4 ∨ j.src.isSome) then
        .ok (setTbc (fun t => { t with jobs := t.jobs.map fun x => if x.id = j.id then { x with cancel := true } else x }) s) []
      else .ok (failJob j 5 0 0 s) []

def tbcRead (p : PTbcRead) : Cmd := mkTbcRead p fun _ p s =>
  let r := if p.source = 4 then ringRead (s.tbc.hist.map fun r => (r.seq, r.bytes)) s.tbc.histNext p.seq p.offset p.length
    else let x := thead s p.source; ringRead x.recs x.next p.seq p.offset p.length
  match r with
  | some bs => .ok s [.block bs]
  | none => .no eStale []

/-- The newest history record below a bound that holds the web line at an MD (R479). -/
def tbcHistoryFind (p : PTbcHistoryFind) : Cmd := mkTbcHistoryFind p fun _ p s =>
  let holds : HRec → Bool := fun r => let n := roundDivUp p.md (max 1 r.pitch); decide (r.n ≤ n ∧ n < r.n + r.lines)
  match s.tbc.hist.find? fun r => holds r && decide (p.bound = 0 ∨ r.seq < p.bound) with
  | some r => .ok s [u64 r.seq]
  | none => .ok s [u64 0]

def tbcStatus : Cmd := mkTbcStatus fun _ s =>
  .ok s ([u32 (tbcStat s), u32 (meterReg (meterAt (s.now / secPs) (50000000 * 2059200) s.tbc.load))] ++
    ([0, 1, 2, 3].map fun h => u64 ((thead s h).next - 1)) ++ [u64 (s.tbc.histNext - 1)] ++
    [0x40, 0x44, 0x48, 0x4C, 0x50, 0x54].map fun o => u32 (rget (tbcBase + o) s))

def tbcCntClear (s : State) : State :=
  let s := [0x40, 0x44, 0x48, 0x4C, 0x50, 0x54].foldl (fun s o => rput (tbcBase + o) 0 s) s
  setTbc (fun t => let m := meterAt (s.now / secPs) (50000000 * 2059200) t.load; { t with load := { m with peak := m.last } }) s

def tbcCountersClear : Cmd := mkTbcCountersClear fun _ s => .ok (tbcCntClear s) []

/-! ## The estimator (R454) and the check of R471 -/

/-- Samples per pixel of a format, times 2. -/
def samples2 (fmt : Nat) : Nat := match fmt with | 0 => 2 | 1 | 2 => 6 | 3 => 4 | _ => 3

/-- F in mHz of a colour context. -/
def ctxF (s : State) (k : Nat) : Nat :=
  let live := match tabGet s.cfg.live k with | some l => if l.enable = 1 then l.f else 0 | none => 0
  match tabGet s.cfg.area k with
  | some a => if a.enable = 1 then a.f else live
  | none => live

/-- The largest record of a Tombac head (R469, R471). -/
def largestRecord (s : State) (h : Nat) (c : PHeadConfig) : Nat :=
  let w := nth c.out 0
  let ht := nth c.out 1
  let f : HFrame := ⟨h, c.ctx, 0, 0, 0, 0, false, c.fmt, c.n, false, w, ht, []⟩
  ceilDiv ((planeSizes c.fmt w ht).foldl (fun a e => a + 4 + ceilDiv (tbcBound e.1 e.2 1 (headDepth s f).1) 4 * 4) 64) 64 * 64

def tbcCommitFault (s : State) : Option (List RV) :=
  (s.cfg.heads2.find? fun e => e.2.dest == 2 && decide ((tbcHeadCfg s e.1).mib * 1048576 < 2 * largestRecord s e.1 e.2)).map fun e => [u8 e.1]

end Sys2Proof.Machine
end

