-- ==== Sys2Proof/Machine/Colour.lean ====
section
/-! DEFINITION. Sys2Proof/Machine/Colour.lean: area capture and the colour pipeline (chapter 10): contexts, frames, live view, output
heads and their destinations, and the commands of family 0x0A. -/

namespace Sys2Proof.Machine

def setClp (f : Clp → Clp) (s : State) : State := { s with clp := f s.clp }

def cctx (s : State) (k : Nat) : ClpCtx := (tabGet s.clp.ctxs k).getD {}

def setCctx (k : Nat) (f : ClpCtx → ClpCtx) (s : State) : State := setClp (fun c => { c with ctxs := tabPut c.ctxs k (f ((tabGet c.ctxs k).getD {})) }) s

def chead (s : State) (h : Nat) : CHead := (tabGet s.clp.heads h).getD {}

def setCHead (h : Nat) (f : CHead → CHead) (s : State) : State := setClp (fun c => { c with heads := tabPut c.heads h (f ((tabGet c.heads h).getD {})) }) s

def areaOf (s : State) (k : Nat) : Option PAreaStream := match tabGet s.cfg.area k with | some a => if a.enable = 1 then some a else none | none => none

def liveOf (s : State) (k : Nat) : Option PLiveView := match tabGet s.cfg.live k with | some l => if l.enable = 1 then some l else none | none => none

/-- The context that binds a stream (R390). -/
def ctxOfStream (s : State) (st : Nat) : Option (Nat × PAreaStream) := s.cfg.area.find? fun e => e.2.enable == 1 && e.2.stream == st

def clpReg (k o : Nat) : Nat := clpBase + 0x100 + k * 0x20 + o

def clpNotify (k kind : Nat) (idx : Nat) (s : State) : State := notifyLimited 0x0AF0 kind k 1 (fun c => [u8 k, u8 kind, u8 0xFF, u64 idx, u32 c]) s

def setCfgC (f : Cfg → Cfg) (s : State) : State := { s with cfg := f s.cfg }

/-! ## Banks (R416, R417) -/

/-- Where a context's bank switches are kept: with its stream's, or beyond the streams for the live view (log 50). -/
def bankKey (s : State) (k : Nat) : Nat := match areaOf s k with | some a => a.stream | none => 128 + k

def colBank (s : State) (k b : Nat) : ColBank := (tabGet s.clp.banks (k * 2 + b)).getD {}

/-- A bank is active or named by a pending switch (R416, R417). -/
def bankBusy (s : State) (k b : Nat) : Bool :=
  let key := bankKey s k
  armedBank s key b || bankOf s key == b || (s.fep.pend.any fun p => p.stream == key && p.bank == b) || tabGet s.fep.sel key == some b

/-- A LUT slot is named by an active bank or by a pending switch (R416). -/
def lutBusy (s : State) (slot : Nat) : Bool :=
  (List.range 16).any fun k => ((areaOf s k).isSome || (liveOf s k).isSome) && [0, 1].any fun b => bankBusy s k b && (colBank s k b).lut == slot

/-- The bank a frame with this index takes, once the switches due are made (R416, R417). -/
def takeBank (k idx : Nat) (s : State) : ColBank × State :=
  let key := bankKey s k
  let s := applyBanks key idx s
  (colBank s k (bankOf s key), s)

/-- The setting-latency entries armed for an area stream bind to the frame λ beyond the first one accepted (R183, R417). -/
def armFrames (stream idx : Nat) (s : State) : State :=
  let mine := s.fep.armed.filter fun e => e.key == 1000 + stream
  let s := setFep (fun f => { f with armed := f.armed.filter fun e => e.key != 1000 + stream }) s
  mine.foldl (fun s e => match tabGet s.cfg.setLat (stream / 8 * 16 + e.entry) with
    | some c => pendSwitch { stream := stream, line := (idx + c.lambda) % 2 ^ 48, bank := c.bank, seq := e.seq } s
    | none => s) s

/-! ## Frames (R391, R395 to R397) -/

/-- Whether a frame's first row has been processed: it is first in its order and has a row, or is whole (R397). -/
def begun (first : Bool) (f : AFrame) : Bool := first && (! f.rows.isEmpty || f.ended)

/-- A context's held frames in order, by place in their list. -/
def heldIn (k : Nat) (l : List AFrame) : List Nat :=
  ((l.mapIdx fun i f => (i, f)).filter fun e => e.2.ctx == k && ! begun (e.1 == 0) e.2).map fun e => e.1

/-- The primary's held frames: none while its rows go through the FIFO, which the pipeline follows (R396). -/
def heldPrim (s : State) (k : Nat) : List Nat := if s.clp.spill then heldIn k s.clp.prim else []

def heldFrames (s : State) (k : Nat) : Nat := (heldPrim s k).length + (heldIn k s.clp.buf).length

/-- The time of `n` pixels at 10 Gpixel/s, in ps (R393). -/
def pixelPs (n : Nat) : Nat := 100 * n

/-- A primary row of `w` pixels enters the FIFO, which the pipeline empties at its rate; beyond 64 rows it is full, and the rows go to
DRAM until the pipeline has drained them (R396). -/
def primaryRow (w : Nat) (s : State) : State :=
  setClp (fun c =>
    let drained := decide (c.fifoEnd ≤ s.now)
    let t := max s.now c.fifoEnd + pixelPs w
    { c with fifoEnd := t, spill := (c.spill && ! drained) || decide (64 * pixelPs w < t - s.now) }) s

/-- The spill is over once the pipeline has drained the primary's rows (R396). -/
def judgeSpill (s : State) : State := if s.clp.fifoEnd ≤ s.now then setClp (fun c => { c with spill := false }) s else s

def removeAt {α : Type} (i : Nat) (l : List α) : List α := l.take i ++ l.drop (i + 1)

/-- Drops a context's oldest held frame (R397). -/
def dropHeld (k : Nat) (s : State) : State :=
  let go : List Nat → List AFrame → Option (AFrame × List AFrame) := fun held l => match held with
    | i :: _ => (l[i]?).map fun f => (f, removeAt i l)
    | [] => none
  let note : AFrame → State → State := fun f s =>
    let s := s.cfg.heads2.foldl (fun s e => if e.2.ctx = k ∧ e.2.dest = 1 then setVctx e.2.destIdx (fun x => { x with gap := x.gap + 1 }) s else s) s
    clpNotify k 0 f.idx (publish 0x0700 (rset (clpBase + 4) 0 (bump (clpReg k 4) 1 s)))
  match go (heldPrim s k) s.clp.prim, go (heldIn k s.clp.buf) s.clp.buf with
  | some (f, l), _ => note f (setClp (fun c => { c with prim := l }) s)
  | none, some (f, l) => note f (setClp (fun c => { c with buf := l }) s)
  | none, none => s

/-- A frame is accepted: the backlog budget, and its place (R395, R397). -/
def pushFrame (role bk : Nat) (f : AFrame) (s : State) : State :=
  let s := judgeSpill s
  let s := if bk ≤ heldFrames s f.ctx then dropHeld f.ctx s else s
  setClp (fun c => if role = 0 then { c with prim := c.prim ++ [f] } else { c with buf := c.buf ++ [f] }) s

/-- Changes the open frame of a context. -/
def modOpen (k : Nat) (g : AFrame → AFrame) (s : State) : State :=
  let f : AFrame → AFrame := fun x => if x.ctx = k ∧ ! x.ended then g x else x
  setClp (fun c => { c with prim := c.prim.map f, buf := c.buf.map f }) s

def openFrame (s : State) (k : Nat) : Option AFrame := (s.clp.prim ++ s.clp.buf).find? fun x => x.ctx == k && ! x.ended

/-- The value of a row not received (R391). -/
def repairRow (f : AFrame) (y : Nat) : List Nat :=
  match (List.range y).reverse.find? fun z => z % 2 == y % 2 && (tabGet f.rows z).isSome with
  | some z => (tabGet f.rows z).getD []
  | none => List.replicate f.w 32768

/-- Ends the open frame of a context: rows not received are repaired (R391). -/
def endFrame (k : Nat) (s : State) : State :=
  match openFrame s k with
  | none => setCctx k (fun x => { x with opened := false }) s
  | some f =>
    let gone := (List.range f.h).filter fun y => (tabGet f.rows y).isNone
    let s := setCctx k (fun x => { x with opened := false }) s
    let s := if gone.isEmpty then s else
      clpNotify k 1 f.idx (rset (clpBase + 4) 1 (bump (clpReg k 8) gone.length s))
    modOpen k (fun f => { f with ended := true, repaired := ! gone.isEmpty, rows := gone.foldl (fun t y => tabPut t y (repairRow f y)) f.rows }) s

/-- A frame's time (R392): the exposure of its trigger, or the present TMU time of a free-running stream. -/
def frameTime (s : State) (trig idx : Nat) : Nat × Nat :=
  if trig = 255 then (tmuSec s, tmuSub s)
  else match s.clp.expos.find? fun e => e.1 == trig && toUnsigned 48 e.2.1 == idx with
    | some e => e.2.2
    | none => match s.clp.expos.find? fun e => e.1 == trig with
      | some e => e.2.2
      | none => (tmuSec s, tmuSub s)

/-- FRAME_START of an area stream (R391, R417). -/
def frameStart (stream idx w h expo : Nat) (s : State) : State :=
  match ctxOfStream s stream with
  | none => s
  | some (k, a) =>
    let s := endFrame k s
    if w ≠ a.w ∨ h ≠ a.h then
      clpNotify k 4 idx (rset (clpBase + 4) 3 (bump (clpReg k 0x0C) 1 (setCctx k (fun x => { x with bad := true, opened := false }) s)))
    else
      let s := armFrames stream idx s
      let b := takeBank k idx s
      let s := setFep (fun f => { f with seen := tabPut f.seen stream idx }) b.2
      let trig := match tabGet s.cfg.streams stream with | some c => c.trig | none => 255
      let t := frameTime s trig idx
      let lut := (tabGet s.clp.luts b.1.lut).getD []
      let f : AFrame := { ctx := k, idx := idx, sec := t.1, ns := t.2, expo := expo, w := w, h := h, live := false, cfa := a.cfa, bank := b.1, lut := lut, curves := s.cfg.curves }
      pushFrame a.role a.bk f (setCctx k (fun x => { x with bad := false, opened := true }) s)

/-- A row of an area stream: its index and pixels (R391). ORPHAN gives the index of the stream's newest FRAME_START (R421; log 247). -/
def areaRow (stream y : Nat) (px : List Nat) (s : State) : State :=
  match ctxOfStream s stream with
  | none => s
  | some (k, a) =>
    let discard := bump (clpReg k 0x0C) 1 s
    if (cctx s k).bad then rset (clpBase + 4) 3 discard
    else if ! (cctx s k).opened ∨ a.h ≤ y then clpNotify k 3 ((tabGet (port s (stream / 8)).frames (stream % 8)).getD 0) (rset (clpBase + 4) 2 discard)
    else modOpen k (fun f => { f with rows := tabPut f.rows y px }) (if a.role = 0 then primaryRow a.w s else s)

def frameEnd (stream : Nat) (s : State) : State :=
  match ctxOfStream s stream with
  | none => s
  | some (k, _) => if (cctx s k).bad then setCctx k (fun x => { x with bad := false }) s else endFrame k s

/-! ## Live view (R418, R419) -/

/-- The web columns of view column u. -/
def viewCols (w dc u : Nat) : Nat × Nat := (min (u * dc) (w - 1), min (min (u * dc) (w - 1) + dc) w)

/-- Planes of a live view, in the order R, G, B; one plane for MONO. -/
def viewPlanes (l : PLiveView) : List Nat := let ps := l.planes; if nth ps 1 = 255 ∨ nth ps 2 = 255 then [nth ps 0] else ps.take 3

/-- One web line enters the live view of a context (R418). -/
def viewLine (l : WebLine) (s : State) (e : Nat × PLiveView) : State :=
  match s.cfg.geom with
  | none => s
  | some g =>
    if e.2.enable = 0 then s else
    let k := e.1
    let w := (viewWidth s e.2.dc).toNat
    let real := ceilDiv g.width e.2.dc
    let row : Nat → List Nat := fun p =>
      let px := l.planes.getD p []
      (List.range w).map fun u => let c := viewCols g.width e.2.dc (min u (real - 1)); ((px.drop c.1).take (c.2 - c.1)).foldl (· + ·) 0
    let new := (viewPlanes e.2).map row
    let x := cctx s k
    let sums := if x.lines = 0 then new else List.zipWith (fun a b => List.zipWith (· + ·) a b) x.sums new
    if x.lines + 1 < e.2.dm then setCctx k (fun x => { x with sums := sums, lines := x.lines + 1 }) s
    else
      let cnt : Nat → Nat := fun u => let c := viewCols g.width e.2.dc (min u (real - 1)); (c.2 - c.1) * e.2.dm
      let line := sums.map fun r => r.mapIdx fun u v => (v + cnt u / 2) / max 1 (cnt u)
      setCctx k (fun x => { x with sums := [], lines := 0, ring := ((l.sec, l.ns, line) :: x.ring).take e.2.hv }) s

def viewLines (s : State) (l : WebLine) : State := s.cfg.live.foldl (viewLine l) s

/-- A frame of the live view begins, 1/F or more after the one before, of the latest lines (R419); lines not yet there are free values (log 3). -/
def liveViewFrame (k : Nat) (s : State) : State :=
  match liveOf s k with
  | none => s
  | some l =>
    let x := cctx s k
    let now := tmuNs s
    let early : Bool := match x.viewAt with | some t => decide (t ≤ now ∧ now < t + 1000000000000 / max 1 l.f) | none => false
    if ! runningState s.dev.state ∨ early then s else
    let w := (viewWidth s l.dc).toNat
    let b := takeBank k x.nextIdx s
    let s := b.2
    let n := (viewPlanes l).length
    let fill := takeBytes (2 * w * l.hv * n) s
    let s := if x.ring.length < l.hv then fill.2 else s
    let lineAt : Nat → Nat → List Nat := fun i p => match x.ring[i]? with
      | some r => r.2.2.getD p []
      | none => (List.range w).map fun u => leAt fill.1 (2 * ((p * l.hv + i) * w + u)) 2
    let rowOf : Nat → Nat := fun y => if l.orient = 0 then l.hv - 1 - y else y
    let rows := (List.range n).flatMap fun p => (List.range l.hv).map fun y => (p * l.hv + y, lineAt (rowOf y) p)
    let t := match x.ring with | r :: _ => (r.1, r.2.1) | [] => (tmuSec s, tmuSub s)
    let lut := (tabGet s.clp.luts b.1.lut).getD []
    let f : AFrame := { ctx := k, idx := x.nextIdx, sec := t.1, ns := t.2, expo := 0, w := w, h := l.hv, live := true, cfa := 0, bank := b.1, lut := lut, curves := s.cfg.curves, rows := rows, ended := true }
    pushFrame l.role l.bk f (setCctx k (fun x => { x with viewAt := some now, nextIdx := (x.nextIdx + 1) % 2 ^ 48 }) s)

/-! ## The taps and heads (R399 to R410) -/

def framePlane (f : AFrame) (p : Nat) : Plane := (List.range f.h).map fun y => (tabGet f.rows (p * f.h + y)).getD []

/-- The RAW and RAW_CORRECTED taps. -/
def rawTap (f : AFrame) (corrected : Bool) : Plane :=
  let p := framePlane f 0
  if ! corrected ∨ f.live then p
  else fixDefects f.w f.h (f.cfa == 0) ((List.range f.bank.len).filterMap fun i => tabGet f.bank.defs i) (blackLevel f.w f.h f.bank.bl p)

/-- The COLOUR tap (R399 to R403). -/
def colourTap (f : AFrame) : List Plane :=
  let c := rawTap f true
  let rgb := if f.live then (if (tabGet f.rows (2 * f.h)).isSome then [framePlane f 0, framePlane f 1, framePlane f 2] else [c, c, c])
    else if f.cfa = 0 then [c, c, c] else demosaic f.cfa f.w f.h c
  mapPlanes f.w f.h (colourPixel f.bank f.lut) rgb

/-- A head's rendition of a frame (R404 to R409). -/
def headFrame (s : State) (h : Nat) (c : PHeadConfig) (f : AFrame) : HFrame :=
  let crop : Plane → Plane := cropPlane (nth c.crop 0) (nth c.crop 1) (nth c.crop 2) (nth c.crop 3)
  let wo := nth c.out 0
  let ho := nth c.out 1
  let planes :=
    if c.tap ≠ 2 then [crop (rawTap f (c.tap == 1))]
    else
      let scaled := (colourTap f).map fun p => scalePlane (tabGet s.cfg.kernels (h * 2)) (tabGet s.cfg.kernels (h * 2 + 1)) (nth c.crop 2) (nth c.crop 3) wo ho (crop p)
      let curved := scaled.mapIdx fun ch p => let cv := tabGet f.curves (h * 4 + ch); p.map fun r => r.map (curveValue cv)
      formatPlanes c.fmt c.n (c.range == 1) (c.enc != 0) curved
  ⟨h, f.ctx, f.idx, f.sec, f.ns, f.expo, f.repaired, c.fmt, c.n, c.range == 1, wo, ho, planes⟩

/-- A head's frame in memory. -/
def headBytes (f : HFrame) : List Nat := planeBytes (if f.fmt = 0 then 16 else f.n) f.planes

/-! ## Destinations (R410 to R415) -/

/-- A frame to the next slot of a host ring (R414, R415; log 246). -/
def ringPut (h : Nat) (f : HFrame) (s : State) : State :=
  match tabGet s.cfg.rings h with
  | none => s
  | some r =>
    let x := chead s h
    let pay := headBytes f
    let head := leBytes 8 (f.idx % 2 ^ 48 : Nat) ++ leBytes 8 (f.sec % 2 ^ 48 : Nat) ++ leBytes 4 f.ns ++ leBytes 4 f.expo ++ leBytes 2 f.w ++ leBytes 2 f.h ++
      [f.fmt, f.n, f.ctx, boolNat f.repaired + boolNat f.full * 2] ++ leBytes 4 pay.length ++ leBytes 4 (indexGap x.lastIdx f.idx) ++ List.replicate 16 0
    let a := r.addr + x.tail % r.slots * r.bytes
    let s := serviceWr r.link (a + 60) [0, 0, 0, 0] s
    let s := serviceWr r.link (a + 64) pay (serviceWr r.link a (head ++ leBytes 4 (crc32c (head ++ pay))) s)
    let s := emit (.msix r.link 66) (serviceWr r.link (a + 60) [1, 0, 0, 0] s)
    setCHead h (fun x => { x with tail := (x.tail + 1) % r.slots, used := x.used + 1, lastIdx := some f.idx }) s

/-- A frame to an ST 2110-20 sender. -/
def senderPut (i : Nat) (f : HFrame) (s : State) : State :=
  setClp (fun c => { c with senders := tabPut c.senders i { (tabGet c.senders i).getD {} with frame := some f, at_ := 0 } }) s

/-- A head's frame before its rows are there: its shape. -/
def headShape (h : Nat) (c : PHeadConfig) (f : AFrame) : HFrame :=
  ⟨h, f.ctx, f.idx, f.sec, f.ns, f.expo, false, c.fmt, c.n, c.range == 1, nth c.out 0, nth c.out 1,
    (planeSizes c.fmt (nth c.out 0) (nth c.out 1)).map fun z => List.replicate z.2 (List.replicate z.1 0)⟩

/-- Whether a head's destination can accept a frame at its first row (R411, R415, R431, R473). -/
def destRoom (s : State) (f : AFrame) (h : Nat) (c : PHeadConfig) : Bool :=
  match c.dest with
  | 1 => vcuRoom s c.destIdx && ! wrapClosed 34 s
  | 2 => tbcRoom s (headShape h c f) && ! wrapClosed 35 s
  | 3 => match tabGet s.cfg.rings h with | some r => decide ((chead s h).used < r.slots) | none => false
  | _ => (tabGet s.cfg.senders c.destIdx).isSome && ((tabGet s.clp.senders c.destIdx).getD {}).frame.isNone && dueAt s 4 c.destIdx == 0

/-- Changes the frame in front of the primary's order, or of the buffered one. -/
def modFront (prim : Bool) (g : AFrame → AFrame) (s : State) : State :=
  let go : List AFrame → List AFrame := fun l => match l with | f :: r => g f :: r | [] => []
  setClp (fun c => if prim then { c with prim := go c.prim } else { c with buf := go c.buf }) s

/-- A head's destination is judged at the first row of a frame: it takes the frame, or the head drops it (R411). -/
def judgeHead (prim : Bool) (f : AFrame) (s : State) (e : Nat × PHeadConfig) : State :=
  if e.2.ctx ≠ f.ctx ∨ e.2.dest = 0 then s
  else if destRoom s f e.1 e.2 then modFront prim (fun f => { f with taken := f.taken ++ [e.1] }) s
  else
    let s := if e.2.dest = 1 then setVctx e.2.destIdx (fun x => { x with gap := x.gap + 1 }) s else s
    headDrop e.1 f.ctx f.idx s

/-- The first row of the frame in front of an order is processed (R397, R411). -/
def startFront (prim : Bool) (s : State) : State :=
  match if prim then s.clp.prim else s.clp.buf with
  | f :: _ => if f.started ∨ ! begun true f then s else s.cfg.heads2.foldl (judgeHead prim f) (modFront prim (fun f => { f with started := true, startAt := tmuNs s }) s)
  | [] => s

/-- The first rows that can be processed are (R395). -/
def startFrames (s : State) : State := startFront false (startFront true s)

/-- A frame that a head's destination has accepted reaches it whole (R410, R411). -/
def deliver (f : AFrame) (s : State) (e : Nat × PHeadConfig) : State :=
  if ! f.taken.contains e.1 then s else
  let hf := headFrame s e.1 e.2 f
  match e.2.dest with
  | 1 => vcuPush e.2.destIdx ⟨hf.idx, hf.sec, hf.ns, f.startAt, some (hf.planes.headD [])⟩ s
  | 2 => tbcPush hf s
  | 3 => ringPut e.1 hf s
  | _ => senderPut e.2.destIdx hf s

/-- A frame that came poisoned is missing from the codec context that had accepted it (R431, R646). -/
def undelivered (f : AFrame) (s : State) (e : Nat × PHeadConfig) : State :=
  if f.taken.contains e.1 ∧ e.2.dest = 1 then setVctx e.2.destIdx (fun x => { x with gap := x.gap + 1 }) s else s

/-- The pipeline completes the frame in front of its context's order; `poison` says that its buffered rows came poisoned. -/
def clpFrameDone (k : Nat) (poison : Bool) (s : State) : State :=
  let take : List AFrame → Option AFrame := fun l => match l with
    | f :: _ => if f.ctx = k ∧ f.ended then some f else none
    | [] => none
  let finish : AFrame → State → State := fun f s =>
    let s := setClp (fun c => { c with load := meterAdd (s.now / secPs) 10000000000 (f.w * f.h) c.load }) s
    if poison then clpNotify k 0 f.idx (publish 0x0700 (rset (clpBase + 4) 0 (bump (clpReg k 4) 1 (s.cfg.heads2.foldl (undelivered f) s))))
    else s.cfg.heads2.foldl (deliver f) (bump (clpReg k 0) 1 s)
  match take s.clp.prim, take s.clp.buf with
  | some f, _ => finish f (setClp (fun c => { c with prim := c.prim.drop 1 }) s)
  | none, some f => finish f (setClp (fun c => { c with buf := c.buf.drop 1 }) s)
  | none, none => s

/-- The host releases slots of a head's ring (R415). -/
def clpHostHead (h value : Nat) (s : State) : State :=
  match tabGet s.cfg.rings h with
  | none => rset (clpBase + 4) 5 s
  | some r =>
    let x := chead s h
    let n := (value + r.slots - x.head % r.slots) % r.slots
    if r.slots ≤ value ∨ x.used < n then rset (clpBase + 4) 5 s
    else setCHead h (fun x => { x with head := value, used := x.used - n }) s

/-! ## ST 2110-20 (R412): RTP as IETF RFC 4175 and ST 2110-20 lay it out (log 41) -/

/-- Pixels and bytes of a pgroup; a row's last pgroup may be filled in part. -/
def pgroup (fmt n : Nat) : Nat × Nat :=
  if fmt = 3 then (2, if n = 10 then 5 else 6) else if n = 10 then (4, 15) else (2, 9)

/-- One pgroup's bytes: samples packed most significant bit first. -/
def pgroupBytes (f : HFrame) (row g : Nat) : List Nat :=
  let pad := (Config.padSample).toNat % 2 ^ f.n
  let at_ : Nat → Nat → Nat := fun p x => ((f.planes.getD p []).getD row []).getD x pad
  let px := (pgroup f.fmt f.n).1
  let samples := if f.fmt = 3 then [at_ 1 g, at_ 0 (2 * g), at_ 2 g, at_ 0 (2 * g + 1)]
    else (List.range px).flatMap fun i => [at_ 0 (g * px + i), at_ 1 (g * px + i), at_ 2 (g * px + i)]
  packBits (pgroup f.fmt f.n).2 (samples.flatMap (bitsOf f.n))

/-- One packet: `n` pgroups from pgroup `p` of the frame, over one row or two. -/
def rtpPacket (c : PSt2110Config) (f : HFrame) (seq p n : Nat) : List Nat :=
  let per := ceilDiv f.w (pgroup f.fmt f.n).1
  let total := per * f.h
  let n := min n (total - p)
  let first := min n (per - p % per)
  let segs := (p, first) :: (if first < n then [(p + first, min per (n - first))] else [])
  let stamp := (f.sec * 90000 + f.ns * 90000 / 1000000000) % 2 ^ 32
  let mark := total ≤ p + n
  let head := [0x80, c.ptype + (if mark then 128 else 0)] ++ beBytes 2 (seq % 65536) ++ beBytes 4 stamp ++ beBytes 4 c.ssrc ++ beBytes 2 (seq / 65536)
  let more : Nat → Nat := fun i => if i + 1 < segs.length then 32768 else 0
  let hdrs := (segs.mapIdx fun i e => beBytes 2 (e.2 * (pgroup f.fmt f.n).2) ++ beBytes 2 (e.1 / per) ++ beBytes 2 (e.1 % per * (pgroup f.fmt f.n).1 + more i)).flatten
  head ++ hdrs ++ (segs.flatMap fun e => (List.range e.2).flatMap fun i => pgroupBytes f ((e.1 + i) / per) ((e.1 + i) % per))

/-- A paced packet of a sender is sent; how many pgroups it carries is a free value (log 41). -/
def st2110PacketDue (i : Nat) (s : State) : State :=
  let x := (tabGet s.clp.senders i).getD {}
  match tabGet s.cfg.senders i, x.frame with
  | some c, some f =>
    let per := ceilDiv f.w (pgroup f.fmt f.n).1
    let r := takeNat s
    let s := r.2
    let n := 1 + r.1 % max 1 per
    let v6 := c.ipVer == 6
    let s := emit (.frame c.iface 1 (udpFrame s c.iface v6 c.ttl (if v6 then c.dst.take 16 else c.dst.take 4) c.sport c.dport 1 (rtpPacket c f x.seq x.at_ n))) s
    let done := decide (per * f.h ≤ x.at_ + n)
    setClp (fun cl => { cl with senders := tabPut cl.senders i { frame := if done then none else some f, at_ := if done then 0 else x.at_ + n, seq := (x.seq + 1) % 2 ^ 32 } }) s
  | _, _ => s

/-- The rate of ETH[i] in Mbit/s. -/
def ethMbps (i : Nat) : Nat := match Config.ethRate i with | 0 => 25000 | 1 => 50000 | _ => 100000

/-! ## Checks of CONFIG_COMMIT (R390, R395, R404, R410, R412, R414) -/

/-- The frame size of a context. -/
def ctxSize (s : State) (k : Nat) : Option (Nat × Nat) :=
  match areaOf s k, liveOf s k with
  | some a, _ => some (a.w, a.h)
  | none, some l => some ((viewWidth s l.dc).toNat, l.hv)
  | none, none => none

def ctxBad (s : State) (k : Nat) : Bool :=
  match areaOf s k, liveOf s k with
  | some a, none =>
    let onArea := match tabGet s.cfg.ports (a.stream / 8) with | some p => p.kind == 1 | none => false
    let width := match tabGet s.cfg.streams a.stream with | some c => c.width == a.w | none => false
    ! onArea || ! width || ((List.range k).any fun j => match areaOf s j with | some b => b.stream == a.stream | none => false)
  | some _, some _ => true
  | none, some l =>
    (match s.cfg.geom with | some g => l.planes.any fun p => p != 255 && decide (g.planes ≤ p) | none => true) || decide (8192 < viewWidth s l.dc) || nth l.planes 0 == 255
  | none, none => false

/-- A second primary context (R395). -/
def secondPrimary (s : State) : Option Nat :=
  let role : Nat → Bool := fun k => match areaOf s k, liveOf s k with
    | some a, _ => a.role == 0
    | none, some l => l.role == 0
    | none, none => false
  ((List.range 16).filter role)[1]?

/-- Whether a head's format is not one its destination takes, or its crop leaves the frame (R404, R410, log 124). -/
def headBad (s : State) (h : Nat) (c : PHeadConfig) : Bool :=
  let fits := match ctxSize s c.ctx with
    | some z => decide (nth c.crop 0 + nth c.crop 2 ≤ z.1 ∧ nth c.crop 1 + nth c.crop 3 ≤ z.2)
    | none => true
  let dest := match c.dest with
    | 1 => decide (c.destIdx < 64) && ((c.fmt == 4 && (c.n == 8 || c.n == 10)) || (c.fmt == 3 && c.n == 10))
    | 3 => (tabGet s.cfg.rings h).isSome
    | 4 => decide (c.destIdx < 2) && (c.fmt == 3 || c.fmt == 1) && (c.n == 10 || c.n == 12) && (tabGet s.cfg.senders c.destIdx).isSome
    | _ => true
  ! fits || ! dest || (c.tap != 2) != (c.fmt == 0)

/-- Bytes of a head's frame. -/
def headLen (c : PHeadConfig) : Nat :=
  let px := nth c.out 0 * nth c.out 1
  px * samples2 c.fmt / 2 * (if c.fmt = 0 ∨ c.n ≠ 8 then 2 else 1)

/-- A sender whose payload rate × 1.05 passes 90 % of its interface: the required and available rates, Mbit/s (R412, log 41). -/
def senderFault (s : State) : Option (Nat × Nat) :=
  s.cfg.heads2.findSome? fun e =>
    if e.2.dest ≠ 4 then none else
    match tabGet s.cfg.senders e.2.destIdx with
    | none => none
    | some c =>
      let g := pgroup e.2.fmt e.2.n
      let bits := ceilDiv (nth e.2.out 0) g.1 * g.2 * 8 * nth e.2.out 1 * ctxF s e.2.ctx
      let avail := ethMbps c.iface * 9 / 10
      if avail * 100000000000 < bits * 105 then some (ceilDiv (bits * 105) 100000000000, avail) else none

def clpCommitFault (s : State) : Option (Nat × List RV) :=
  match (List.range 16).find? (ctxBad s) with
  | some k => some (eParam, [u8 k])
  | none => match secondPrimary s with
    | some k => some (eParam, [u8 k])
    | none => match s.cfg.heads2.find? fun e => headBad s e.1 e.2 with
      | some e => some (eParam, [u8 e.1])
      | none => match s.cfg.heads2.find? fun e => e.2.dest == 3 && (match tabGet s.cfg.rings e.1 with | some r => decide (r.bytes < 64 + headLen e.2) | none => false) with
        | some _ => some (eParam, [])
        | none => (senderFault s).map fun r => (eParam, [u32 r.1, u32 r.2])

/-! ## Registers (R420) -/

def clpStat (s : State) : Nat :=
  let prim := (List.range 16).find? fun k => match areaOf s k, liveOf s k with
    | some a, _ => a.role == 0
    | none, some l => l.role == 0
    | none, none => false
  let act := (List.range 16).foldl (fun m k => if (areaOf s k).isSome ∨ (liveOf s k).isSome then m + 2 ^ k else m) 0
  (match prim with | some k => k + 16 | none => 0) + act * 65536

def clpLoad (s : State) : Nat := meterReg (meterAt (s.now / secPs) 10000000000 s.clp.load)

def clpCntClear (s : State) : State :=
  let s := (List.range 16).foldl (fun s k => rput (clpReg k 0x0C) 0 (rput (clpReg k 8) 0 (rput (clpReg k 4) 0 (rput (clpReg k 0) 0 s)))) s
  let s := (List.range 4).foldl (fun s h => rput (clpBase + 0x408 + h * 0x10) 0 s) s
  setClp (fun c => let m := meterAt (s.now / secPs) 10000000000 c.load; { c with load := { m with peak := m.last } }) s

/-- A Block reset of CLP: frames in progress end and reach no destination (R420). -/
def clpReset (s : State) : State :=
  setClp (fun c => { c with prim := [], buf := [], fifoEnd := 0, spill := false, senders := c.senders.map (fun e => (e.1, { e.2 with frame := none, at_ := 0 })), load := {}
                            ctxs := c.ctxs.map (fun e => (e.1, { e.2 with opened := false, bad := false }))
                            heads := c.heads.map fun e => (e.1, { e.2 with head := 0, tail := 0, used := 0 }) }) (rclear clpBase (clpBase + 0x1000) s)

/-! ## Commands of family 0x0A (R421) -/

def areaStream (p : PAreaStream) : Cmd := mkAreaStream p fun _ p s =>
  .ok (setCctx p.ctx (fun _ => {}) (setCfgC (fun c => { c with area := tabPut c.area p.ctx p, live := if p.enable = 1 then tabDel c.live p.ctx else c.live }) s)) [u32 p.f]

def setColBank (k b : Nat) (f : ColBank → ColBank) (s : State) : State :=
  setClp (fun c => { c with banks := tabPut c.banks (k * 2 + b) (f ((tabGet c.banks (k * 2 + b)).getD {})) }) s

def busyBank (k b : Nat) (s : State) : Option (Nat × List RV) := if bankBusy s k b then some (eBusy, []) else none

def clpBlack (p : PClpBlack) : Cmd := mkClpBlack p
  (fun _ p s => .ok (setColBank p.ctx p.bank (fun b => { b with bl := p.bl }) s) []) (fun p s => busyBank p.ctx p.bank s)

def clpDefectLoad (p : PClpDefectLoad) : Cmd := mkClpDefectLoad p
  (fun _ p s => .ok (setColBank p.ctx p.bank (fun b => { b with len := p.len, defs := (List.range p.count).foldl (fun t i =>
    tabPut t (p.first + i) (nth p.data (2 * i + 1) * 65536 + nth p.data (2 * i))) (b.defs.filter fun e => decide (e.1 < p.len)) }) s) [])
  (fun p s => if p.len < p.first + p.count then some (eParam, []) else busyBank p.ctx p.bank s)

def clpColour (p : PClpColour) : Cmd := mkClpColour p
  (fun _ p s => .ok (setColBank p.ctx p.bank (fun b => { b with wb := p.wb, mat := p.mat, lut := p.lut }) s) []) (fun p s => busyBank p.ctx p.bank s)

def clpLutLoad (p : PClpLutLoad) : Cmd := mkClpLutLoad p
  (fun _ p s =>
    let t := (List.range p.count).foldl (fun t i => tabPut t (p.first + i) (nth p.data (3 * i) * 2 ^ 32 + nth p.data (3 * i + 1) * 65536 + nth p.data (3 * i + 2))) ((tabGet s.clp.luts p.slot).getD [])
    .ok (setClp (fun c => { c with luts := tabPut c.luts p.slot t }) s) [])
  (fun p s => if 274625 < p.first + p.count then some (eParam, []) else if lutBusy s p.slot then some (eBusy, []) else none)

/-- A selection takes effect at the next frame; outside the running states at once (R77, R416). -/
def clpBankSelect (p : PClpBankSelect) : Cmd := mkClpBankSelect p fun _ p s =>
  let key := bankKey s p.ctx
  .ok (if runningState s.dev.state then setFep (fun f => { f with sel := tabPut f.sel key p.bank }) s else setBank key p.bank s) []

def headConfig (p : PHeadConfig) : Cmd := mkHeadConfig p
  (fun _ p s => .ok (setCfgC (fun c => { c with heads2 := tabPut c.heads2 p.head p }) s) [u16 (nth p.out 0), u16 (nth p.out 1)])
  (fun p _ => if (p.tap != 2) != (p.fmt == 0) then some (eParam, []) else none)

/-- Each phase of a loaded table sums to 16,384 (R405). -/
def taps8Ok (t : List Int) : Bool := (List.range 64).all fun ph => ((t.drop (8 * ph)).take 8).foldl (· + ·) 0 == 16384

def headKernel (p : PHeadKernel) : Cmd := mkHeadKernel p
  (fun _ p s => .ok (setCfgC (fun c => { c with kernels := if p.source = 0 then tabDel c.kernels (p.head * 2 + p.axis) else tabPut c.kernels (p.head * 2 + p.axis) p.table }) s) [])
  (fun p _ => if p.source = 1 ∧ ! taps8Ok p.table then some (eParam, []) else none)

def headCurve (p : PHeadCurve) : Cmd := mkHeadCurve p fun _ p s =>
  let chs := if p.ch = 3 then [0, 1, 2] else [p.ch]
  .ok (setCfgC (fun c => { c with curves := chs.foldl (fun t ch => tabPut t (p.head * 4 + ch) ⟨p.preset, p.peak, p.table⟩) c.curves }) s) []

def st2110Config (p : PSt2110Config) : Cmd := mkSt2110Config p fun _ p s =>
  .ok (setClp (fun c => { c with senders := tabDel c.senders p.sender }) (setCfgC (fun c => { c with senders := tabPut c.senders p.sender p }) s)) []

/-- The session description's text is not given by the manual (log 42). -/
def st2110Sdp (p : PSt2110Sdp) : Cmd := mkSt2110Sdp p fun _ p s =>
  let key := match tabGet s.cfg.senders p.sender with
    | some c => [1, c.iface, c.ipVer] ++ c.dst ++ [c.dport, c.sport, c.ptype, c.ssrc, c.ttl]
    | none => [0]
  .ok s [.block ((((Config.sdpText p.sender key).map BitVec.toNat).drop p.offset).take p.length)]

/-- HOST_RING: HEAD and TAIL, which only a Block reset clears, stand, and count modulo the new ring's slots (R420; log 246). -/
def hostRing (p : PHostRing) : Cmd := mkHostRing p fun _ p s =>
  .ok (setCfgC (fun c => { c with rings := tabPut c.rings p.head p }) s) []

def liveView (p : PLiveView) : Cmd := mkLiveView p
  (fun _ p s => .ok (setCctx p.ctx (fun _ => {}) (setCfgC (fun c => { c with live := tabPut c.live p.ctx p, area := if p.enable = 1 then tabDel c.area p.ctx else c.area }) s))
    [u32 p.f, u16 (viewWidth s p.dc).toNat])
  (fun p s => if 8192 < viewWidth s p.dc then some (eParam, []) else none)

def clpStatus (p : PClpStatus) : Cmd := mkClpStatus p fun _ p s =>
  let k := p.ctx
  let role := match areaOf s k, liveOf s k with | some a, _ => a.role | none, some l => l.role | none, none => 0
  .ok s ([u8 role, u32 (ctxF s k), u32 (heldFrames s k)] ++ ([0, 4, 8, 0x0C].map fun o => u32 (rget (clpReg k o) s)) ++ [u8 (bankOf s (bankKey s k)), u32 (clpLoad s)])

def clpCountersClear : Cmd := mkClpCountersClear fun _ s => .ok (clpCntClear s) []

end Sys2Proof.Machine
end

