-- ==== Sys2Proof/Machine/Analysis.lean ====
section
/-! DEFINITION. Sys2Proof/Machine/Analysis.lean: the Electrum array at work (R252 to R259, R271 to R275): web lines enter, reach the
clusters, pass the pixel stage and labelling. -/

namespace Sys2Proof.Machine

/-! ## Lines enter (R258, R259) -/

/-- Columns of a cluster's band for a graph: first and number (R200, R382). -/
def cluCols (s : State) (verify : Bool) (k : Nat) : Nat × Nat :=
  if verify then
    (match verifySlot s with | some v => (0, verifyWidth s (gnodes s.cfg.graph v)) | none => (0, 0))
  else match s.cfg.geom with | some g => bandCols g k | none => (0, 0)

/-- Changes whose web line this is: those without a least MD, and those whose least MD it has reached (R259). -/
def takeChanges (md : Int) (n : Int) (s : State) : State :=
  let isDue : Option Int × Nat × LiveCh → Bool := fun c => match c.1 with | none => true | some v => decide (v ≤ md)
  let due := s.elx.changes.filter isDue
  if due.isEmpty then s else
  let g := due.foldl (fun g c => liveApply g c.2.2) (contentsOf s s.elx.verNo)
  let s := setElx (fun x => { x with vers := tabPut x.vers (x.verNo + 1) g, verNo := x.verNo + 1, changes := x.changes.filter fun c => ! isDue c }) s
  let s := if s.elx.changes.isEmpty then { s with cfg := { s.cfg with graph := g } } else s
  due.foldl (fun s c => match c.2.2 with | .swap _ new => modelNotify new 1 n s | _ => s) s

def lmuOf (s : State) (verify : Bool) : Lmu := if verify then s.elx.vlmu else s.elx.web

def setLmu (verify : Bool) (f : Lmu → Lmu) (s : State) : State :=
  setElx (fun x => if verify then { x with vlmu := f x.vlmu } else { x with web := f x.web }) s

def cluOf (s : State) (verify : Bool) (k : Nat) : Clu := if verify then s.elx.ver else (tabGet s.elx.clu k).getD {}

def setClu (verify : Bool) (k : Nat) (f : Clu → Clu) (s : State) : State :=
  setElx (fun x => if verify then { x with ver := f x.ver } else { x with clu := tabPut x.clu k (f ((tabGet x.clu k).getD {})) }) s

/-- A band passes a line: with its part, or skipped (R255). -/
def bandPasses (verify : Bool) (k ser : Nat) (part : Option BandRow) (s : State) : State :=
  let one : LmuRow → LmuRow := fun r =>
    if r.line.ser = ser then { r with need := r.need.filter (· != k), parts := match part with | some p => tabPut r.parts k p | none => r.parts } else r
  setLmu verify (fun m => { m with rows := m.rows.map one }) s

/-- Cluster k skips a line: counted, flagged and raised (R255). -/
def skipLine (verify : Bool) (k : Nat) (s : State) (l : WebLine) : State :=
  let s := setClu verify k (fun c => { c with owed := c.owed || l.restart, lastAt := s.now, ending := c.ending.filter (· != l.ser) }) s
  bandPasses verify k l.ser none (elxNotify 0 k l.n (publish (0x0510 + k) (bump (elxReg k 0x0C) 1 (rset (elxBase + 4) 0 s))))

/-- A line is handed to a cluster, or refused at its closed wrapper and so skipped (R582, R584). -/
def handLine (verify : Bool) (l : WebLine) (s : State) (k : Nat) : State :=
  toBlock (16 + k) (setClu verify k fun c => { c with inq := c.inq ++ [l] }) (fun s => skipLine verify k s l) s

/-- One web line enters: the changes due, the graph selections due at a strip's first line, the last of them in force, and its way to each band (R254, R258). -/
def admitLine (s : State) (l : WebLine) : State :=
  match s.cfg.geom with
  | none => s
  | some g =>
    let md := l.n * (g.mdPitch : Int)
    let s := takeChanges md l.n s
    let isDue : Option Int × Nat → Bool := fun e => l.first && match e.1 with | some v => decide (v ≤ md) | none => true
    let pick := (s.elx.select.filter isDue).getLast?
    let s := match pick with | some e => setElx (fun x => { x with slot := some e.2, select := x.select.filter fun e => ! isDue e }) s | none => s
    let l := { l with ser := s.elx.serial + 1, ver := s.elx.verNo, slot := s.elx.slot, restart := l.restart || pick.isSome }
    let bands := List.range g.bands
    let row : LmuRow := { line := { l with planes := [] }, need := bands }
    bands.foldl (handLine false l) (setElx (fun x => { x with serial := x.serial + 1, lastWeb := x.serial + 1, web := { x.web with rows := x.web.rows ++ [row] } }) s)

def admitTo (ls : List WebLine) (s : State) : State := ls.foldl admitLine s

/-- A line of the verification port enters its graph (R256). -/
def admitVerify (l : WebLine) (s : State) : State :=
  match s.cfg.verify with
  | none => s
  | some v =>
    let l := { l with ser := s.elx.serial + 1, ver := s.elx.verNo, slot := some v.slot }
    let row : LmuRow := { line := { l with planes := [] }, need := [v.cluster] }
    handLine true l (setElx (fun x => { x with serial := x.serial + 1, vlmu := { x.vlmu with rows := x.vlmu.rows ++ [row] } }) s) v.cluster

/-! ## Labelling advances (R271) -/

/-- What labelling needs of a slot's contents. -/
def lblOf (s : State) (verify : Bool) (ns : Tab PGraphNode) : Lbl :=
  let lab := match findKernel ns kLabel with | some l => l.2 | none => ⟨0, 0, 0x50, [], []⟩
  { conn := nparN lab 0, gap := nparN lab 1
    width := if verify then verifyWidth s ns else match s.cfg.geom with | some g => g.width | none => 0
    only := if verify then s.cfg.verify.map fun v => v.cluster else none
    bw := match s.cfg.geom with | some g => max 1 (bandWidth g) | none => 1
    wait := waitOf s verify, waitO := waitOf s (! verify) }

/-- Highest LMU_OPEN so far (R287). -/
def notePeaks (s : State) : State :=
  (List.range 16).foldl (fun s k => let o := lmuOpen s k; if rget (elxReg k 0x14) s < o then rput (elxReg k 0x14) o s else s) s

/-- The components whose records a step of labelling has made final. -/
def emitAll (x : Lbl) (verify : Bool) (slot ver : Nat) (n : Int) (st : LblSt) (s : State) : State :=
  st.out.foldl (componentFinal x verify slot ver n) (setLmu verify (fun _ => st.m) s)

/-- The components of the other graph that a line's labelling has evicted (R273). -/
def emitEvicted (verify : Bool) (st : LblSt) (s : State) : State :=
  let m := lmuOf s verify
  match m.slot, st.outO with
  | some slot, _ :: _ =>
    let n := match m.tags.getLast? with | some t => t.1 | none => 0
    emitAll (lblOf s verify (gnodes (contentsOf s m.ver) slot)) verify slot m.ver n { m := st.o, out := st.outO } s
  | _, _ => s

/-- Every open component of a graph closes (R258, R275). -/
def closeGraph (verify limit : Bool) (s : State) : State :=
  let m := lmuOf s verify
  match m.slot with
  | none => setLmu verify (fun m => { m with comps := [], prev := [], pend := [], count := [], tags := [] }) s
  | some slot =>
    let x := lblOf s verify (gnodes (contentsOf s m.ver) slot)
    let n := match m.tags.getLast? with | some t => t.1 | none => 0
    setLmu verify (fun m => { m with tags := [] }) (emitAll x verify slot m.ver n (closeAll x limit m) s)

/-- Labels one line that every band has passed. -/
def labelOne (verify : Bool) (row : LmuRow) (s : State) : State :=
  let s := if row.line.restart then closeGraph verify false s else s
  match row.line.slot with
  | none => setLmu verify (fun m => { m with slot := none }) s
  | some slot =>
    let ns := gnodes (contentsOf s row.line.ver) slot
    let x := lblOf s verify ns
    let keep := match findKernel ns kTile with | some t => nparN t.2 4 | none => 0
    let m := { lmuOf s verify with slot := some slot, ver := row.line.ver }
    let st := labelRow x keep row (lmuOf s (! verify)) m
    notePeaks (setLmu verify pruneTags (emitAll x verify slot row.line.ver row.line.n st (emitEvicted (! verify) st s)))

/-- Labels the lines at the front that every band has passed, at most `fuel`. -/
def labelReady (verify : Bool) : Nat → State → State
  | 0, s => s
  | k + 1, s =>
    match (lmuOf s verify).rows with
    | r :: rest => if r.need.isEmpty then labelReady verify k (labelOne verify r (setLmu verify (fun m => { m with rows := rest }) s)) else s
    | [] => s

/-- Contents no line, component or waiting tile refers to any more are dropped. -/
def pruneVers (s : State) : State :=
  let used : Nat → Bool := fun v => v == s.elx.verNo || v == s.elx.web.ver || v == s.elx.vlmu.ver || (s.elx.web.rows.any fun r => r.line.ver == v) ||
    (s.elx.vlmu.rows.any fun r => r.line.ver == v) || ((s.elx.waiting ++ s.elx.tiling).any fun f => f.ver == v) || (s.elx.clu.any fun e => e.2.ver == v) || s.elx.ver.ver == v
  setElx (fun x => { x with vers := x.vers.filter fun e => used e.1 }) s

def advanceLabels (verify : Bool) (s : State) : State := pruneVers (labelReady verify (lmuOf s verify).rows.length s)

/-! ## A line reaches a cluster (R255) -/

/-- BACKLOG_MAX of the slot a line runs under (R255). -/
def backlogMax (s : State) (slot : Option Nat) : Nat := match slot with | some k => (graphBudgetOf s k).backlogMax | none => 4096

/-- Whether the verification graph is this cluster's. -/
def hostsVerify (s : State) (k : Nat) : Bool := match s.cfg.verify with | some v => v.cluster == k | none => false

/-- The next web line reaches cluster k: into the backlog, or skipped (R255). A cluster after a Block reset skips lines until a strip
begins (R584). -/
def webLineArrival (k : Nat) (verify : Bool) (s : State) : State :=
  if verify ∧ ! hostsVerify s k then s else
  let c := cluOf s verify k
  match c.inq with
  | [] => s
  | l :: rest =>
    let parked := ! verify && s.elx.parked.contains k && ! l.first
    let s := if parked then s else setElx (fun x => if verify then x else { x with parked := x.parked.filter (· != k) }) s
    let full := decide (backlogMax s l.slot ≤ c.backlog.length)
    let skip := c.skipping || full
    let s := rset elxBase k s
    if parked ∨ skip then
      advanceLabels verify (skipLine verify k (setClu verify k (fun c => { c with inq := rest, skipping := c.skipping || ! parked }) s) l)
    else
      setClu verify k (fun c => { c with inq := rest, backlog := c.backlog ++ [{ l with restart := l.restart || c.owed }], owed := false, lastAt := s.now }) s

/-! ## A line is analysed (R253 to R265) -/

/-- A line that has passed the pixel stage goes to labelling; the last of a strip raises STRIP_DONE (R254). -/
def passOut (verify : Bool) (k : Nat) (o : PixRow × BandRow) (s : State) : State :=
  let s := setClu verify k (fun c => { c with passed := o.1.ser + 1 }) (bandPasses verify k o.1.ser (some o.2) s)
  let early := (cluOf s verify k).ending.contains o.1.ser
  let s := if early then setClu verify k (fun c => { c with ending := c.ending.filter (· != o.1.ser) }) s else s
  if ! verify ∧ (early ∨ Int.emod o.1.n 4096 = 4095) then stripDone k s else s

/-- The lines inside MORPH pass, and the kernels' state ends (R258). -/
def flushClu (verify : Bool) (k : Nat) (s : State) : State :=
  let c := cluOf s verify k
  let s := match c.slot with
    | some slot =>
      let ns := gnodes (contentsOf s c.ver) slot
      (flushRows ns (cluCols s verify k).2 (maskDelay ns) c.hist).foldl (fun s o => passOut verify k o s) s
    | none => s
  setClu verify k (fun c => { c with bg := [], hist := [], lines := 0 }) s

/-- EMIT of a cluster waits for the result writer or a BLOCK queue, and analysis on it with it (R324, R326). -/
def emitWaits (s : State) (k : Nat) : Bool :=
  (s.elx.emitWait.any fun p => p.cluster == k) || s.res.writer.any fun p => ! p.outcome && p.cluster == k && blocked s p.queue

/-- A component whose feature record was poisoned closes at once with TRUNCATED (R646). -/
def poisonComp (verify : Bool) (s : State) (id : Nat) : State :=
  let m := lmuOf s verify
  match m.slot with
  | none => s
  | some slot =>
    let n := match m.tags.getLast? with | some t => t.1 | none => 0
    emitAll (lblOf s verify (gnodes (contentsOf s m.ver) slot)) verify slot m.ver n (finish id .truncated { m := m }) s

/-- A line whose backlog copy was poisoned carries the band's LOST bit (R646). -/
def loseLine (verify : Bool) (k ser : Nat) (s : State) : State :=
  setLmu verify (fun m => { m with rows := m.rows.map fun r =>
    if r.line.ser = ser then { r with line := { r.line with lost := r.line.lost ||| 2 ^ k } } else r }) s

/-- Cluster k analyses the line at the head of its backlog. -/
def analyseNext (k : Nat) (verify : Bool) (p : ElxPoison) (s : State) : State :=
  if emitWaits s k ∨ (verify ∧ ! hostsVerify s k) then s else
  let c := cluOf s verify k
  match c.backlog with
  | [] => s
  | l0 :: rest =>
    let l := if p.line then { l0 with lost := l0.lost ||| 2 ^ k } else l0
    let s := if p.line then loseLine verify k l.ser s else s
    let s := p.comps.foldl (poisonComp verify) s
    let s := if l.restart then flushClu verify k s else s
    let c := cluOf s verify k
    let half := decide (2 * rest.length ≤ backlogMax s l.slot)
    let s := setClu verify k (fun c => { c with backlog := rest, skipping := c.skipping && ! half, slot := l.slot, ver := l.ver, last := l.n, lines := c.lines + 1 }) s
    let s := rput (elxReg k 4) (toUnsigned 64 l.n / 2 ^ 32) (rput (elxReg k 0) (toUnsigned 64 l.n) s)
    let s := match l.slot with
      | none => passOut verify k (⟨l.ser, l.n, []⟩, ⟨[], [], [], []⟩) s
      | some slot =>
        let ns := gnodes (contentsOf s l.ver) slot
        let cols := cluCols s verify k
        let r := pixelRows ns verify l (bit l.lost k) cols.1 cols.2 c.lines c.bg
        let p := pushRow ns cols.2 ⟨l.ser, l.n, r.1⟩ c.hist
        let s := setClu verify k (fun c => { c with bg := r.2, hist := p.1 }) s
        match p.2 with | some o => passOut verify k o s | none => s
    advanceLabels verify s

/-- A LINE_ANALYSED event of the array, with the poisoned data it met (R646). -/
def lineAnalysed (k : Nat) (verify : Bool) (p : ElxPoison) (s : State) : State :=
  setElx (fun x => { x with noTile := false }) (analyseNext k verify p (setElx (fun x => { x with noTile := p.tiles }) s))

/-! ## Start, end and gating (R47, R79, R254, R275) -/

/-- The array as a run begins: the graph contents of the working configuration set, nothing on its way (R258). -/
def elxStart (s : State) : State :=
  let s := wakeClusters (banded s) s
  setElx (fun x => { x with
    clu := [], ver := {}, web := { tiles := x.web.tiles, nextId := x.web.nextId }, vlmu := { tiles := x.vlmu.tiles, nextId := x.vlmu.nextId }, parked := [] }) s

/-- Graph contents at ARM (R259). -/
def elxArm (s : State) : State :=
  let s := rfield elxBase 16 16 (bandMask s) (wakeClusters (bandMask s) s)
  (setElx (fun x => { x with vers := tabPut x.vers (x.verNo + 1) s.cfg.graph, verNo := x.verNo + 1, changes := [], select := [], slot := s.cfg.select }) s)

/-- The end of the analysis after a stop: what is inside MORPH passes, and every open component closes (R275). -/
def elxEnd (s : State) : State :=
  let s := (List.range 16).foldl (fun s k => if (tabGet s.elx.clu k).isSome then flushClu false k s else s) s
  let s := match s.cfg.verify with | some v => flushClu true v.cluster s | none => s
  closeGraph true false (closeGraph false false (advanceLabels true (advanceLabels false s)))

/-- The drain limit: lines on their way are discarded, and every open component closes with TRUNCATED (R79, R275). -/
def elxLimit (s : State) : State :=
  let s := setElx (fun x => { x with clu := [], ver := {}, web := { x.web with rows := [] }, vlmu := { x.vlmu with rows := [] } }) s
  closeGraph true true (closeGraph false true s)

/-- A cluster without a strip for its idle time is gated (R47). -/
def clusterGate (k : Nat) (s : State) : State :=
  let quiet : Clu → Bool := fun c => c.inq.isEmpty && c.backlog.isEmpty && decide (c.lastAt + s.cfg.gating * ms ≤ s.now)
  if quiet (cluOf s false k) ∧ (! hostsVerify s k ∨ quiet s.elx.ver) then rfield elxBase k 1 0 s else s

end Sys2Proof.Machine
end

