-- ==== Sys2Proof/Machine/Marking.lean ====
section
/-! DEFINITION. Sys2Proof/Machine/Marking.lean: marking heads (chapter 09): geometry, rasterising, the missed-span log and outcomes. -/

namespace Sys2Proof.Machine

def setMrk (f : Mrk → Mrk) (s : State) : State := { s with mrk := f s.mrk }

def mhead (s : State) (h : Nat) : MHead := (tabGet s.mrk.heads h).getD {}

def setMHead (h : Nat) (f : MHead → MHead) (s : State) : State :=
  setMrk (fun m => { m with heads := tabPut m.heads h (f ((tabGet m.heads h).getD {})) }) s

def headMode (s : State) (h : Nat) : Nat := (tabGet s.cfg.headMode h).getD 0

def production (s : State) (h : Nat) : Bool := headMode s h == 1

/-- The heads configured, by number. -/
def markHeads (s : State) : List (Nat × PMrkHeadConfig) := s.cfg.heads

def mhReg (h o : Nat) : Nat := mrkBase + 0x100 + h * 0x20 + o

/-- MRK_NOTIFY, at most once per kind and head in each 100 ms (R389). -/
def mrkNotify (kind h : Nat) (j : Int) (s : State) : State := notifyLimited 0x09F0 kind h 1 (fun _ => [u8 h, u8 kind, s64 j]) s

/-! ## Calibration (R385) -/

/-- A block with its check word (R385). -/
def calSeal (bs : List Nat) : List Nat := bs.take 2448 ++ leBytes 4 (crc32c (bs.take 2448))

/-- The block of a head without a calibration: every offset and delay 0, no dead nozzle, no takeover (log 9). -/
def calZero (h : Nat) : List Nat := calSeal ([h, 0, 1, 0] ++ List.replicate 2444 0)

def calOf (s : State) (h : Nat) : List Nat := (tabGet s.mrk.cal h).getD (calZero h)

def calDelay (b : List Nat) : Int := leAtI b 4 4
def calOff (b : List Nat) (g : Nat) : Int := leAtI b (16 + 4 * g) 4
def calDead (b : List Nat) (i : Nat) : Bool := bit (nth b (272 + i / 8)) (i % 8)

/-- The takeover entry of a nozzle: head and nozzle, where it is valid. -/
def calTakeover (b : List Nat) (i : Nat) : Option (Nat × Nat) :=
  let w := leAt b (400 + 2 * i) 2
  if bit w 15 then some (bits w 13 10, w % 1024) else none

/-! ## Geometry (R349 to R353) -/

def remapOf (s : State) (h i : Nat) : Nat := (tabGet s.cfg.remap (h * 1024 + i)).getD 0

def nozPresent (s : State) (h i : Nat) : Bool := bit (remapOf s h i) 15

/-- X_i (R349). -/
def nozX (s : State) (h i : Nat) : Int :=
  match tabGet s.cfg.heads h with
  | some c => c.x0 + i * (c.pitch : Int) + calOff (calOf s h) (i / 16)
  | none => 0

/-- d_r of a nozzle's row (R351). -/
def rowDelay (s : State) (h i : Nat) : Int :=
  match tabGet s.cfg.heads h, bits (remapOf s h i) 11 10 with
  | some c, r + 1 => nth c.d r
  | _, _ => 0

/-- q_j (R352). -/
def fireQ (s : State) (h : Nat) (j : Int) : Int :=
  match tabGet s.cfg.heads h with
  | some c => j * c.ph + c.mh + calDelay (calOf s h)
  | none => 0

/-- q_j as it governs fire instant j: an instant latched before a calibration took effect keeps its own (R386). -/
def fireAt (s : State) (h : Nat) (j : Int) : Int :=
  match (mhead s h).latchQ with
  | some l => if l.1 = j then l.2 else fireQ s h j
  | none => fireQ s h j

/-- The web axis reaches MD position `q` at the present instant (R352). -/
def webReaches (s : State) (q : Int) (fwd : Bool) : Bool := match webAxis s with | some a => reaches s a q fwd | none => false

/-- The largest j with q_j below the web axis position (R353). -/
def hwmBelow (s : State) (h : Nat) : Int :=
  match tabGet s.cfg.heads h with
  | some c => ceilDivI (webMd s - fireQ s h 0) c.ph - 1
  | none => 0

/-- Clock cycles of a shift (R344). -/
def shiftLen (s : State) (h n : Nat) : Nat :=
  (List.range n).foldl (fun m i => if nozPresent s h i then max m (remapOf s h i % 256 + 1) else m) 0

/-- The length of a shift in ps (R344). -/
def shiftPs (s : State) (h : Nat) (c : PMrkHeadConfig) : Nat := ceilDiv (shiftLen s h c.nozzles * 1000000000) c.busKhz

/-- The nozzle data of a shift: for each clock cycle the pairs that carry 1, as a mask (R344). -/
def shiftData (s : State) (h n : Nat) (noz : List Nat) : List Nat :=
  (List.range (shiftLen s h n)).map fun b =>
    noz.foldl (fun m i => let w := remapOf s h i; if bit w 15 ∧ w % 256 = b then m ||| 2 ^ bits w 9 8 else m) 0

/-- Web axis travel in the last 1 ms, nm (R361). -/
def travelMs (s : State) : Nat :=
  match webAxis s with
  | none => 0
  | some a =>
    let x := axis s a
    match posAgo x (s.now - ms) with
    | some p => (mdNow s a - mdOf s a x p).natAbs
    | none => 0

/-- ρ, dot lines per second (R361). -/
def rho (s : State) (h : Nat) : Nat := match tabGet s.cfg.heads h with | some c => travelMs s * 1000 / max 1 c.ph | none => 0

/-- ρ / k ≤ limit, exactly, with the limit as a fraction. -/
def rhoFits (s : State) (ph k num den : Nat) : Bool := decide (travelMs s * 1000 * den ≤ k * num * ph)

/-- The stretch factor (R361); K_MAX where none is enough (R367). -/
def stretch (s : State) (c : PMrkHeadConfig) : Nat :=
  let kmax := s.cfg.style.kmax
  (((List.range kmax).map (· + 1)).find? fun k => rhoFits s c.ph k c.fmax 1).getD kmax

/-! ## The missed-span log (R377, R378) -/

def missEntry (h cause : Nat) (md1 md2 : Int) (n1 n2 time : Nat) (s : State) : State :=
  let bs := leBytes 8 md1 ++ leBytes 8 md2 ++ leBytes 8 time ++ [h, cause] ++ leBytes 2 n1 ++ leBytes 2 n2 ++ [0, 0]
  let s := setMrk (fun m => { m with log := ((m.logNo + 1, bs) :: m.log).take 4096, logNo := m.logNo + 1 }) s
  bump (mrkBase + 0x0C) 1 (rset (mrkBase + 4) 3 s)

def headPitch (s : State) (h : Nat) : Int := match tabGet s.cfg.heads h with | some c => c.ph | none => 0

/-- Closes the spans of a head that `p` picks: their entries are written. -/
def closeSpans (h : Nat) (p : Span → Bool) (s : State) : State :=
  let gone := (mhead s h).spans.filter p
  let s := setMHead h (fun x => { x with spans := x.spans.filter fun e => ! p e }) s
  gone.foldl (fun s e => missEntry h e.cause (e.first * headPitch s h) (e.last * headPitch s h) e.nozFirst e.nozLast e.time s) s

def minNoz (ns : List Nat) : Nat := ns.foldl min (ns.headD 0)
def maxNoz (ns : List Nat) : Nat := ns.foldl max 0

/-- A cause's missed nozzles at one instant join the span in progress, or open one. -/
def extendSpan (j : Int) (time : Nat) (spans : List Span) (c : Nat × List Nat) : List Span :=
  if spans.any fun e => e.cause == c.1 then
    spans.map fun e => if e.cause = c.1 then { e with last := j, nozFirst := min e.nozFirst (minNoz c.2), nozLast := max e.nozLast (maxNoz c.2), time := time } else e
  else spans ++ [⟨c.1, j, j, minNoz c.2, maxNoz c.2, time⟩]

/-- Groups (cause, nozzle) by cause. -/
def byCause (xs : List (Nat × Nat)) : List (Nat × List Nat) :=
  (xs.map fun x => x.1).eraseDups.map fun c => (c, (xs.filter fun x => x.1 == c).map fun x => x.2)

/-- A fire instant joins the runs counted. -/
def addCounted (j : Int) : List (Int × Int) → List (Int × Int)
  | (a, b) :: r => if b + 1 = j then (a, j) :: r else (j, j) :: (a, b) :: r
  | [] => [(j, j)]

/-- MH_MISS counts each fire instant with missed dots once (R387). -/
def countMissed (h : Nat) (j : Int) (s : State) : State :=
  if (mhead s h).counted.any fun r => decide (r.1 ≤ j ∧ j ≤ r.2) then s
  else bump (mhReg h 0x18) 1 (setMHead h (fun x => { x with counted := addCounted j x.counted }) s)

/-- One fire instant's missed dots (cause, nozzle): MH_MISS, and the spans it goes on, opens and closes (R378). -/
def missInstant (h : Nat) (j : Int) (xs : List (Nat × Nat)) (s : State) : State :=
  let cs := byCause xs
  let s := if xs.isEmpty then s else countMissed h j s
  let s := closeSpans h (fun e => ! (cs.any fun c => c.1 == e.cause) || e.last + 1 != j) s
  setMHead h (fun x => { x with spans := cs.foldl (extendSpan j (tmuNs s)) x.spans }) s

/-! ## Outcomes (R320, R366) -/

/-- Writes a mark's MARK_OUTCOME record. -/
def markOutcome (d : MarkDec) (missed : Bool) (s : State) : State :=
  let b := d.body
  let flags := (leAt b 80 2 &&& 0xCF) + (if missed then 32 else 16)
  let body := b.take 48 ++ leBytes 8 (tmuSec s) ++ leBytes 4 (tmuSub s) ++ (b.take 80).drop 60 ++ leBytes 2 flags ++ [1] ++ b.drop 83
  submitOutcome ⟨d.id, d.queue, true, d.cluster, body, 0, 0, 0, false⟩ s

/-- One dot of a mark is settled. -/
def settleDot (missed : Bool) (s : State) (mark : Nat) : State :=
  match tabGet s.mrk.marks mark with
  | none => s
  | some m =>
    let m := { m with left := m.left - 1, missed := m.missed || missed }
    if m.left = 0 then markOutcome m.dec m.missed (setMrk (fun x => { x with marks := tabDel x.marks mark }) s)
    else setMrk (fun x => { x with marks := tabPut x.marks mark m }) s

/-! ## Shift and latch (R345) -/

def preheatOf (s : State) (h : Nat) : PMrkPreheat :=
  (tabGet s.cfg.preheat h).getD ⟨h, 0, [50, 50, 50, 50], 200, (match tabGet s.cfg.heads h with | some c => c.ph / 2 | none => 0), 2500, 3000⟩

/-- The last temperature reading in 0.01 °C; a head that has given none reads as at T_ref (log 37). -/
def headTemp100 (s : State) (h : Nat) : Int :=
  let w := (mhead s h).temp
  if w = 0x8000 then (preheatOf s h).tref else roundDivUp (toSigned 16 w * 100) 256

/-- Scaled widths, those below 50 ns omitted (R357). -/
def preWidths (s : State) (h : Nat) : List Nat :=
  let p := preheatOf s h
  let x := mhead s h
  if x.throttled ∨ x.suspended then [] else
  let f := (clampI 0 p.tspan (p.tref + p.tspan - headTemp100 s h)).toNat
  ((p.w.take p.count).map fun w => w * f / p.tspan).filter fun w => decide (50 ≤ w)

/-- The shift and the LATCH pulse of an instant go on record (R344, R345). -/
def shiftOut (h : Nat) (c : PMrkHeadConfig) (k : Shift) (noz : List Nat) (s : State) : State :=
  emit (.latch h (k.fall - c.latchW * ns) c.latchW) (emit (.shift h k.inst k.start c.busKhz (shiftData s h c.nozzles noz)) s)

/-- The pre-heat train of the instant latched goes on record once it has begun: at the later of the crossing of q_j − PRE_ADV and 20 ns after LATCH
fell (R356). -/
def flushTrain (h : Nat) (s : State) : State :=
  let x := mhead s h
  match x.shift with
  | none => s
  | some k =>
    match x.crossed.find? fun e => e.1 == k.inst with
    | none => s
    | some e =>
      let start := max e.2 (k.fall + 20 * ns)
      let ws := preWidths s h
      let begun : Bool := match x.pre with | some q => q.1 == k.inst | none => false
      if ! x.en ∨ begun ∨ s.now < start ∨ start < x.settleTo ∨ ws.isEmpty then s else
      let s := setMHead h (fun y => { y with pre := some (k.inst, start + (ws.foldl (· + ·) 0 + (ws.length - 1) * (preheatOf s h).gap) * ns) }) s
      emit (.preheat h k.inst start ws) s

/-- Nozzles of the dots to fire at an instant. -/
def liveNozzles (x : MHead) (j : Int) : List Nat := (x.dots.filter fun d => d.cause == 255 && d.inst == j).map fun d => d.noz

/-- The shift in the head gives way: where its LATCH has fallen, what was shifted, latched and pre-heated stands on record (R345). -/
def dropShift (h : Nat) (s : State) : State :=
  let x := mhead s h
  match tabGet s.cfg.heads h, x.shift with
  | some c, some k =>
    let s := if k.fall ≤ s.now then shiftOut h c k (liveNozzles x k.inst) (flushTrain h s) else s
    setMHead h (fun y => { y with shift := none }) s
  | _, _ => s

/-- The lowest fire instant above FIRE_HWM, in the buffer, with a dot to fire. -/
def nextDotted (x : MHead) : Option Int :=
  x.dots.foldl (fun m d => if d.cause = 255 ∧ x.hwm < d.inst ∧ d.inst ≤ x.top then
    (match m with | some j => some (min j d.inst) | none => some d.inst) else m) none

/-- Starts the shift of the next dotted instant where it is not the one already in the head: as soon as its data is in the buffer and the previous main
pulse has ended; its LATCH does not rise within EN_SETTLE (R345, R346). -/
def reshift (h : Nat) (s : State) : State :=
  match tabGet s.cfg.heads h with
  | none => s
  | some c =>
    let x := mhead s h
    if ! x.en then dropShift h s else
    match nextDotted x with
    | none => dropShift h s
    | some j =>
      if (match x.shift with | some k => k.inst == j | none => false) then s else
      let s := dropShift h s
      let start := max s.now (match x.lastFire with | some t => t + c.wMain * ns | none => 0)
      let rise := max (start + shiftPs s h c + 20 * ns) x.settleTo
      setMHead h (fun y => { y with shift := some ⟨j, start, rise + c.latchW * ns⟩ }) s

/-- A fire instant already latched or passed (R363). -/
def isLate (s : State) (h : Nat) (j : Int) : Bool :=
  let x := mhead s h
  decide (j ≤ x.hwm) || (match x.shift with | some k => k.inst == j && decide (k.fall ≤ s.now) | none => false)

/-! ## Rasterising (R359 to R365) -/

/-- A mark's CD and MD intervals, nm; halves are rounded towards −∞ (R359). -/
def markArea (s : State) (d : MarkDec) : Int × Int × Int × Int :=
  let w := s.cfg.style.dims
  let dim : Nat → Int := fun i => nth w i
  let g := match s.cfg.geom with | some g => (g.width, g.cdPitch, g.mdPitch) | none => (0, 0, 0)
  let lo : Int → Int → Int := fun x y => x - Int.fdiv y 2
  let hi : Int → Int → Int := fun x y => x + Int.fdiv y 2
  let full : Int := g.1 * g.2.1
  match d.style with
  | 1 => (lo d.cd (dim 0), hi d.cd (dim 0), lo d.md (dim 1), hi d.md (dim 1))
  | 2 => ((d.cMin : Int) * g.2.1 - dim 2, ((d.cMax : Int) + 1) * g.2.1 + dim 2, d.nMin * g.2.2 - dim 2, d.nMax * g.2.2 + dim 2)
  | _ => if d.cd < Int.fdiv full 2 then (0, dim 3, lo d.md (dim 4), hi d.md (dim 4)) else (full - dim 3, full, lo d.md (dim 4), hi d.md (dim 4))

/-- The heads whose nozzles a mark selects: those in PRODUCTION, and those in SERVICE, whose dots R365 treats. -/
def rasterHeads (s : State) : List (Nat × PMrkHeadConfig) := (markHeads s).filter fun e => headMode s e.1 != 0

/-- Present nozzles within their head's own range: (head, nozzle, X). -/
def ownNozzles (s : State) : List (Nat × Nat × Int) :=
  (rasterHeads s).flatMap fun e => (List.range e.2.nozzles).filterMap fun i =>
    let x := nozX s e.1 i
    if nozPresent s e.1 i ∧ e.2.lo ≤ x ∧ x < e.2.hi then some (e.1, i, x) else none

/-- The nozzles of a mark (R360). -/
def selectNozzles (s : State) (x1 x2 : Int) : List (Nat × Nat) :=
  let all := ownNozzles s
  match all.filter fun e => decide (x1 ≤ e.2.2 ∧ e.2.2 < x2) with
  | [] => match all.foldl (fun (m : Option (Nat × Nat × Int)) e => match m with
      | some b => if (2 * e.2.2 - x1 - x2).natAbs < (2 * b.2.2 - x1 - x2).natAbs then some e else some b
      | none => some e) none with
    | some e => [(e.1, e.2.1)]
    | none => []
  | sel => sel.map fun e => (e.1, e.2.1)

/-- The lines of a mark on a head (R360, R361). -/
def markLines (k ph : Nat) (y1 y2 : Int) : List Int :=
  let ja := ceilDivI y1 ph
  let jb := Int.fdiv y2 ph
  if jb < ja then [Int.fdiv (y1 + y2 + ph) (2 * ph)]
  else
    let l := (jb - ja).toNat
    let n := l / k
    if n = 0 then [ja + (l / 2 : Nat)] else ((List.range (n + 1)).map fun (i : Nat) => ja + roundDivUp (i * l : Nat) n).eraseDups

/-- A dot as it is placed: head, instant, nozzle, and why it is missed (255 when it is to be fired). -/
abbrev Placed := Nat × Int × Nat × Nat

/-- The substitute of a dead nozzle, where it can fire (R364). -/
def substitute (s : State) (h i : Nat) : Option (Nat × Nat) :=
  match calTakeover (calOf s h) i with
  | none => none
  | some (h2, i2) => match tabGet s.cfg.heads h2 with
    | some c => if i2 < c.nozzles ∧ nozPresent s h2 i2 ∧ ! calDead (calOf s h2) i2 then some (h2, i2) else none
    | none => none

/-- Whether a head gives its dots away: it is suspended or in SERVICE (R355, R365). -/
def givesAway (s : State) (h : Nat) : Bool := headMode s h == 2 || (mhead s h).suspended

/-- A dot of nozzle i of head h at a dot line: on the neighbour's nozzle where the head gives its dots away, on the substitute of a dead nozzle at the dot
line of the same MD, else on the nozzle itself; `miss` is the cause where its instant is past, and `f` bounds the chain (R364, R365). -/
def placeAt (s : State) : Nat → Nat → Int → Nat → Nat → Placed
  | 0, h, line, i, miss => (h, line + rowDelay s h i, i, if miss = 255 then 3 else miss)
  | f + 1, h, line, i, miss =>
    let own := line + rowDelay s h i
    let ph := match tabGet s.cfg.heads h with | some c => c.ph | none => 1
    if givesAway s h then
      let cause := if headMode s h = 2 then 5 else 2
      match tabGet s.cfg.overlap h with
      | none => (h, own, i, cause)
      | some o =>
        let i2 : Int := i + o.dn
        match (if o.neighbour = 255 then none else tabGet s.cfg.heads o.neighbour) with
        | none => (h, own, i, cause)
        | some c =>
          if i2 < 0 ∨ (c.nozzles : Int) ≤ i2 ∨ ! nozPresent s o.neighbour i2.toNat ∨ headMode s o.neighbour ≠ 1 ∨ (mhead s o.neighbour).suspended then (h, own, i, cause)
          else placeAt s f o.neighbour line i2.toNat cause
    else if ! calDead (calOf s h) i then (h, own, i, if isLate s h own then (if miss = 255 then 4 else miss) else 255)
    else match substitute s h i with
      | some (h2, i2) =>
        placeAt s f h2 (if h2 = h then line else match tabGet s.cfg.heads h2 with | some c => roundDivUp (line * ph) c.ph | none => line) i2 miss
      | none => (h, own, i, 3)

/-- A dot of nozzle i of head h at a dot line (R364, R365). -/
def placeDot (s : State) (h : Nat) (line : Int) (i : Nat) : Placed := placeAt s 16 h line i 255

/-- The dots of a mark, placed. -/
def markDots (s : State) (d : MarkDec) : List Placed :=
  let a := markArea s d
  (selectNozzles s a.1 a.2.1).flatMap fun e => match tabGet s.cfg.heads e.1 with
    | some c => (markLines (stretch s c) c.ph a.2.2.1 a.2.2.2).map fun l => placeDot s e.1 l e.2
    | none => []

/-- The dots of a test print (R381). -/
def printDots (s : State) (h sp r : Nat) (md : Int) : List Placed :=
  match tabGet s.cfg.heads h with
  | none => []
  | some c =>
    let j0 := ceilDivI md c.ph
    ((List.range c.nozzles).filter fun i => nozPresent s h i).flatMap fun i =>
      (List.range r).map fun (k : Nat) => placeDot s h (j0 + (k * 8 * sp : Nat) + (i % 8 * sp : Nat)) i

/-- Whether every dot lies within its head's horizon (R362). -/
def withinHorizon (s : State) (ds : List Placed) : Bool :=
  ds.all fun d => d.2.2.2 != 255 || (match tabGet s.cfg.heads d.1 with
    | some c => decide (d.2.1 ≤ (mhead s d.1).hwm + c.ring - 256)
    | none => true)

/-- The instants of a list with the nozzles missed at each, in rising order. -/
def byInstant (xs : List (Int × Nat)) : List (Int × List Nat) :=
  let ins : List Int → Int → List Int := fun l j => (l.filter fun k => decide (k < j)) ++ j :: l.filter fun k => decide (j < k)
  ((xs.map fun x => x.1).foldl ins []).map fun j => (j, (xs.filter fun x => x.1 == j).map fun x => x.2)

/-- Dots missed at once: consecutive instants of a head and cause make one entry, and each instant counts (R377, R378). -/
def logRuns (h cause : Nat) (xs : List (Int × Nat)) (s : State) : State :=
  let js := byInstant xs
  let runs := js.foldl (fun (acc : List (Int × Int × List Nat)) e => match acc with
    | (a, b, ns) :: r => if b + 1 = e.1 then (a, e.1, ns ++ e.2) :: r else (e.1, e.1, e.2) :: acc
    | [] => [(e.1, e.1, e.2)]) []
  let s := js.foldl (fun s e => countMissed h e.1 s) s
  runs.reverse.foldl (fun s r => missEntry h cause (r.1 * headPitch s h) (r.2.1 * headPitch s h) (minNoz r.2.2) (maxNoz r.2.2) (tmuNs s) s) s

/-- A dot joins its instant; a shift of that instant that has not been latched begins again with it (R362, log 219). -/
def addDot (d : Dot) (x : MHead) : MHead :=
  { x with dots := x.dots ++ [d], shift := match x.shift with | some k => if k.inst = d.inst ∧ d.cause = 255 then none else some k | none => none }

/-- Puts placed dots, each with its mark, into the rings: those missed at once are logged; those missed at an instant still to
come are logged there. The marks of the dots missed at once, one for each dot. -/
def putDots (ds : List (Placed × Nat)) (s : State) : List Nat × State :=
  let now : Placed × Nat → Bool := fun d => d.1.2.2.2 == 4 || (d.1.2.2.2 != 255 && decide (d.1.2.1 ≤ (mhead s d.1.1).hwm))
  let lost := ds.filter now
  let keep := ds.filter fun d => ! now d
  let groups := (lost.map fun d => (d.1.1, d.1.2.2.2)).eraseDups
  let s := groups.foldl (fun s g => logRuns g.1 g.2 ((lost.filter fun d => d.1.1 == g.1 && d.1.2.2.2 == g.2).map fun d => (d.1.2.1, d.1.2.2.1)) s) s
  let s := keep.foldl (fun s d => setMHead d.1.1 (addDot ⟨d.1.2.1, d.1.2.2.1, d.2, d.1.2.2.2⟩) s) s
  (lost.map fun d => d.2, (keep.map fun d => d.1.1).eraseDups.foldl (fun s h => reshift h s) s)

/-- Notes the stretch factor each head uses (R387). -/
def noteStretch (ds : List Placed) (s : State) : State :=
  (ds.map fun d => d.1).eraseDups.foldl (fun s h => match tabGet s.cfg.heads h with
    | some c => setMHead h (fun x => { x with k := stretch s c }) s
    | none => s) s

/-- Rasterises one waiting entry. -/
def rasterise (p : PendMark) (ds : List Placed) (s : State) : State :=
  match p with
  | .mark d =>
    let s := noteStretch ds s
    let r := putDots (ds.map fun x => (x, d.id)) s
    let left := ds.length - r.1.length
    if left = 0 then markOutcome d true r.2
    else setMrk (fun m => { m with marks := tabPut m.marks d.id ⟨d, left, ! r.1.isEmpty⟩ }) r.2
  | .print h sp rr md =>
    let j0 := match tabGet s.cfg.heads h with | some c => ceilDivI md c.ph | none => 0
    let s := setMHead h (fun x => { x with print := some { s := sp, r := rr, j0 := j0 }, sums := [] }) s
    (putDots (ds.map fun x => (x, 0)) s).2

def dotsOf (s : State) : PendMark → List Placed
  | .mark d => markDots s d
  | .print h sp r md => printDots s h sp r md

/-- A mark that is never rasterised: one entry for each head it selects, and its outcome at once (R363, R379). -/
def missMark (cause : Nat) (p : PendMark) (s : State) : State :=
  match p with
  | .mark d =>
    let a := markArea s d
    let sel := selectNozzles s a.1 a.2.1
    let s := (sel.map fun e => e.1).eraseDups.foldl (fun s h =>
      let ns := (sel.filter fun e => e.1 == h).map fun e => e.2
      missEntry h cause a.2.2.1 a.2.2.2 (minNoz ns) (maxNoz ns) (tmuNs s) s) s
    markOutcome d true s
  | .print .. => s

/-- A mark or print comes to the rasteriser: at once, or into the pending list (R362, R363). -/
def offer (p : PendMark) (s : State) : State :=
  let ds := dotsOf s p
  if withinHorizon s ds then rasterise p ds s
  else if 16384 ≤ s.mrk.pend.length then missMark 6 p s
  else setMrk (fun m => { m with pend := m.pend ++ [p] }) s

/-- Waiting marks whose lines have come within the horizon are rasterised (R362). -/
def retryPending (s : State) : State :=
  s.mrk.pend.foldl (fun s p =>
    let ds := dotsOf s p
    if withinHorizon s ds then rasterise p ds s else setMrk (fun m => { m with pend := m.pend ++ [p] }) s)
    (setMrk (fun m => { m with pend := [] }) s)

/-- The next mark decision reaches the rasteriser. -/
def markDecision (s : State) : State :=
  match s.mrk.inbox with
  | [] => s
  | d :: r => offer (.mark d) (setMrk (fun m => { m with inbox := r }) s)

/-- Dots of a head that `p` picks are missed with one cause (R363, R379). -/
def dropDots (h cause : Nat) (p : Dot → Bool) (s : State) : State :=
  let gone := (mhead s h).dots.filter p
  let s := setMHead h (fun x => { x with dots := x.dots.filter fun d => ! p d }) s
  let s := if gone.isEmpty then s else logRuns h cause (gone.map fun d => (d.inst, d.noz)) (closeSpans h (fun _ => true) s)
  gone.foldl (fun s d => settleDot true s d.mark) s

end Sys2Proof.Machine
end

