-- ==== Sys2Proof/Machine/MarkFire.lean ====
section
/-! DEFINITION. Sys2Proof/Machine/MarkFire.lean: marking heads at work (chapter 09): fire instants, pre-heat, buffer level, the line
drive, temperature limits, and the measurement of test prints. -/

namespace Sys2Proof.Machine

/-! ## The line drive (R369 to R373) -/

/-- Fire instants above FIRE_HWM in the buffer (R368). -/
def bufLevel (x : MHead) : Nat := min 256 (x.top - x.hwm).toNat

/-- MD of the lowest recorded j_r, 0 when none (R388). -/
def heldMd (s : State) : Int :=
  match (markHeads s).findSome? fun e => (mhead s e.1).jr.map fun j => j * (e.2.ph : Int) with
  | some y => y
  | none => 0

/-- Drives SLOWREQ, STOPREQ and REVREQ; a change moves the balls, publishes and notifies (R373, R387). -/
def setDrive (slow stop rev : Bool) (s : State) : State :=
  let m := s.mrk
  if m.slow = slow ∧ m.stop = stop ∧ m.rev = rev then s else
    let s := setMrk (fun x => { x with slow := slow, stop := stop, rev := rev }) s
    let s := if m.slow = slow then s else emit (.pin pinSlowreq 0 slow) s
    let s := if m.stop = stop then s else emit (.pin pinStopreq 0 stop) s
    let s := if m.rev = rev then s else emit (.pin pinRevreq 0 rev) s
    let s := if slow ∧ ! m.slow then publish 0x0630 s else s
    let s := if stop ∧ ! m.stop then publish 0x0631 s else s
    notifySubs 0x09F1 [u8 (boolNat slow), u8 (boolNat stop), u8 (boolNat rev), u8 (boolNat m.ldack), s64 (heldMd s)] s

/-- The web axis observer's speed without its sign, µm/s: SLOWREQ is a rate request (R35, R215, R373). -/
def webSpeed (s : State) : Nat := match webAxis s with | some a => (axis s a).speed.natAbs | none => 0

/-- Whether a head holds SLOWREQ (R373). -/
def slowCause (s : State) (h : Nat) (c : PMrkHeadConfig) : Bool :=
  let l := s.cfg.lineMode
  let x := mhead s h
  let alone := match tabGet s.cfg.overlap h with | some o => o.neighbour == 255 | none => true
  production s h && ((l.mode == 0 && decide (bufLevel x < l.low)) ||
    decide (s.cfg.style.kmax * c.fmax * l.slowPct * c.ph < webSpeed s * 1000 * 100) || (x.suspended && alone))

/-- SLOWREQ is asserted while a cause holds; the end of the last cause is noted (R373). -/
def judgeSlow (s : State) : State :=
  if ! runningState s.dev.state then s
  else if (markHeads s).any fun e => slowCause s e.1 e.2 then setDrive true s.mrk.stop s.mrk.rev (setMrk (fun m => { m with slowOff := none }) s)
  else if s.mrk.slow ∧ s.mrk.slowOff.isNone then setMrk (fun m => { m with slowOff := some s.now }) s
  else s

/-- STOPREQ ends when REVREQ is not asserted, every recorded j_r has been backed up to, and the heads that asserted it
hold HIGH instants (R371). -/
def judgeStop (s : State) : State :=
  let ok : MHead → Bool := fun x => (! x.asked || decide (s.cfg.lineMode.high ≤ bufLevel x)) && (x.jr.isNone || x.backed)
  if s.mrk.stop ∧ ! s.mrk.rev ∧ s.mrk.heads.all fun e => ok e.2 then
    setDrive s.mrk.slow false false (setMrk (fun m => { m with heads := m.heads.map fun e => (e.1, { e.2 with asked := false }) }) s)
  else s

/-- A head asserts STOPREQ (R371). -/
def askStop (h : Nat) (s : State) : State :=
  let s := setMHead h (fun x => { x with asked := true }) s
  if s.mrk.stop then s else setDrive s.mrk.slow true s.mrk.rev (setMrk (fun m => { m with stopAt := s.now, acked := m.ldack }) s)

/-- A PRODUCTION head of a STOPPABLE line whose level has fallen below LOW asserts STOPREQ (R371). -/
def judgeLow (h before : Nat) (s : State) : State :=
  let l := s.cfg.lineMode
  if l.mode = 1 ∧ production s h ∧ runningState s.dev.state ∧ l.low ≤ before ∧ bufLevel (mhead s h) < l.low then askStop h s else s

/-- The web axis has raised MOTION_STOP (R371). -/
def stopRev (s : State) : State :=
  if s.mrk.ldack ∧ (s.mrk.heads.any fun e => e.2.jr.isSome) then setDrive s.mrk.slow s.mrk.stop true s else s

/-- MOTION_STOP of an axis, and what the web axis's means for the line drive (R218, R371). -/
def motionStopEv (a : Nat) (s : State) : State :=
  let t := motionStop a s
  if webAxis s = some a ∧ (axis s a).moving ∧ ! (axis t a).moving ∧ ! wrapClosed 39 t then stopRev t else t

def ldackChange (level : Bool) (s : State) : State :=
  if s.mrk.ldack = level then s else
  let s := setMrk (fun m => { m with ldack := level, acked := m.acked || level }) s
  notifySubs 0x09F1 [u8 (boolNat s.mrk.slow), u8 (boolNat s.mrk.stop), u8 (boolNat s.mrk.rev), u8 (boolNat level), s64 (heldMd s)] s

/-- The position has fallen to q_(j_r) − REV_MARGIN or below, for every recorded j_r (R371). -/
def revreqRelease (s : State) : State :=
  let back := s.mrk.heads.all fun e => match e.2.jr with
    | some j => decide (webMd s ≤ fireQ s e.1 j - (s.cfg.lineMode.revMargin : Int))
    | none => true
  if s.mrk.rev ∧ back then
    setDrive s.mrk.slow s.mrk.stop false (setMrk (fun m => { m with heads := m.heads.map fun e => (e.1, { e.2 with backed := e.2.jr.isSome }) }) s)
  else s

def slowreqRelease (s : State) : State :=
  match s.mrk.slowOff with
  | some t => if s.mrk.slow ∧ t + 10 * ms ≤ s.now then setDrive false s.mrk.stop s.mrk.rev (setMrk (fun m => { m with slowOff := none }) s) else s
  | none => s

/-! ## Suspension (R365, R374) -/

/-- Dots still to be fired on a head that is suspended or in SERVICE go to its neighbour, or are missed with that cause (R365). -/
def transfer (h : Nat) (s : State) : State :=
  let s := dropShift h s
  let gone := (mhead s h).dots.filter fun d => d.cause == 255
  let s := setMHead h (fun x => { x with dots := x.dots.filter fun d => d.cause != 255 }) s
  let r := putDots (gone.map fun d => (placeDot s h (d.inst - rowDelay s h d.noz) d.noz, d.mark)) s
  r.1.foldl (fun s m => settleDot true s m) r.2

def thermalOf (s : State) (h : Nat) : PMrkThermal := (tabGet s.cfg.thermal h).getD ⟨h, 5500, 500, 128, 1000, 1000⟩

/-- Suspends a head whose count has reached SUSPEND_LINES (R374). -/
def judgeSuspend (h : Nat) (s : State) : State :=
  let x := mhead s h
  if x.suspended ∨ ! x.hot ∨ x.overN < (thermalOf s h).suspend then s
  else
    let s := rset (mrkBase + 4) 2 (setMHead h (fun y => { y with suspended := true }) (dropShift h s))
    transfer h (mrkNotify 0 h x.hwm (publish (0x0600 + h) s))

/-- One fire instant reached while every reading stays above T_lim (R374). -/
def countHot (h : Nat) (s : State) : State :=
  if (mhead s h).hot then judgeSuspend h (setMHead h (fun x => { x with overN := x.overN + 1 }) s) else s

/-- A temperature read of head h ends: `ok` says that the read succeeded; reads come TS_PERIOD apart (R348, R374 to R376). -/
def headTempRead (h : Nat) (ok : Bool) (word : Nat) (s : State) : State :=
  let c := thermalOf s h
  let early : Bool := match (mhead s h).tempAt with | some t => decide (s.now < t + c.tsPeriod * us) | none => false
  if (tabGet s.cfg.heads h).isNone ∨ early then s else
  let s := flushTrain h s
  let s := emit (.spi h (s.now - ceilDiv 16000000000 c.spiKhz) c.spiKhz) (setMHead h (fun x => { x with tempAt := some s.now }) s)
  let bad := ! ok || word % 65536 == 0x8000
  let n := if bad then (mhead s h).badReads + 1 else 0
  let s := setMHead h (fun x => { x with badReads := n, temp := if ok then word % 65536 else x.temp }) s
  let hot := setMHead h (fun x => { x with hot := true, throttled := true })
  if bad then
    if n < 3 then s else judgeSuspend h (hot (mrkNotify 5 h (mhead s h).hwm (rset (mrkBase + 4) 5 s)))
  else
    let t100 := toSigned 16 word * 100
    if c.tlim * 256 < t100 then judgeSuspend h (hot s)
    else
      let s := setMHead h (fun x => { x with hot := false, overN := 0 }) s
      let x := mhead s h
      if (x.throttled ∨ x.suspended) ∧ t100 ≤ (c.tlim - (c.hyst : Int)) * 256 then
        let s := setMHead h (fun y => { y with throttled := false, suspended := false }) s
        reshift h (if x.suspended then mrkNotify 1 h x.hwm s else s)
      else s

/-! ## Pre-heat (R356, R357) -/

/-- The position crosses q_j − PRE_ADV: the train of the instant begins now, or as its LATCH allows (R356). -/
def preheatStart (h : Nat) (j : Int) (s : State) : State :=
  if (tabGet s.cfg.heads h).isNone ∨ (mhead s h).hwm ≥ j ∨ ! webReaches s (fireAt s h j - (preheatOf s h).adv) true then s else
  flushTrain h (setMHead h (fun x => { x with
    crossed := (j, s.now) :: x.crossed.filter fun e => e.1 != j && decide (x.hwm < e.1)
    pre := match x.pre with | some q => if q.1 = j then none else x.pre | none => none }) s)

/-! ## Fire instants (R345, R353, R367, R370, R371) -/

/-- The main pulse of one instant that shift `k` latched: the shift and the LATCH pulse, both put on record here, MH_FIRE, and
a pre-heat train cut short (R345, R356). -/
def mainPulse (h : Nat) (c : PMrkHeadConfig) (k : Shift) (noz : List Nat) (s : State) : State :=
  let s := flushTrain h s
  let cut := match (mhead s h).pre with | some p => p.1 == k.inst && decide (s.now < p.2) | none => false
  let s := setMHead h (fun x => { x with lastFire := some s.now, pulse := true, pre := none, shift := none, latchQ := none
                                         crossed := x.crossed.filter fun e => decide (k.inst < e.1) }) s
  let s := if cut then bump (mhReg h 0x1C) 1 (rset (mrkBase + 4) 4 s) else s
  emit (.pin pinMhFire h true) (emit (.fired h k.inst (shiftData s h c.nozzles noz)) (shiftOut h c k noz s))

/-- Settles the dots of one instant, fired or missed with the cause given; dots placed as missed keep their own (R366, R378). -/
def settleInstant (h : Nat) (j : Int) (cause : Option Nat) (ds : List Dot) (s : State) : State :=
  let why : Dot → Option Nat := fun d => if d.cause = 255 then cause else some d.cause
  let s := missInstant h j (ds.filterMap fun d => (why d).map fun c => (c, d.noz)) s
  ds.foldl (fun s d => settleDot (why d).isSome s d.mark) s

/-- Less than T_min since the previous main pulse began (R367). -/
def tooSoon (s : State) (c : PMrkHeadConfig) (x : MHead) : Bool :=
  match x.lastFire with | some t => decide ((s.now - t) * c.fmax < secPs) | none => false

/-- The shift of an instant whose LATCH has fallen (R345). -/
def latchedAt (s : State) (x : MHead) (j : Int) : Option Shift :=
  match x.shift with | some k => if k.inst = j ∧ k.fall ≤ s.now then some k else none | none => none

/-- An instant does not fire: what was latched for it stands on record (R345). -/
def unfired (h : Nat) (c : PMrkHeadConfig) (j : Int) (live : List Dot) (s : State) : State :=
  match latchedAt s (mhead s h) j with
  | some k => setMHead h (fun x => { x with shift := none }) (shiftOut h c k (live.map fun d => d.noz) (flushTrain h s))
  | none => s

/-- A fire instant in the buffer, or one of a head that is not in production. The rules give no cause to an instant that comes
within EN_SETTLE or before its data has been latched: the cause is free (log 219). -/
def fireBuffered (h : Nat) (c : PMrkHeadConfig) (j : Int) (ds : List Dot) (s : State) : State :=
  let x := mhead s h
  let live := ds.filter fun d => d.cause == 255
  if live.isEmpty then settleInstant h j none ds s
  else if headMode s h = 2 then settleInstant h j (some 5) ds (unfired h c j live s)
  else if x.suspended then settleInstant h j (some 2) ds (unfired h c j live s)
  else if tooSoon s c x then
    let s := unfired h c j live s
    settleInstant h j (some 1) ds (mrkNotify 4 h j (publish (0x0620 + h) (bump (mhReg h 0x10) 1 (rset (mrkBase + 4) 1 s))))
  else
    match (if production s h ∧ x.en ∧ x.settleTo ≤ s.now then latchedAt s x j else none) with
    | some k => settleInstant h j none ds (mainPulse h c k (live.map fun d => d.noz) s)
    | none =>
      let r := takeNat (unfired h c j live s)
      settleInstant h j (some (r.1 % 8)) ds r.2

/-- An instant that is not in the buffer: its flag, count, event and notification (R370, R371). -/
def underrun (h : Nat) (j : Int) (s : State) : State :=
  mrkNotify 3 h j (publish (0x0610 + h) (bump (mhReg h 0x14) 1 (rset (mrkBase + 4) 0 s)))

/-- FIRE_HWM becomes j, the dots of instant j are taken out, and `f` treats them; dots at instants below are LATE (R363). -/
def passInstant (h : Nat) (j : Int) (f : List Dot → State → State) (s : State) : State :=
  let s := match (mhead s h).shift with | some k => if k.inst < j then dropShift h s else s | none => s
  let s := dropDots h 4 (fun d => decide (d.inst < j)) s
  let ds := (mhead s h).dots.filter fun d => d.inst == j
  let s := setMHead h (fun x => { x with hwm := j, seen := max x.seen j, top := max x.top j, dots := x.dots.filter fun d => d.inst != j }) s
  f ds s

/-- What follows an instant: the count of R374, the next shift, waiting marks, and a fall of the level below LOW (R371). -/
def afterInstant (h : Nat) (before : Nat) (s : State) : State := judgeLow h before (retryPending (reshift h (countHot h s)))

/-- The web axis crosses q_j of head h (R353). -/
def fireInstant (h : Nat) (j : Int) (fwd : Bool) (s : State) : State :=
  match tabGet s.cfg.heads h with
  | none => s
  | some c =>
    let x := mhead s h
    let held := match x.jr with | some r => j != r || decide (x.top < r) | none => false
    if ! fwd ∨ j ≤ x.hwm ∨ ! webReaches s (fireAt s h j) true then s
    else if held then setMHead h (fun y => { y with seen := max y.seen j }) s
    else
      let before := bufLevel x
      let s := setMHead h (fun y => { y with jr := none, backed := false }) s
      if ! runningState s.dev.state then
        countHot h (missInstant h j [] (setMHead h (fun y => { y with hwm := j, seen := max y.seen j, top := max y.top j }) s))
      else if production s h ∧ x.top < j then
        if s.cfg.lineMode.mode = 0 ∨ s.mrk.skipMode then
          afterInstant h before (passInstant h j (settleInstant h j (some 0)) (underrun h j s))
        else
          let s := dropDots h 4 (fun d => decide (d.inst < j)) s
          underrun h j (setMHead h (fun y => { y with jr := some j, hwm := j - 1, seen := max y.seen j, top := j - 1 }) s)
      else afterInstant h before (passInstant h j (fireBuffered h c j) s)

/-- Ring lines enter a head's buffer; lines that came poisoned are missed with cause UNDERRUN (R368, R646). -/
def markFetchDone (h count : Nat) (poison : List Int) (s : State) : State :=
  if (tabGet s.cfg.heads h).isNone ∨ ! runningState s.dev.state then s else
  let bad : Dot → Dot := fun d => if d.cause = 255 ∧ poison.contains d.inst then { d with cause := 0 } else d
  reshift h (setMHead h (fun x => { x with top := min (max x.top x.hwm + count) (x.hwm + 256), dots := x.dots.map bad }) s)

/-- LDACK did not rise: requests end, and held and later unbuffered instants are skipped (R372). -/
def stopTimeout (s : State) : State :=
  if ! s.mrk.stop ∨ s.mrk.acked ∨ s.now < s.mrk.stopAt + s.cfg.lineMode.stopMs * ms then s else
  let s := setDrive s.mrk.slow false false (setMrk (fun m => { m with skipMode := true }) (rset (mrkBase + 4) 6 s))
  s.mrk.heads.foldl (fun s e =>
    let s := setMHead e.1 (fun x => { x with asked := false }) s
    match e.2.jr with
    | none => s
    | some r =>
      let n := (e.2.seen - r).toNat
      let s := setMHead e.1 (fun x => { x with jr := none, backed := false }) s
      reshift e.1 ((List.range (n + 1)).foldl (fun s (i : Nat) =>
        passInstant e.1 (r + i) (settleInstant e.1 (r + i) (some 0)) (if i = 0 then s else underrun e.1 (r + i) s)) s)) s

/-- A main pulse ends (R345). -/
def mainPulseEnd (h : Nat) (s : State) : State :=
  match tabGet s.cfg.heads h, (mhead s h).lastFire with
  | some c, some t =>
    if (mhead s h).pulse ∧ t + c.wMain * ns ≤ s.now then reshift h (emit (.pin pinMhFire h false) (setMHead h (fun x => { x with pulse := false }) s)) else s
  | _, _ => s

/-- EN_SETTLE has passed (R346). -/
def enSettleEnd (h : Nat) (s : State) : State := reshift h s

/-- A fire instant of FIXED pacing comes due at the rate set; no dead nozzle fires (R355, R364). -/
def serviceFireTick (h : Nat) (s : State) : State :=
  let x := mhead s h
  match x.svc, tabGet s.cfg.heads h with
  | some v, some c =>
    if headMode s h ≠ 2 ∨ ! x.en ∨ s.now < x.settleTo + (20 + c.latchW) * ns ∨ x.suspended ∨ s.now < v.next then s else
    let map := (tabGet s.cfg.pattern h).getD []
    let noz := (List.range c.nozzles).filter fun i => nozPresent s h i && ! calDead (calOf s h) i && (! v.loaded || bit (nth map (i / 8)) (i % 8))
    let s := setMHead h (fun y => { y with svc := if v.left ≤ 1 then none else some { v with left := v.left - 1, next := v.next + secPs / v.rate } }) s
    countHot h (if noz.isEmpty then s else mainPulse h c ⟨0, s.now - (40 + c.latchW) * ns - shiftPs s h c, s.now - 20 * ns⟩ noz s)
  | _, _ => s

/-! ## HEAD_EN, a new origin, and the end of marking (R346, R353, R379) -/

/-- Whether HEAD_EN of a head is to be high (R346), the AON gate and a Block reset of MRK permitting (R347, R387). -/
def enWanted (s : State) (h : Nat) : Bool :=
  (tabGet s.cfg.heads h).isSome && headMode s h != 0 && ! s.rcp.gate && (tabGet s.rcp.wraps 39).isNone && (s.dev.state == .configured || runningState s.dev.state)

def judgeEn (s : State) (h : Nat) : State :=
  let x := mhead s h
  let on := enWanted s h
  if x.en = on then s
  else if on then
    let c := match tabGet s.cfg.heads h with | some c => c.enSettle | none => 0
    reshift h (emit (.pin pinHeadEn h true) (setMHead h (fun y => { y with en := true, settleTo := s.now + c * ms }) s))
  else
    let s := dropShift h (if x.pulse then emit (.pin pinMhFire h false) s else s)
    emit (.pin pinHeadEn h false) (setMHead h (fun y => { y with en := false, pulse := false, pre := none, crossed := [], svc := none }) s)

/-- FIRE_HWM from the position; instants passed over are LATE (R353). -/
def hwmSet (h : Nat) (j : Int) (s : State) : State :=
  let before := bufLevel (mhead s h)
  let s := dropDots h 4 (fun d => decide (d.inst ≤ j)) (dropShift h s)
  judgeLow h before (reshift h (setMHead h (fun x => { x with hwm := j, seen := j, top := j, jr := none, backed := false, latchQ := none, crossed := [], counted := [] }) s))

def markOrigin (s : State) : State :=
  if s.mrk.origin then
    retryPending ((markHeads s).foldl (fun s e => hwmSet e.1 (hwmBelow s e.1) s) (setMrk (fun m => { m with origin := false }) s))
  else s

/-- Every mark not yet fired is missed with cause STOP, and the line drive's requests end (R379). -/
def markStop (s : State) : State :=
  let s := s.mrk.heads.foldl (fun s e => setMHead e.1 (fun x => { x with jr := none, backed := false, asked := false }) (dropDots e.1 7 (fun _ => true) (dropShift e.1 s))) s
  let wait := s.mrk.inbox.map PendMark.mark ++ s.mrk.pend
  let s := wait.foldl (fun s p => missMark 7 p s) (setMrk (fun m => { m with inbox := [], pend := [] }) s)
  setDrive false false false s

/-- Marking as the running states are entered: the rings and buffers are empty; FIRE_HWM stands as it is (R353, R362). -/
def markArm (s : State) : State :=
  (markHeads s).foldl (fun s e => setMHead e.1 (fun x =>
    { x with seen := x.hwm, top := x.hwm, dots := [], jr := none, backed := false, asked := false, latchQ := none, counted := [] }) s)
    (setMrk (fun m => { m with skipMode := false, slowOff := none }) s)

/-- What marking does after every command: a new origin, the end of the running states, HEAD_EN, and the line drive. -/
def markFinish (s : State) : State :=
  let s := markOrigin s
  let busy := ! s.mrk.inbox.isEmpty || ! s.mrk.pend.isEmpty || s.mrk.slow || s.mrk.stop || s.mrk.rev || s.mrk.heads.any fun e => ! e.2.dots.isEmpty || e.2.jr.isSome
  let s := if ! runningState s.dev.state ∧ busy then markStop s else s
  judgeStop (judgeSlow ((List.range 16).foldl judgeEn s))

/-! ## Measuring a test print (R383, R384) -/

/-- The stream whose PLANE node feeds node i, through the first inputs (R256, R383); `n` bounds the chain. -/
def feedStream (ns : Tab PGraphNode) : Nat → Nat → Nat
  | 0, _ => 0
  | n + 1, i => match tabGet ns i with
    | some x => if x.kernel = kPlane then nparN x 0 else feedStream ns n (nth x.inputs 0)
    | none => 0

/-- The DOT_MEASURE nodes of the verification graph, each with the stream that feeds it (R382, R383). -/
def dotNodes (s : State) : List (PGraphNode × Nat) :=
  match verifySlot s with
  | some v =>
    let ns := gnodes s.cfg.graph v
    (ns.filter fun e => e.2.kernel == kDots).map fun e => (e.2, feedStream ns ns.length e.1)
  | none => []

/-- Ink pixels of a row within a dot's window: their number, Σe and Σe·x with x in 1/131,072 nm. -/
def inkSums (nd : PGraphNode) (g : PMrkVerifyGeometry) (lo hi : Int) (row : List Int) : Nat × Nat × Int :=
  (row.mapIdx fun i v => (i, v)).foldl (fun (a : Nat × Nat × Int) iv =>
    let x := g.cd0 * 131072 + (2 * iv.1 + 1 : Nat) * (g.pcd : Int)
    let e := if npar nd 1 = 1 then iv.2 - npar nd 2 else npar nd 2 - iv.2
    if lo ≤ x ∧ x ≤ hi ∧ npar nd 3 ≤ e then (a.1 + 1, a.2.1 + e.toNat, a.2.2 + e * x) else a) (0, 0, 0)

/-- The highest (i mod 8) of a present nozzle, and the print's last line (R381, R383). -/
def lastPrintLine (s : State) (h : Nat) (p : Print) : Int :=
  let n := match tabGet s.cfg.heads h with | some c => c.nozzles | none => 0
  let m := (List.range (min n 1024)).foldl (fun m i => if nozPresent s h i then max m (i % 8) else m) 0
  p.j0 + ((p.r - 1) * 8 * p.s + m * p.s : Nat)

/-- One line of the verification camera passes DOT_MEASURE: MD y, pixels `row`. -/
def measureRow (nd : PGraphNode) (g : PMrkVerifyGeometry) (h : Nat) (c : PMrkHeadConfig) (p : Print) (y : Int) (row : List Int) (s : State) : State :=
  let dots := ((List.range c.nozzles).filter fun i => nozPresent s h i).flatMap fun i => (List.range p.r).filterMap fun (k : Nat) =>
    let yj := (p.j0 + (k * 8 * p.s + i % 8 * p.s : Nat)) * (c.ph : Int)
    if 2 * (y - yj).natAbs ≤ p.s * c.ph then some (i, k, yj) else none
  dots.foldl (fun s d =>
    let x := nozX s h d.1
    let t := inkSums nd g ((x - 4 * (c.pitch : Int)) * 131072) ((x + 4 * (c.pitch : Int)) * 131072) row
    if t.1 = 0 then s else
    let key := d.1 * 16 + d.2.1
    setMHead h (fun m =>
      let o := (tabGet m.sums key).getD (0, 0, 0, 0)
      { m with sums := tabPut m.sums key (o.1 + t.1, o.2.1 + t.2.1, o.2.2.1 + t.2.2, o.2.2.2 + t.2.1 * (y - d.2.2)) }) s) s

/-- Repetitions in which a nozzle's dot was found, and the mean CD and MD errors (R383, R384). -/
def nozzleErrors (s : State) (h least : Nat) (p : Print) (i : Nat) : Nat × Int × Int :=
  let x := nozX s h i
  let es := (List.range p.r).filterMap fun k => match tabGet (mhead s h).sums (i * 16 + k) with
    | some o => if least ≤ o.1 ∧ o.2.1 ≠ 0 then some (roundDivUp (o.2.2.1 - x * 131072 * o.2.1) (131072 * o.2.1), roundDivUp o.2.2.2 o.2.1) else none
    | none => none
  if es.isEmpty then (0, 0, 0)
  else (es.length, roundDivUp (es.foldl (fun a e => a + e.1) 0) es.length, roundDivUp (es.foldl (fun a e => a + e.2) 0) es.length)

/-- A number put in its place in a rising list. -/
def insertRising (x : Int) : List Int → List Int
  | [] => [x]
  | y :: r => if x ≤ y then x :: y :: r else y :: insertRising x r

/-- The lower median of a list; 0 where it is empty. -/
def lowerMedian (xs : List Int) : Int :=
  let ys := xs.foldr insertRising []
  nthI ys ((ys.length - 1) / 2)

/-- The proposed calibration (R384, R385). A nozzle not found often enough is dead, present or not; a head without a live
nozzle keeps its delay (log 38). -/
def proposal (s : State) (h : Nat) (c : PMrkHeadConfig) (p : Print) (takeMax : Nat) (es : List (Nat × Int × Int)) : List Nat :=
  let old := calOf s h
  let at_ : Nat → Nat × Int × Int := fun i => es.getD i (0, 0, 0)
  let live : Nat → Bool := fun i => decide (i < c.nozzles) && decide (ceilDiv p.r 2 ≤ (at_ i).1)
  let gone : Nat → Bool := fun i => decide (i < c.nozzles) && ! live i
  let all := (List.range 1024).filter live
  let delay := if all.isEmpty then calDelay old else calDelay old - lowerMedian (all.map fun i => (at_ i).2.2)
  let off : Nat → Int := fun g =>
    let ls := all.filter fun i => i / 16 == g
    if ls.isEmpty then calOff old g else calOff old g + roundDivUp (ls.foldl (fun a i => a + (at_ i).2.1) 0) ls.length
  let x : Nat → Int := fun i => c.x0 + i * (c.pitch : Int) + off (i / 16)
  let reach := if takeMax = 0 then c.pitch else takeMax
  let near : Nat → Option Nat := fun i => all.foldl (fun m k => match m with
    | some b => if (x k - x i).natAbs < (x b - x i).natAbs then some k else some b
    | none => some k) none
  let take : Nat → Nat := fun i => if ! gone i then 0 else match near i with
    | some k => if (x k - x i).natAbs ≤ reach then k + h * 1024 + 32768 else 0
    | none => 0
  let dead := (List.range 128).map fun b => (List.range 8).foldl (fun m k => if gone (b * 8 + k) then m + 2 ^ k else m) 0
  let head := [h, 0, 1, 0] ++ leBytes 4 delay ++ leBytes 2 (roundDivUp (toSigned 16 (mhead s h).temp * 100) 256) ++ leBytes 2 s.mon.tj ++ [s.mon.loadClass, 0, 0, 0]
  calSeal (head ++ ((List.range 64).flatMap fun g => leBytes 4 (off g)) ++ dead ++ (List.range 1024).flatMap fun i => leBytes 2 (take i))

/-- The pattern has passed the camera: the proposal is formed, and MRK.MEASURED raised (R383). -/
def measured (nd : PGraphNode) (g : PMrkVerifyGeometry) (h : Nat) (c : PMrkHeadConfig) (p : Print) (s : State) : State :=
  let es := (List.range c.nozzles).map fun i => nozzleErrors s h (nparN nd 4) p i
  let b := proposal s h c p g.takeoverMax es
  let s := setMrk (fun m => { m with prop := tabPut m.prop h b }) (setMHead h (fun x => { x with found := es, sums := [], print := some { p with done := true } }) s)
  mrkNotify 2 h (mhead s h).hwm (publish 0x0632 s)

/-- A verification line with its image row passes a DOT_MEASURE node that stream `st` feeds (R383). -/
def measureLine (q : Int) (s : State) (d : (PGraphNode × Nat) × List Int) : State :=
  let nd := d.1.1
  let h := nparN nd 0
  match tabGet s.cfg.heads h, (mhead s h).print, tabGet s.cfg.verifyGeo d.1.2 with
  | some c, some p, some g =>
    if p.done then s else
    let y := q - g.omd
    let s := measureRow nd g h c p y d.2 s
    if (2 * lastPrintLine s h p + p.s) * (c.ph : Int) < 2 * y then measured nd g h c p s else s
  | _, _, _ => s

/-- LINE_ANALYSED: cluster k analyses its next line, and the columns that its camera stream gives of a verification line also pass DOT_MEASURE (R253, R383). -/
def analysedLine (k : Nat) (verify : Bool) (p : ElxPoison) (s : State) : State :=
  let rows : Int × List ((PGraphNode × Nat) × List Int) :=
    if ! verify ∨ (dotNodes s).isEmpty then (0, []) else
    match s.elx.ver.backlog, verifySlot s with
    | l :: _, some v =>
      let ns := gnodes s.cfg.graph v
      let bg := if l.restart then [] else s.elx.ver.bg
      let lines := if l.restart then 0 else s.elx.ver.lines
      let r := pixelRows ns true l p.line 0 (verifyWidth s ns) lines bg
      (l.q, (dotNodes s).map fun d => (d, owned (match tabGet s.cfg.streams d.2 with | some c => c.width | none => 0) ((tabGet r.1 (nth d.1.inputs 0)).getD [])))
    | _, _ => (0, [])
  let t := lineAnalysed k verify p s
  if t.elx.ver.backlog.length < s.elx.ver.backlog.length then rows.2.foldl (measureLine rows.1) t else t

end Sys2Proof.Machine
end

