-- ==== Sys2Proof/Machine/Ingest.lean ====
section
/-! DEFINITION. Sys2Proof/Machine/Ingest.lean: packets of the camera ports on their way in (R131, R132, R152, R172, R391): order,
refusal, correction, the web image, the verification graph and the area frames. -/

namespace Sys2Proof.Machine

/-- A port takes packets while its link is UP and its lanes are ACTIVE (R144, R149, R151). -/
def takes (s : State) (n : Nat) : Bool := (port s n).link == 2 && (port s n).mode == 0

/-- What a row's lanes cost a port in counts: header errors, codewords, symbols, and packets whose header is corrupted (R121, R123, R131, R161). -/
def wireCounts (ty : Nat) (k : Pkt) (s : State) : State :=
  match k.wire with
  | none => s
  | some w =>
    let b := cptBase k.port
    let lost := badStarts (portBlocks (port s k.port) w) ty
    let s := (portGot (port s k.port) w).foldl (fun s g =>
      let s := bump (b + 0x4C) g.hdrErr (bump (b + 0x48) g.cws.syms (bump (b + 0x44) g.cws.uncorr (bump (b + 0x40) g.cws.corr s)))
      if 0 < g.cws.uncorr then rset (b + 4) 1 s else s) s
    if lost = 0 then s else rset (b + 4) 6 (bump (b + 0x50) lost s)

/-- A packet row of type `ty` on a port that takes packets: the packet that its receivers make of it. -/
def packetIn (ty : Nat) (f : Pkt → State → State) (k : Pkt) (s : State) : State :=
  if ! takes s k.port then s else
  match received (port s k.port) ty k with
  | some rx => f rx (wireCounts ty k s)
  | none => wireCounts ty k s

/-- The setting of a stream, which takes effect when its port is opened (R133). -/
def streamOf (s : State) (port i : Nat) : Option PStreamSet :=
  if (tabGet s.cfg.ports port).isSome then tabGet s.cfg.streams (port * 8 + i) else none

/-- Web lines that can be entered go to the array, the live views and the web history (R192, R254, R418, R475). -/
def enterLine (s : State) (l : WebLine) : State := histLine (viewLines (admitTo [l] s) l) l

def enterLines (s : State) : State :=
  if wrapClosed 32 s then s else
  let r := stitch s
  r.1.foldl enterLine r.2

/-! ## The verification port (R380) -/

/-- The streams that the verification graph's PLANE nodes name. -/
def verifyStreams (s : State) : List Nat :=
  match verifySlot s with
  | some v => ((gnodes s.cfg.graph v).filter fun e => e.2.kernel == kPlane).map fun e => nparN e.2 0
  | none => []

/-- A line whose streams are all in enters the verification graph; lines exposed before it that are not whole are dropped (log 36). -/
def verifyLine (stream : Nat) (x : Trig) (px : List Nat) (s : State) : State :=
  let put : VSlot → VSlot := fun v => if v.g = x.gen ∧ v.n = x.line ∧ v.t = x.tExp then { v with px := tabPut v.px stream px } else v
  let vs := s.fep.vslots.map put
  let whole : VSlot → Bool := fun v => v.g == x.gen && decide (v.n = x.line) && v.t == x.tExp && (verifyStreams s).all fun st => (tabGet v.px st).isSome
  match vs.find? whole with
  | none => setFep (fun f => { f with vslots := vs }) s
  | some v =>
    let port := match s.cfg.verify with | some c => c.port | none => 0
    let planes := (List.range 8).map fun i => (tabGet v.px (port * 8 + i)).getD []
    let l : WebLine := { n := v.n, strip := Int.fdiv v.n 4096, lost := 0, short := false, sec := v.sec, ns := v.ns, restart := false
                         stripEnd := false, planes := planes, q := v.q }
    admitVerify l (setFep (fun f => { f with vslots := vs.filter fun w => decide (v.t < w.t) }) s)

/-! ## LINE packets (R131, R132, R172, R173) -/

def lostEvent (n : Nat) (s : State) : State := publish (0x0120 + n) s

/-- A LINE packet that no line of the port expects is discarded; where a check of R131 fails as well, that is a lost line (R131, R132). -/
def discardLine (k : Pkt) (s : State) : State :=
  let s := pktDiscard 1 k s
  if pktBad 1 65536 k then lostEvent k.port s else s

/-- The line of a TRIGGER is reported lost to the front end (R131, R132, R190). -/
def loseLineOf (stream : Nat) (x : Trig) (s : State) : State :=
  let s := fillSlot stream x.line x.tExp .lost (lostEvent (stream / 8) s)
  setFep (fun f => { f with vslots := f.vslots.filter fun v => ! (v.g == x.gen && decide (v.n = x.line) && v.t == x.tExp && (verifyStreams s).contains stream) }) s

/-- A packet that the front end refuses is discarded whole by its port (R133, R172, R173). -/
def refusePacket (k : Pkt) (stream why : Nat) (s : State) : State :=
  let s := rset (cptBase k.port + 4) 2 (bump (cptBase k.port + 0x54) 1 s)
  lostEvent k.port (feRefused k.port stream why k.index s)

/-- The newest FRAME_START of a stream (R90, R417). -/
def noteFrame (k : Pkt) (s : State) : State := setPort k.port (fun p => { p with frames := tabPut p.frames (k.stream % 8) k.index }) s

/-- The newest index of a stream, for apply-at keys (R90). -/
def noteIndex (k : Pkt) (s : State) : State := setPort k.port (fun p => { p with seen := tabPut p.seen (k.stream % 8) k.index }) s

/-- The clusters whose bands a port's streams feed, the verification graph's among them (R48). -/
def fedBy (s : State) (n : Nat) : Nat :=
  let web := match s.cfg.geom with
    | some g => ((webStreams s).filter fun e => e.1 / 8 = n).foldl (fun m e => m ||| spanBands g e.2.1) 0
    | none => 0
  match s.cfg.verify with
  | some v => if v.port = n then web ||| 2 ^ v.cluster else web
  | none => web

/-- LINE_START of a port, which wakes the clusters that the port feeds (R48, R152). -/
def lineStart (n : Nat) (s : State) : State := wakeClusters (fedBy s n) (publish (0x0100 + n) s)

/-- An accepted LINE packet: LINE_START, its lane, and its pixels (R152, R172, R174). -/
def acceptLine (k : Pkt) (c : PStreamSet) (s : State) : List Nat × State :=
  (unpackLine c.fmt c.width k.data, laneTake k.port c.width (lineStart k.port (noteIndex k s)))

/-- Whether lines of this stream go to the web image. -/
def isWeb (s : State) (stream : Nat) : Bool := (webStreams s).any fun e => e.1 == stream

/-- Missing lines by index (R132). -/
def countGap (n missing : Nat) (s : State) : State :=
  if missing = 0 then s else rset (cptBase n + 4) 3 (bump (cptBase n + 0x58) missing s)

/-- A LINE packet of a triggered stream (R132). -/
def triggeredLine (k : Pkt) (c : PStreamSet) (s : State) : State :=
  let i := k.stream % 8
  let stream := k.port * 8 + i
  let ts := (tabGet (port s k.port).trigs i).getD []
  match ts.findIdx? fun x => toUnsigned 48 x.line == k.index with
  | none => discardLine k s
  | some j =>
    let s := setPort k.port (fun p => { p with trigs := tabPut p.trigs i (ts.drop (j + 1)) }) s
    let s := (ts.take j).foldl (fun s x => loseLineOf stream x s) (countGap k.port j s)
    let x := ts.getD j ⟨0, 0, 0⟩
    if pktBad 1 65536 k then loseLineOf stream x (pktDiscard 1 k s)
    else if wrapClosed 32 s then loseLineOf stream x (isoErr s)
    else if isWeb s stream ∧ ! ingests (x.tExp - s.lnk.eUse * ns) s then lineStart k.port (noteIndex k s)
    else
      let why := feRefuses k.port c k.fmt k.length s
      if why ≠ 0 then loseLineOf stream x (refusePacket k stream why s)
      else
        let a := acceptLine k c s
        let r := correctLine stream k.index a.1 a.2
        if portKind s k.port = 2 then verifyLine stream x r.1 r.2
        else fillSlot stream x.line x.tExp (.got r.1) r.2

/-- A LINE packet of a free-running stream (R132). The first of a stream is the one expected (log 210). -/
def freeLine (k : Pkt) (c : PStreamSet) (s : State) : State :=
  let i := k.stream % 8
  let stream := k.port * 8 + i
  let want := (tabGet (port s k.port).next i).getD k.index
  if ! reached k.index want then discardLine k s
  else
    let missing := (k.index + 2 ^ 48 - want) % 2 ^ 48
    let s := countGap k.port missing s
    let s := if missing = 0 then s else lostEvent k.port s
    let s := setPort k.port (fun p => { p with next := tabPut p.next i ((k.index + 1) % 2 ^ 48) }) s
    if pktBad 1 65536 k then lostEvent k.port (pktDiscard 1 k s) else
    if wrapClosed 32 s then lostEvent k.port (isoErr s) else
    let why := feRefuses k.port c k.fmt k.length s
    if why ≠ 0 then refusePacket k stream why s
    else
      let a := acceptLine k c s
      (correctLine stream k.index a.1 a.2).2

/-- A row of an area stream (R391). A row that is lost is repaired at the end of its frame. -/
def areaLine (k : Pkt) (c : PStreamSet) (s : State) : State :=
  let stream := k.port * 8 + k.stream % 8
  if pktBad 1 65536 k then lostEvent k.port (pktDiscard 1 k s) else
  if wrapClosed 32 s then lostEvent k.port (isoErr s) else
  let why := feRefuses k.port c k.fmt k.length s
  if why ≠ 0 then refusePacket k stream why s
  else
    let a := acceptLine k c s
    let a := (a.1, captureLine stream 0 a.1 a.2)
    if runningState s.dev.state then toBlock 33 (areaRow stream k.index a.1) (fun s => s) a.2 else a.2

/-- A LINE packet arrives. One of a stream that has no STREAM_SET is discarded; with a bad HCRC no field of it can be relied on. -/
def lineIn (k : Pkt) (s : State) : State :=
  if k.hcrc ≠ crc16 (pktHeader 1 k) then lostEvent k.port (pktDiscard 1 k s) else
  match streamOf s k.port (k.stream % 8) with
  | none => discardLine k s
  | some c =>
    if portKind s k.port = 1 then areaLine k c s
    else enterLines (if c.trig = 255 then freeLine k c s else triggeredLine k c s)

/-! ## The other packet types -/

/-- An accepted FRAME_START of a stream with a STREAM_SET raises FRAME_START, and begins a frame unless the front end or the pipeline is isolated (R152,
R391, R582). That of a stream without one is ignored (log 233). -/
def frameStartIn (k : Pkt) (s : State) : State :=
  if pktBad 2 12 k then pktDiscard 2 k s
  else if (streamOf s k.port (k.stream % 8)).isNone then s
  else
    let s := noteFrame k (publish (0x0110 + k.port) s)
    if runningState s.dev.state then
      toBlock 32 (toBlock 33 (fun s => frameStart (k.port * 8 + k.stream % 8) k.index (leAt k.data 0 4) (leAt k.data 4 4) (leAt k.data 8 4) s) fun s => s) (fun s => s) s
    else s

def frameEndIn (k : Pkt) (s : State) : State :=
  if pktBad 3 8 k then pktDiscard 3 k s
  else if runningState s.dev.state then toBlock 32 (toBlock 33 (frameEnd (k.port * 8 + k.stream % 8)) fun s => s) (fun s => s) s
  else s

def metadataIn (k : Pkt) (s : State) : State :=
  if pktBad 4 4096 k then pktDiscard 4 k s
  else toBlock 32 (metaSwitch k.port (k.stream % 8) k.index k.data) (fun s => s) s

/-! ## Link loss (R151) -/

/-- Every line outstanding on a port is lost. -/
def loseOutstanding (n : Nat) (s : State) : State :=
  let all := (List.range 8).flatMap fun i => ((tabGet (port s n).trigs i).getD []).map fun x => (n * 8 + i, x)
  let drop : VSlot → Bool := fun v => match s.cfg.verify with | some c => c.port == n && all.any fun e => e.2.gen == v.g && decide (e.2.line = v.n) && e.2.tExp == v.t | none => false
  let s := setPort n (fun p => { p with trigs := [], next := [] }) s
  let s := setFep (fun f => { f with vslots := f.vslots.filter fun v => ! drop v }) s
  enterLines (all.foldl (fun s e => fillSlot e.1 e.2.line e.2.tExp .lost s) s)

/-- What the physical lanes' receivers see goes into their locks (R124). A lane that loses its lock is not locked, though it gains it again before the
row's end: its port goes DOWN (R151). -/
def hearLanes (n : Nat) (heard : List (List Heard)) (s : State) : State :=
  setPort n (fun p => { p with lanes := p.lanes.map fun l =>
    let r := hearAll p.rate p.fec (heard.getD l.phys []) l.rx
    { l with rx := r.1, locked := l.locked && r.1.mlk && ! r.2, lag := (latencyLag s r.1).orElse fun _ => l.lag } }) s

/-- An UP port whose lanes are not DORMANT goes on receiving, and loses marker lock on a lane, or its forwarded clock (R144, R151). -/
def linkDown (n : Nat) (clock : Bool) (heard : List (List Heard)) (s : State) : State :=
  if (port s n).link ≠ 2 ∨ (port s n).mode = 2 then s else
  let s := hearLanes n heard s
  if ! clock ∧ ((port s n).lanes.take (port s n).nLanes).all (fun l => l.locked) then s else
  let s := dropWaits n (setLink n 3 eDevice none s)
  let s := publish (0x0130 + n) (rset (cptBase n + 4) 0 (bump (cptBase n + 0x68) 1 s))
  loseOutstanding n (setPort n (fun p => { p with
    clkOk := p.clkOk && ! clock, deskewed := false, retryAt := s.now + 100 * ms
    lanes := p.lanes.map fun l => { l with locked := l.locked && ! clock } }) s)

end Sys2Proof.Machine
end

