-- ==== Sys2Proof/Machine/Nvs.lean ====
section
/-! DEFINITION. Sys2Proof/Machine/Nvs.lean: the two-copy records of the external flash and the queue of their writes (R596 to
R600, R606, R612, R615, R616). -/

namespace Sys2Proof.Machine

def setNvs (f : Nvs → Nvs) (s : State) : State := { s with nvs := f s.nvs }

/-- FW_NOTIFY, to every open session (R619). -/
def fwNotify (kind result status ver : Nat) (s : State) : State :=
  notifyWhere (fun _ _ => true) 0x10F0 0 [u8 kind, u8 result, u16 status, u32 ver] s

def recSlot : Nat := 0
def recSet : Nat := 1
def recCal : Nat := 2
def recCfg (k : Nat) : Nat := 3 + k

/-- The image of a record in memory (R600). -/
def recImage (s : State) (r : Nat) : NPay :=
  if r = recSlot then .slot s.nvs.slotImg
  else if r = recSet then .settings s.nvs.set
  else if r = recCal then .cal s.nvs.cal
  else match tabGet s.nvs.cfgs (r - 3) with
    | some c => .cfg c.1 c.2
    | none => .cfg {} []

/-! ## Where records lie in the flash, and their bytes (R596, R597) -/

/-- The flash address of a copy of a record, and the bytes of its region. -/
def copyRegion (r c : Nat) : Nat × Nat :=
  if r = recSlot then (c * 0x10000, 0x10000)
  else if r = recSet then (0x100000 + c * 0x10000, 0x10000)
  else if r = recCal then (0x300000 + c * 0x200000, 0x200000)
  else (0x120000 + (2 * (r - 3) + c) * 0x10000, 0x10000)

def stagingAt : Nat := 0x1800000

/-- The flash address of firmware slot k. -/
def fwSlotAt (k : Nat) : Nat := if k = 0 then 0x800000 else 0x1000000

/-- A record with its header (R597). -/
def recBytes (typ inst gen time : Nat) (pay : List Nat) : List Nat :=
  let h := leBytes 4 0x5243444B ++ [typ, 0] ++ leBytes 2 inst ++ leBytes 4 pay.length ++ leBytes 4 gen ++ leBytes 8 time ++ [0, 0, 0, 0]
  h ++ leBytes 4 (crc32c (h ++ pay)) ++ pay

/-- The payload of the slot state record (R606). -/
def slotBytes (x : SlotSt) : List Nat :=
  [x.active, x.previous, x.trial, x.staged, x.tries, x.result, x.check, 0] ++ leBytes 4 x.verA ++ leBytes 4 x.verB ++
    leBytes 4 x.stagedVer ++ leBytes 4 x.stagedLen ++ List.replicate 8 0

/-- A record's payload as bytes; those of the settings record and of a configuration slot have no form in the spec (log 224). -/
def payBytes (p : NPay) (s : State) : List Nat × State :=
  match p with
  | .slot x => (slotBytes x, s)
  | .cal xs => (xs.flatMap fun x => recBytes x.typ x.inst x.gen x.time x.bytes, s)
  | .settings _ | .cfg _ _ => let n := takeNat s; takeBytes (n.1 % 65505) n.2

/-- A copy is erased and written (R598). -/
def putCopy (r c : Nat) (x : NCopy) (s : State) : State :=
  let b := payBytes x.pay s
  let typ := if r = recSlot then 1 else if r = recSet then 2 else if r = recCal then 4 else 3
  let bs := recBytes typ (r - 3) x.gen x.time b.1
  emit (.flash (copyRegion r c).1 (copyRegion r c).2 bs) b.2

def copyAt (s : State) (r c : Nat) : Option NCopy := tabGet s.nvs.copies (2 * r + c)

def setCopy (r c : Nat) (x : Option NCopy) (s : State) : State :=
  setNvs (fun v => { v with copies := match x with | some y => tabPut v.copies (2 * r + c) y | none => tabDel v.copies (2 * r + c) }) s

/-- The copy a record is read from: the valid one with the higher generation, copy 0 when they are equal (R599). -/
def newestCopy (s : State) (r : Nat) : Option (Nat × NCopy) :=
  match copyAt s r 0, copyAt s r 1 with
  | some a, some b => if a.gen < b.gen then some (1, b) else some (0, a)
  | some a, none => some (0, a)
  | none, some b => some (1, b)
  | none, none => none

/-- Reads a record: TORN is set when exactly one copy is valid (R599). -/
def readRecord (r : Nat) (s : State) : Option NPay × State :=
  let one := (copyAt s r 0).isSome != (copyAt s r 1).isSome
  ((newestCopy s r).map fun e => e.2.pay, if one then rset (nvsBase + 4) 1 s else s)

/-- The copy that a write of a record erases first (R598). -/
def firstTarget (s : State) (r : Nat) : Nat :=
  match copyAt s r 0, copyAt s r 1 with
  | some a, some b => if b.gen < a.gen then 1 else 0
  | some _, none => 1
  | none, _ => 0

def nextGen (s : State) (r : Nat) : Nat :=
  match newestCopy s r with
  | some e => (e.2.gen + 1) % 2 ^ 32
  | none => 1

/-- The flash is programming or erasing. -/
def flashBusy (s : State) : Bool :=
  (match s.nvs.cur with | some w => w.on | none => false) || (match s.nvs.stage with | o :: _ => o.on | [] => false)

/-- An eFuse program pulse is in progress (R591). -/
def pulseOn (s : State) : Bool := match s.nvs.fuse with | some f => f.on | none => false

/-- NVS starts no new write: during a deferral (R571), and while its own Block reset is asserted. -/
def nvsHeld (s : State) : Bool := (match s.rcp.rst with | some r => r.defer.isSome | none => false) || (tabGet s.rcp.wraps 43).isSome

/-- Writes queued behind the one in progress (R600). -/
def queuedWrites (s : State) : Nat := s.nvs.queue.length + (s.nvs.stage.filter fun o => ! o.on).length

/-- Begins the next flash operation: a record write that was held, then staging, then a queued record write with the image as it stands (R600; DESIGN CHOICE: R600 does
not order staging against records, log 249). -/
def flashKick (s : State) : State :=
  match s.nvs.cur with
  | some w => setNvs (fun v => { v with cur := some { w with on := true } }) s
  | none => match s.nvs.stage with
    | o :: q => setNvs (fun v => { v with stage := { o with on := true } :: q }) s
    | [] => match s.nvs.queue with
      | [] => s
      | w :: q => setNvs (fun v => { v with cur := some { w with pay := some (recImage s w.rec_) }, queue := q }) s

/-- Begins the next pulse of a programming operation (R591). -/
def fuseKick (s : State) : State :=
  match s.nvs.fuse with
  | some f => if f.on then s else setNvs (fun v => { v with fuse := some { f with on := true, at_ := s.now } }) s
  | none => s

/-- Begins what the flash and the eFuse programmer have to do next. -/
def nvsKick (s : State) : State :=
  if nvsHeld s then s
  else
    let s := fuseKick s
    if flashBusy s ∨ ! s.nvs.found then s else flashKick s

/-- Queues a write of a record, or merges it with a queued write of the same record (R600). `undo` is the image that stands again should the write fail. -/
def nvsQueue (r : Nat) (w : List NWait) (undo : Option (Option NPay)) (s : State) : State :=
  if s.nvs.queue.any fun x => x.rec_ == r then
    setNvs (fun v => { v with queue := v.queue.map fun x => if x.rec_ = r then { x with waiters := x.waiters ++ w, undo := x.undo <|> undo } else x }) s
  else nvsKick (setNvs (fun v => { v with queue := v.queue ++ [{ rec_ := r, waiters := w, undo := undo }] }) s)

/-- A command's write of a record; none when it would be the 17th (R600). -/
def nvsWrite (r : Nat) (w : List NWait) (undo : Option (Option NPay)) (s : State) : Option State :=
  if (s.nvs.queue.any fun x => x.rec_ == r) ∨ queuedWrites s < 16 then some (nvsQueue r w undo s) else none

/-- A write that no command awaits. -/
def nvsPut (r : Nat) (s : State) : State := nvsQueue r [] none s

/-- A record's image, none where a configuration slot is empty. -/
def recHeld (s : State) (r : Nat) : Option NPay :=
  if 3 ≤ r ∧ (tabGet s.nvs.cfgs (r - 3)).isNone then none else some (recImage s r)

/-- A command whose reply follows a record write, which answers waiter `w`: `f` changes the image; refused with E_BUSY as a 17th write (R600). -/
def storeWith (r : Nat) (w : NWait) (f : State → State) (s : State) : Res :=
  match nvsWrite r [w] (some (recHeld s r)) (f s) with
  | some s => .later s
  | none => .no eBusy []

def storing (r : Nat) (tk : Ticket) (ps : List RV) (f : State → State) (s : State) : Res := storeWith r { tk := tk, ps := ps } f s

/-- A record's image is put back. -/
def putImage (r : Nat) (p : Option NPay) (s : State) : State :=
  setNvs (fun v => match p with
    | some (.slot x) => { v with slotImg := x }
    | some (.settings x) => { v with set := x }
    | some (.cal xs) => { v with cal := xs }
    | some (.cfg c b) => { v with cfgs := tabPut v.cfgs (r - 3) (c, b) }
    | none => { v with cfgs := tabDel v.cfgs (r - 3) }) s

/-- A write has failed: the image before it stands again, or, where a later write of the record is queued, would should that one fail too (log 172). -/
def takeBack (w : NWrite) (s : State) : State :=
  match w.undo with
  | none => s
  | some p =>
    if s.nvs.queue.any fun x => x.rec_ == w.rec_ then
      setNvs (fun v => { v with queue := v.queue.map fun x => if x.rec_ = w.rec_ then { x with undo := some p } else x }) s
    else putImage w.rec_ p s

/-- Whether a write is queued or in progress. -/
def nvsBusy (s : State) : Bool := s.nvs.cur.isSome || ! s.nvs.stage.isEmpty || s.nvs.fuse.isSome

/-- A record write given up: those who wait for it are refused, and the image before it stands again (R584, R600). -/
def dropWrite (waiter : NWait → Nat → State → State) (back : State → State → State) (w : NWrite) (s : State) : State :=
  let s := back s (takeBack w s)
  if w.waiters.isEmpty then fwNotify 4 0 eStore s.nvs.runVer s else w.waiters.foldl (fun s x => waiter x eStore s) s

/-- A record write ends (R598, R600). `second` says that an error came while the second copy was being written; `back` carries out what follows where the
image before a failed write stands again. -/
def writeDone (ok second : Bool) (waiter : NWait → Nat → State → State) (back : State → State → State) (s : State) : State :=
  match s.nvs.cur with
  | none => s
  | some w =>
    match if w.on then w.pay else none with
    | none => s
    | some pay =>
      let c : NCopy := ⟨nextGen s w.rec_, tmuNs s, pay⟩
      let a := firstTarget s w.rec_
      if ok then
        let s := setCopy w.rec_ 1 (some c) (setCopy w.rec_ 0 (some c) (putCopy w.rec_ (1 - a) c (putCopy w.rec_ a c s)))
        let s := bump (nvsBase + 0x40) 1 (setNvs (fun v => { v with cur := none }) s)
        nvsKick (w.waiters.foldl (fun s x => waiter x stOk s) s)
      else
        let s := if second then setCopy w.rec_ (1 - a) none (setCopy w.rec_ a (some c) (putCopy w.rec_ a c s)) else setCopy w.rec_ a none s
        if ! w.retried then setNvs (fun v => { v with cur := some { w with retried := true, on := ! nvsHeld s } }) s
        else
          let s := rset (nvsBase + 4) 0 (rset (nvsBase + 4) 2 (setNvs (fun v => { v with cur := none }) s))
          nvsKick (dropWrite waiter back w s)

/-- The end of a programming operation: the device returns from UPDATE to STANDBY before the reply (R76, R618). -/
def fuseEnd (f : FusePgm) (status : Nat) (ps : List RV) (s : State) : State :=
  let s := setNvs (fun v => { v with fuse := none }) s
  let s := if s.dev.state = .update then causedBy f.tk (setState .standby stOk) s else s
  answer f.tk status (if status = stOk ∧ f.key.isNone then ps else []) s

/-- Programs a bit of the field of an operation. -/
def fuseBit (f : FusePgm) (b : Nat) (s : State) : State :=
  setNvs (fun v => match f.key with
    | none => { v with secBits := b :: v.secBits }
    | some k => { v with revoked := tabPut v.revoked k ((tabGet v.revoked k).getD 0 ||| 2 ^ b) }) s

/-- A bit that has been read back as 1 stands in the shadow too (DEDUCED, log 52: R590 senses the shadow at a Chip release, and R611 has a raised minimum act
after its command). -/
def shadowBit (f : FusePgm) (b : Nat) (s : State) : State :=
  setNvs (fun v => match f.key with
    | none => { v with shadowSec := b :: v.shadowSec }
    | some k => { v with shadowKeys := tabPut v.shadowKeys k ((tabGet v.shadowKeys k).getD 0 ||| 2 ^ b) }) s

/-- The eFuse is sensed into its shadow (R590). -/
def senseFuses (s : State) : State := setNvs (fun v => { v with shadowKeys := v.revoked, shadowSec := v.secBits }) s

/-! ## The slot state record and images (R601, R602, R606) -/

def imgLen (b : List Nat) : Nat := leAt b 8 4
def imgVer (b : List Nat) : Nat := leAt b 12 4
def imgSec (b : List Nat) : Nat := leAt b 16 2
def imgKey (b : List Nat) : Nat := nth b 18

/-- Section i of an image: type, offset, length, CRC (R601). -/
def imgSection (b : List Nat) (i : Nat) : Nat × Nat × Nat × Nat :=
  (nth b (128 + 16 * i), leAt b (132 + 16 * i) 4, leAt b (136 + 16 * i) 4, leAt b (140 + 16 * i) 4)

def imgSections (b : List Nat) : List (Nat × Nat × Nat × Nat) := (List.range 3).map (imgSection b)

def zeros (b : List Nat) (o n : Nat) : Bool := ((b.drop o).take n).all (· == 0)

/-- Whether the reserved bytes of an image's header are 0 (R601). -/
def imgReserved (b : List Nat) : Bool :=
  zeros b 25 7 && zeros b 176 80 && zeros b 256 160 && (List.range 3).all fun i => zeros b (129 + 16 * i) 3

/-- Whether two sections share a byte. -/
def sectionsMeet (a b : Nat × Nat × Nat × Nat) : Bool := decide (a.2.1 < b.2.1 + b.2.2.1 ∧ b.2.1 < a.2.1 + a.2.2.1)

/-- Key slot k is revoked (R592). -/
def keyRevoked (s : State) (k : Nat) : Bool :=
  5 ≤ ((List.range 8).filter fun i => bit ((tabGet s.nvs.shadowKeys k).getD 0) i).length

/-- Consecutive 1 bits from bit 0 of the security-version field (R593). -/
def countSec (bits_ : List Nat) : Nat → Nat → Nat
  | 0, n => n
  | k + 1, n => if bits_.contains n then countSec bits_ k (n + 1) else n

def secMin (s : State) : Nat := countSec s.nvs.shadowSec 256 0

/-- The first failing check of R602, 0 where all pass. -/
def imgCheck (s : State) (b : List Nat) : Nat :=
  let n := imgLen b
  let im := b.take n
  let secs := imgSections b
  let pairs := [(0, 1), (0, 2), (1, 2)]
  if leAt b 0 4 ≠ 0x4D49444B ∨ leAt b 4 2 ≠ 1 ∨ leAt b 6 2 ≠ 512 ∨ nth b 19 ≠ 3 ∨ ! imgReserved b ∨ n < 512 ∨ 8388608 < n then 1
  else if leAt b 20 4 ≠ 0x9640 ∨ nth b 24 ≠ 0xA1 then 2
  else if 3 < imgKey b ∨ ! Config.keyMatches ((b.drop 32).take 96) (imgKey b) ∨ keyRevoked s (imgKey b) then 3
  else if ! Config.signatureOk im (imgKey b) then 4
  else if imgSec b < secMin s then 5
  else if ! ([1, 2, 3].all fun t => (secs.filter fun e => e.1 == t).length == 1) ∨
      ! (secs.all fun e => decide (512 ≤ e.2.1 ∧ e.2.1 % 64 = 0 ∧ e.2.1 + e.2.2.1 ≤ n)) ∨
      (pairs.any fun p => sectionsMeet (imgSection b p.1) (imgSection b p.2)) then 6
  else if ! (secs.all fun e => crc32c ((b.drop e.2.1).take e.2.2.1) == e.2.2.2) then 7
  else 0

/-- The status that a failing check gives (R602). -/
def checkStatus (k : Nat) : Nat := if k = 3 ∨ k = 4 ∨ k = 5 then eAuth else eFormat

/-- The bytes of a firmware slot: 0 A, 1 B. -/
def slotImage (s : State) (k : Nat) : List Nat := if k = 0 then s.nvs.slotA else s.nvs.slotB

def setSlotImage (k : Nat) (b : List Nat) (s : State) : State :=
  setNvs (fun v => if k = 0 then { v with slotA := b } else { v with slotB := b }) s

/-- The staged image: the bytes programmed, and 0xFF where nothing has been (an erased NOR flash reads 1s, log 51). -/
def stagedImage (s : State) : List Nat :=
  let n := s.nvs.stageLen.getD s.nvs.slotImg.stagedLen
  s.nvs.staging.foldl (fun b e => b.take e.1 ++ e.2 ++ b.drop (e.1 + e.2.length)) (List.replicate n 255)

/-- Changes the slot state record's image and its VERSION fields, which are 0 where the slot fails R602 (R606). -/
def setSlotImg (f : SlotSt → SlotSt) (s : State) : State :=
  let verOf : Nat → Nat := fun k => if imgCheck s (slotImage s k) = 0 then imgVer (slotImage s k) else 0
  setNvs (fun v => { v with slotImg := { f v.slotImg with verA := verOf 0, verB := verOf 1 } }) s

/-- A record written by the boot ROM: both copies, at once. -/
def bootWrite (r : Nat) (s : State) : State :=
  let c : NCopy := ⟨nextGen s r, tmuNs s, recImage s r⟩
  let a := firstTarget s r
  bump (nvsBase + 0x40) 1 (setCopy r 1 (some c) (setCopy r 0 (some c) (putCopy r (1 - a) c (putCopy r a c s))))

end Sys2Proof.Machine
end

