-- ==== Sys2Proof/Machine/Fault.lean ====
section
/-! DEFINITION. Sys2Proof/Machine/Fault.lean: the error logs (R648), leaving the running states (R79, R94), and entry to FAULT (R641,
R642). -/

namespace Sys2Proof.Machine

def setMon (f : Mon → Mon) (s : State) : State := { s with mon := f s.mon }

/-- AON ticks since the backup domain was powered (R551, R648). -/
def aonTicks (s : State) : Nat := (s.now - s.mon.aonAt) * 32768 / secPs

/-- An entry of the main log (R648). -/
def logMain (kind sev cls unit d0 d1 : Nat) (s : State) : State :=
  let e : LogEnt := ⟨s.mon.logNo + 1, tmuNs s, kind, sev, cls, unit, d0, d1⟩
  setMon (fun m => { m with log := (e :: m.log).take 256, logNo := m.logNo + 1 }) s

/-- An entry of the backup log (R648). -/
def logBack (kind sev cls unit d0 d1 : Nat) (s : State) : State :=
  let e : LogEnt := ⟨s.mon.blogNo + 1, aonTicks s, kind, sev, cls, unit, d0, d1⟩
  rput (monBase + 0x60) (s.mon.blogNo + 1) (setMon (fun m => { m with blog := (e :: m.blog).take 16, blogNo := m.blogNo + 1 }) s)

/-- The bytes of an entry (R648). -/
def logBytes (e : LogEnt) : List Nat :=
  leBytes 8 e.no ++ leBytes 8 e.time ++ [e.kind, e.sev, e.cls, e.unit] ++ leBytes 4 e.d0 ++ leBytes 8 e.d1

/-- MON_NOTIFY, at most once per kind in each 100 ms (R650). -/
def monNotify (kind : Nat) (value : Int) (s : State) : State := notifyLimited 0x0FF0 kind 0 1 (fun c => [u8 kind, s32 value, u32 c]) s

/-- Discards the queued commands that `p` picks, each notified with E_CANCELLED (R94, R112). -/
def cancelQueued (p : Queued → Bool) (s : State) : State :=
  let gone := s.dev.queue.filter p
  let s := { s with dev := { s.dev with queue := s.dev.queue.filter fun q => ! p q } }
  gone.foldl (fun s q => notify q.tk.session 0x01F1 q.tk.tag eCancelled [u16 q.tk.op, u32 q.tk.tag, u16 eCancelled] s) s

/-- What the running states hold and leaving them ends: queued commands (R94), captures (R206), bank switches (R182), the history
strip (R475), and the ports (R686). -/
def leaveRunning (s : State) : State :=
  let s := settleBanks (dropCaptures (fun _ _ => true) (cancelQueued (fun _ => true) s))
  let s := portsLeave (endStrips s)
  { s with dev := { s.dev with startAt := none, drain := none }, fep := { s.fep with hist := [], prev := [], laneQ := [], vslots := [] } }

/-- Classes whose fault writes nothing further to DRAM (R642). -/
def faultNoDram (cls : Nat) : Bool := cls == 3 || cls == 5 || cls == 7

/-- What remains to be written is dropped (R642, step 5). -/
def dropWork (s : State) : State :=
  let s := setElx (fun x => { x with clu := [], ver := {}, web := {}, vlmu := {}, waiting := [], tiling := [], held := [], emitWait := [] }) s
  { s with tbc := { s.tbc with tiles := [] }, res := { s.res with writer := [] }, mrk := { s.mrk with inbox := [], pend := [], marks := [], heads := s.mrk.heads.map fun e => (e.1, { e.2 with dots := [], spans := [] }) } }

/-- Classes that FAULT_CLEAR can end (R641). -/
def faultClears (cls : Nat) : Bool := cls == 4 || cls == 6

/-- Ends an ARM that has not replied (R682): the fault prevents it. -/
def armCancelled (s : State) : State :=
  match s.dev.arming with
  | some (tk, xs) => answer tk eDevice [] (armRestore xs tk.session { s with dev := { s.dev with arming := none } })
  | none => s

/-- A fault of a class of R641: the device enters FAULT (R642). A fault in FAULT acts only where FAULT_CLEAR
could end the class in force and cannot end its own, which then replaces it (log 55); the backup log records entries (R648). In BOOT only classes NO_FIRMWARE and BOOT_TEST act (R76). -/
def faultEntry (cls unit d0 : Nat) (s : State) : State :=
  if s.dev.state = .boot ∧ cls ≠ 1 ∧ cls ≠ 2 then s else
  if s.dev.state = .fault then
    if faultClears s.dev.faultClass ∧ ! faultClears cls then
      let s := logMain 1 3 cls unit d0 0 s
      { s with dev := { s.dev with faultClass := cls }, mon := { s.mon with faultAt := s.now } }
    else s
  else
    let s := logBack 1 3 cls unit d0 0 (logMain 1 3 cls unit d0 0 s)
    let s := armCancelled s
    let s := if faultNoDram cls then dropWork s else if runningState s.dev.state then elxLimit s else s
    let s := if runningState s.dev.state then leaveRunning s else s
    let s := { s with dev := { s.dev with faultClass := cls }, mon := { s.mon with faultAt := s.now } }
    let s := markStop (setState .fault eDevice s)
    notifyWhere (fun _ _ => true) 0x0FF1 0 [u8 cls, u8 unit, u16 eDevice, u64 s.mon.logNo] (irqAll 2 s)

/-- Unit codes of the error logs (R648). -/
def unitDev : Nat := 0x80
def unitMon : Nat := 0x82
def unitDmc : Nat := 0x84
def unitNone : Nat := 0xFF

/-- The web axis has gone from running to FAULT (R641). -/
def axisGuard (a : Nat) (f : State → State) (s : State) : State :=
  let r := f s
  if (axis s a).state = 1 ∧ (axis r a).state = 2 ∧ webAxis r = some a then faultEntry 4 38 a r else r

def encoderEdge' (a : Nat) (x y : Bool) (s : State) : State := axisGuard a (encoderEdge a x y) s

def serialFrame' (a : Nat) (f : SerialFrame) (s : State) : State := axisGuard a (serialFrame a f) s

end Sys2Proof.Machine
end

