-- ==== Sys2Proof/Machine/DramDma.lean ====
section
/-! DEFINITION. Sys2Proof/Machine/DramDma.lean: the DRAM controller and the DMA channels (chapter 14), and the commands of family
0x0E. -/

namespace Sys2Proof.Machine

def setDmc (f : Dmc → Dmc) (s : State) : State := { s with dmc := f s.dmc }
def setDma (f : Dma → Dma) (s : State) : State := { s with dma := f s.dma }
def dramCh (s : State) (c : Nat) : DramCh := (tabGet s.dmc.chans c).getD {}
def setDramCh (c : Nat) (f : DramCh → DramCh) (s : State) : State := setDmc (fun d => { d with chans := tabPut d.chans c (f (dramCh s c)) }) s

/-! ## The interleaved space (R509 to R512) -/

/-- GiB of one channel. -/
def chGib (x : List (Nat × Nat × Nat × Nat)) : Nat := x.foldl (fun a d => a + d.1) 0

/-- Whether R507 supports a channel's DIMMs (R508). -/
def dimmsOk (f : DramFind) : Bool :=
  f.supported && decide (4800 ≤ f.maxRate) && (f.dimms.length == 1 || f.dimms.length == 2) &&
    f.dimms.all fun d => [16, 24, 32, 48, 64, 96, 128].contains d.1 && decide (d.2.1 < 2) && (d.2.2.1 == 1 || d.2.2.1 == 2)

/-- Whether a channel matches channel c0 (R509): DIMM count, and width, ranks and density of each. -/
def dimmsMatch (a b : List (Nat × Nat × Nat × Nat)) : Bool := a.map (fun d => d.2) == b.map fun d => d.2

/-- The channels found, in ascending order (R509, R511). -/
def byChannel (fs : List DramFind) : List DramFind := (fs.foldl (fun t f => tabPut t f.ch f) []).map fun e => e.2

/-- The interleave set of R509 among channels found, in ascending order: qualifying and matching c0; and whether one was left out for a mismatch. -/
def formSet (mask : Nat) (fs : List DramFind) : List DramFind × Bool :=
  let ok := fs.filter fun f => ! bit mask f.ch && dimmsOk f && decide (0 < f.qf)
  match ok with
  | [] => ([], false)
  | c0 :: _ =>
    let m := ok.filter fun f => dimmsMatch c0.dimms f.dimms
    (m, decide (m.length < ok.length))

/-- The rate of R510: the highest of R507 that the maximum, every SPD and the DIMMs per channel allow. -/
def formRate (limit : Nat) (fs : List DramFind) : Nat :=
  let two := fs.any fun f => f.dimms.length == 2
  ([6400, 5600, 5200, 4800].find? fun r => decide (r ≤ limit) && (! two || r != 6400) && fs.all fun f => decide (r ≤ f.maxRate)).getD 0

/-- Bytes of the space in MiB (R511). -/
def spaceMib (s : State) : Nat := match s.dmc.set with | [] => 0 | c :: _ => s.dmc.set.length * chGib (dramCh s c).dimms * 1024

/-- The channel of a device address, and its offset within that channel (R511). -/
def placeOf (s : State) (a : Nat) : Nat × Nat :=
  let n := max 1 s.dmc.set.length
  let i := a / s.dmc.grain
  (s.dmc.set.getD (i % n) 0, i / n * s.dmc.grain + a % s.dmc.grain)

def chanOf (s : State) (a : Nat) : Nat := (placeOf s a).1

/-- Bytes that the device reserves for itself at the start of the space (R513). -/
def deviceBytes : Nat := 2756 * 1048576

/-- The device address of the user buffer (space 0) and of the job buffer (5), which lie above the device's own region (R513, log 146). -/
def bufferBase (s : State) (sp : Nat) : Nat :=
  let user := s.cfg.userMib * 1048576
  let room := (spaceMib s * 1048576 - deviceBytes - user - s.cfg.tbcPool * 1048576) / 64 + 1
  let u := deviceBytes + 64 * (Config.bufferPlace s.cfg.userMib s.cfg.tbcPool % room)
  if sp = 0 then u else if sp = 5 then u + user else 0

/-- Space and number of the 64-byte unit that holds a device address: a unit of a buffer, or of other DRAM (255). -/
def unitAt (s : State) (a : Nat) : Nat × Nat :=
  let within (sp mib : Nat) : Bool := decide (bufferBase s sp ≤ a ∧ a < bufferBase s sp + mib * 1048576)
  if within 0 s.cfg.userMib then (0, (a - bufferBase s 0) / 64) else if within 5 s.cfg.tbcPool then (5, (a - bufferBase s 5) / 64) else (255, a / 64)

/-- The device address of a unit. -/
def unitAddr (s : State) (sp u : Nat) : Nat := bufferBase s sp + u * 64

/-- What the controller does for a request by itself: it changes the controller's own state, takes free values and drives the DIMMs, and
nothing else. -/
def confine (f : State → State) (s : State) : State := let t := f s; { s with free := t.free, dmc := t.dmc, out := t.out }

/-! ## Activates and refresh management (R523 to R525) -/

/-- The refresh management mode of a DIMM; one whose mode registers are not known requires none. -/
def rfmOf (x : DramCh) (place : Nat) : RfmMode := x.rfm.getD (place / 64) ⟨false, 0, 0, false⟩

/-- A bank is activated once more: at its DIMM's threshold an RFM command is issued, which takes the threshold off the count (R525, log 223). -/
def countAct (c place : Nat) (s : State) : State :=
  let m := rfmOf (dramCh s c) place
  let n := (tabGet (dramCh s c).acts place).getD 0 + 1
  let full := m.required && decide (m.limit ≤ n)
  let s := setDramCh c (fun x => { x with acts := tabPut x.acts place (if full then n - m.limit else n) }) s
  if full then emit (.dram c 3 place 0) s else s

/-- A row is activated (R524, R525): counted, and with probability 2^−p a neighbour refresh of it is scheduled, to be issued within 4 µs; the
draw is a free value. -/
def activate (s : State) (a : RowAct) : State :=
  if ! s.dmc.set.contains a.ch then s else
  let place := (a.dimm * 2 + a.rank) * 32 + a.bank
  let r := takeNat (countAct a.ch place s)
  if r.1 % 2 ^ s.cfg.dmcPolicy.p = 0 then setDramCh a.ch (fun x => { x with nbr := x.nbr ++ [(place, a.row, s.now + 4 * us)] }) r.2 else r.2

/-- A unit is accessed: whether that activates a row, and which, are free values (R524, log 223). -/
def touchUnit (sp : Nat) (s : State) (u : Nat) : State :=
  let r := takeNat s
  if r.1 % 2 = 0 then r.2 else activate r.2 ⟨chanOf s (unitAddr s sp u), r.1 / 2 % 2, r.1 / 4 % 2, r.1 / 8 % 32, r.1 / 256⟩

/-- The units of a range. -/
def unitsOf (a n : Nat) : List Nat := (List.range ((a + n + 63) / 64 - a / 64)).map (a / 64 + ·)

/-- The units of a range of a buffer are accessed. -/
def touch (sp a n : Nat) (s : State) : State := confine (fun s => (unitsOf a n).foldl (touchUnit sp) s) s

/-- A write of a unit enters its channel's write queue: at HI entries the oldest are written until LO remain (R529, R530). -/
def queueUnit (sp : Nat) (s : State) (u : Nat) : State :=
  let a := unitAddr s sp u
  setDramCh (chanOf s a) (fun x =>
    let q := x.wq ++ [a / 64]
    { x with wq := if s.cfg.dmcPolicy.hi ≤ q.length then q.drop (q.length - s.cfg.dmcPolicy.lo) else q }) s

/-- The units of a range are written. -/
def queueWrites (sp a n : Nat) (s : State) : State := touch sp a n (confine (fun s => (unitsOf a n).foldl (queueUnit sp) s) s)

/-! ## Conditions of a channel (R515, R519, R520, R550) -/

/-- DMC_NOTIFY (R550): CH_FAIL at every occurrence. -/
def dmcNotify (kind ch addr : Nat) (s : State) : State :=
  if kind = 2 then notifySubs 0x0EF0 [u8 ch, u8 kind, u64 addr, u32 1] s
  else notifyLimited 0x0EF0 kind ch 1 (fun c => [u8 ch, u8 kind, u64 addr, u32 c]) s

/-- Changes the settings record's image and writes it (R615). -/
def putSettings (f : Settings → Settings) (s : State) : State := nvsPut recSet (setNvs (fun v => { v with set := f v.set }) s)

/-- A channel is declared failed (R515). -/
def channelFail (c : Nat) (s : State) : State :=
  if (dramCh s c).failed then s else
  let s := rset (dmcBase + 4) 2 (setDramCh c (fun x => { x with failed := true, retrain := false, queued := false }) s)
  let s := setDmc (fun d => { d with lose := true, pending := true }) s
  faultEntry 3 unitDmc c (dmcNotify 2 c 0 (putSettings (fun v => { v with mask := v.mask ||| 2 ^ c }) s))

def eccLog (e : EccEnt) (s : State) : State := setDmc (fun d => { d with log := (e :: d.log).take 64, logNo := d.logNo + 1 }) s

/-- An uncorrectable read (R519): counted and logged; the 16th on a channel within 1 s fails it (R515). The unit keeps its error. -/
def dramUe (key : Nat × Nat) (addr rank bank pos : Nat) (s : State) : State :=
  let c := chanOf s addr
  let times := (s.now :: (dramCh s c).ues).filter fun t => decide (s.now < t + secPs)
  let s := setDmc (fun d => { d with bad := (d.bad.filter fun e => ! (e.1 == key.1 && e.2.1 == key.2)) ++ [(key.1, key.2, 1)] }) (setDramCh c (fun x => { x with ues := times.take 16 }) s)
  let s := rset (dmcBase + 4) 1 (bump (dmcBase + 0x104 + c * 0x10) 1 (eccLog ⟨addr, c, rank, bank, pos, 1, tmuNs s⟩ s))
  let s := dmcNotify 1 c addr (logMain 9 2 0 unitDmc c addr s)
  if 16 ≤ times.length then channelFail c s else s

/-- The corrections of a device within 24 h. -/
def markedNow (s : State) (key : Nat) : List Nat := ((tabGet s.dmc.marked key).getD []).filter fun t => decide (s.now < t + 86400 * secPs)

/-- CE_LIMIT is judged of a device: at its crossing the flag is set and DMC_NOTIFY is sent (R520). -/
def judgeCe (addr key : Nat) (s : State) : State :=
  if (markedNow s key).length ≤ s.cfg.dmcPolicy.ceLimit then setDmc (fun d => { d with above := d.above.filter (· != key) }) s
  else if s.dmc.above.contains key then s
  else dmcNotify 0 (key / 256) addr (rset (dmcBase + 4) 0 (setDmc (fun d => { d with above := key :: d.above }) s))

/-- A corrected read (R520): written back, counted, logged, and CE_LIMIT judged per device over 24 h. -/
def dramCe (key : Nat × Nat) (addr rank bank pos : Nat) (s : State) : State :=
  let c := chanOf s addr
  let dev := c * 256 + rank % 8 * 32 + pos % 32
  let s := bump (dmcBase + 0x100 + c * 0x10) 1 (eccLog ⟨addr, c, rank, bank, pos, 0, tmuNs s⟩ s)
  let s := setDmc (fun d => { d with bad := d.bad.filter (fun e => ! (e.1 == key.1 && e.2.1 == key.2)), marked := tabPut d.marked dev (s.now :: markedNow s dev) }) s
  judgeCe addr dev s

/-- What the symbol code makes of an error over `n` devices of a DIMM of width code w (R518): 0 corrected, 1 uncorrectable, 2 neither. One device is
corrected and two are uncorrectable; on x8 two go undetected with a probability below 2^−32, and what happens to more is open, both free values. -/
def codeKind (w n : Nat) (s : State) : Nat × State :=
  if n = 0 then (2, s) else if n = 1 then (0, s)
  else if n = 2 ∧ w = 0 then (1, s)
  else let r := takeNat s; (if n = 2 then (if r.1 % 2 ^ 33 = 0 then 2 else 1) else r.1 % 3, r.2)

/-- A read meets an error (R518 to R520). -/
def eccFound (s : State) (e : EccFound) : State :=
  let w := match (dramCh s (chanOf s e.addr)).dimms[e.rank / 2]? with | some d => d.2.1 | none => 0
  let r := codeKind w e.devs.eraseDups.length s
  let pos := match e.devs.eraseDups with | [d] => d | _ => 255
  if r.1 = 0 then dramCe (unitAt s e.addr) e.addr e.rank e.bank pos r.2
  else if r.1 = 1 then dramUe (unitAt s e.addr) e.addr e.rank e.bank 255 r.2
  else r.2

/-- An uncorrectable read at an address, rank and bank that nothing else gives (R646): free values. -/
def poisonRead (s : State) : State :=
  let a := takeNat s
  let r := takeNat a.2
  let b := takeNat r.2
  let addr := a.1 % (max 1 (spaceMib s) * 1048576)
  dramUe (unitAt s addr) addr (r.1 % 8) (b.1 % 32) 255 b.2

/-- A read of a unit that is known to hold an error; rank, bank and device are free values (R519, R520, R652). -/
def readBad (s : State) (e : Nat × Nat × Nat) : State :=
  let b := takeNat s
  let addr := unitAddr s e.1 e.2.1
  if e.2.2 = 0 then dramCe (e.1, e.2.1) addr (b.1 % 8) (b.1 / 8 % 32) (b.1 / 256 % 20) b.2
  else dramUe (e.1, e.2.1) addr (b.1 % 8) (b.1 / 8 % 32) 255 b.2

/-- The bytes that a scrub pass has come to since it last went on: the whole space in a period (R521). -/
def scrubSpan (s : State) : Nat :=
  let c := spaceMib s * 1048576
  min c (c * (s.now - s.dmc.scrubAt.2) / (s.cfg.dmcPolicy.scrub * 3600 * secPs))

/-- Whether a device address lies among the n bytes from a on, which wrap at the end of the space. -/
def inSpan (s : State) (a n x : Nat) : Bool := decide (a ≤ x ∧ x < a + n ∨ x + spaceMib s * 1048576 < a + n)

/-- The patrol scrub reads on: R519 and R520 apply to the units known to hold an error, and to what else it finds (R521). -/
def patrolScrub (es : List EccFound) (s : State) : State :=
  if s.cfg.dmcPolicy.scrub = 0 then s else
  let a := s.dmc.scrubAt.1
  let n := scrubSpan s
  let hit := s.dmc.bad.filter fun e => inSpan s a n (unitAddr s e.1 e.2.1)
  let s := if n = 0 then s else touch 255 a n (setDmc (fun d => { d with scrubAt := ((a + n) % (spaceMib s * 1048576), s.now) }) s)
  es.foldl eccFound (hit.foldl readBad s)

def spdHubTimeout (c : Nat) (s : State) : State := if s.dmc.set.contains c then channelFail c s else s

/-- A command/address parity error: logged; one that persists after 3 retries fails the channel (R515, R522). -/
def ddrAlert (c addr : Nat) (persists : Bool) (s : State) : State :=
  if ! s.dmc.set.contains c then s else
  let s := eccLog ⟨addr, c, 0, 0, 255, 2, tmuNs s⟩ s
  if persists then channelFail c s else s

/-! ## Temperature and training (R523, R527, R528) -/

/-- Begins a retraining, or lets it wait for the one in progress (R527, R636). -/
def startRetrain (c : Nat) (s : State) : State :=
  let x := dramCh s c
  if x.retrain ∨ x.queued ∨ x.failed ∨ ! s.dmc.set.contains c then s
  else if s.dmc.chans.any fun e => e.2.retrain then setDramCh c (fun x => { x with queued := true }) s
  else setDramCh c (fun x => { x with retrain := true }) s

/-- Starts the first retraining that waits. -/
def nextRetrain (s : State) : State :=
  match s.dmc.chans.find? fun e => e.2.queued with
  | some e => setDramCh e.1 (fun x => { x with queued := false, retrain := true }) s
  | none => s

/-- The DIMMs of a channel have been read, every 32 ms (R523, R527): temperatures in s8.8 °C. -/
def dimmTempRead (c : Nat) (temps : List Int) (s : State) : State :=
  if ! s.dmc.set.contains c ∨ temps.isEmpty then s else
  let x := dramCh s c
  let hot := temps.foldl max (temps.headD 0)
  let s := setDramCh c (fun x => { x with temp := toUnsigned 16 hot, hot := if 95 * 256 < hot then true else if hot ≤ 90 * 256 then false else x.hot }) s
  let s := if 95 * 256 < hot ∧ ! x.hot then dmcNotify 3 c 0 (rset (dmcBase + 4) 4 s) else s
  let moved := temps.any fun t => decide (s.cfg.dmcPolicy.tdelta * 256 ≤ (t - toSigned 16 x.trained).natAbs)
  if moved then startRetrain c s else s

/-- DQS oscillators are read every 100 ms: the read delays move by the drift, in ps (R527, R635). -/
def dqsDriftRead (c : Nat) (drift : Int) (s : State) : State :=
  if s.dmc.set.contains c then calRan 2 c drift (setDramCh c (fun x => { x with rdDelay := x.rdDelay + drift }) s) else s

/-- The refresh interval of a channel: the shortest of its DIMMs', halved while its hottest DIMM is above 85 °C (R523, log 228). -/
def refreshEvery (x : DramCh) : Nat :=
  let full := x.dimms.foldl (fun m d => let i := Config.refreshInterval d.2.1 d.2.2.2; match m with | some k => some (min k i) | none => some i) none
  let hot := x.temp < 0x8000 && decide (85 * 256 < x.temp)
  (full.getD 0) / (if hot then 2 else 1)

/-- Whether a same-bank refresh has been issued within the interval. -/
def refreshEarly (x : DramCh) (now : Nat) : Bool := match x.refAt with | some t => decide (now < t + refreshEvery x) | none => false

/-- A same-bank refresh of a channel of the set falls due, and takes its activates off the counts of the banks it refreshes (R523, R525). -/
def refreshDue (c : Nat) (s : State) : State :=
  if ! s.dmc.set.contains c ∨ refreshEarly (dramCh s c) s.now then s else
  let b := (dramCh s c).refBank
  emit (.dram c 0 b 0) (setDramCh c (fun x => { x with
    refAt := some s.now, refBank := (b + 1) % 4, acts := x.acts.map fun e => if e.1 % 4 = b then (e.1, e.2 - (rfmOf x e.1).perRefresh) else e }) s)

/-- The neighbour refresh that was scheduled first is issued: a directed command, or an activate and precharge of both neighbours (R524). -/
def neighbourRefresh (c : Nat) (s : State) : State :=
  match s.dmc.set.contains c, (dramCh s c).nbr with
  | true, (place, row, _) :: r =>
    let s := setDramCh c (fun x => { x with nbr := r }) s
    if (rfmOf (dramCh s c) place).directed then emit (.dram c 1 place row) s
    else ((if row = 0 then [] else [row - 1]) ++ [row + 1]).foldl (fun s r => activate s ⟨c, place / 64, place / 32 % 2, place % 32, r⟩) (emit (.dram c 4 place row) s)
  | _, _ => s

/-- The neighbour refreshes of a channel whose 4 µs have passed have been issued (R524). -/
def overdueNbr (s : State) (c : Nat) : State :=
  ((dramCh s c).nbr.filter fun e => decide (e.2.2 ≤ s.now)).foldl (fun s _ => neighbourRefresh c s) s

/-- Those of every channel; the activates that they make are scheduled anew. -/
def neighboursDue (s : State) : State := if s.dmc.selfRef ∨ s.dmc.chans.all (fun e => e.2.nbr.isEmpty) then s else confine (fun s => s.dmc.set.foldl overdueNbr s) s

/-- A slice of a retraining in progress runs, 100 µs or more after the one before: the channel serves nothing, and no data changes (R527). -/
def retrainSlice (c : Nat) (s : State) : State :=
  let early := match (dramCh s c).sliceAt with | some t => decide (s.now < t + 100 * us) | none => false
  if s.dmc.set.contains c ∧ (dramCh s c).retrain ∧ early = false then emit (.dram c 2 0 0) (setDramCh c (fun x => { x with sliceAt := some s.now }) s) else s

/-- A retraining ends (R527, R515): a figure of 0 fails the channel; the new delays, free values, are adopted together unless the figure would fall. -/
def retrainComplete (c qf temp : Nat) (s : State) : State :=
  let x := dramCh s c
  if ! x.retrain then s else
  let s := setDramCh c (fun x => { x with retrain := false, retrains := min (x.retrains + 1) 0xFFFF }) s
  let s := dmcNotify 4 c 0 (rset (dmcBase + 4) 5 (calRan 1 c qf s))
  let s := if qf = 0 then channelFail c s
    else if qf < x.qf then s
    else
      let d := takeInt s
      let e := takeInt d.2
      setDramCh c (fun x => { x with qf := qf, trained := temp % 65536, tj := s.mon.tj, cls := s.mon.loadClass, prov := false, rdDelay := d.1, wrDelay := e.1 }) e.2
  nextRetrain s

/-- The load class has risen: trainings made in a lower class become provisional (R528, R625). -/
def dramProvisional (cls : Nat) (s : State) : State :=
  (s.dmc.set.filter fun c => decide ((dramCh s c).cls < cls)).foldl (fun s c => dmcNotify 5 c 0 (setDramCh c (fun x => { x with prov := true }) s)) s

/-- A provisional training has been re-measured (R528). -/
def dramRemeasure (c qf : Nat) (s : State) : State :=
  if ! (dramCh s c).prov then s
  else if qf < s.cfg.dmcPolicy.qf then startRetrain c (setDramCh c (fun x => { x with qf := qf }) s)
  else setDramCh c (fun x => { x with qf := qf, prov := false, cls := s.mon.loadClass }) s

/-! ## A start (R509, R510, R512 to R516, R534) -/

/-- A start that does not keep DRAM: the set is formed and trained, and every location written with zeros. True when it is usable. -/
def dramInit (fs : List DramFind) (s : State) : Bool × State :=
  let haMask := if s.dev.ha then 0x03F else 0xFFF
  let mask := s.nvs.set.mask % 4096 &&& haMask
  let fs := byChannel (fs.filter fun f => present 12 f.ch s)
  let r := formSet mask fs
  let fit := fs.filter fun f => ! bit mask f.ch && dimmsOk f
  let dead := fit.filter fun f => f.qf == 0
  let s := setDmc (fun d => { d with
    set := r.1.map fun f => f.ch, grain := s.nvs.set.grain, rate := formRate s.nvs.set.rate r.1, mask := mask, retained := false, lose := false, pending := false, ready := true, selfRef := false
    layout := (s.nvs.set.grain, s.nvs.set.mask, s.nvs.set.rate), scrubAt := (0, s.now)
    chans := fs.map fun f => (f.ch, { dimms := f.dimms, temp := f.temp % 65536, trained := f.temp % 65536, qf := f.qf, tj := s.mon.tj, cls := s.mon.loadClass, retrains := (dramCh s f.ch).retrains, rfm := f.rfm, supported := f.supported, maxRate := f.maxRate })
    log := [], logNo := 0, user := [], bad := [] }) s
  let s := { s with tbc := { s.tbc with buf := [] } }
  let s := if r.2 then rset (dmcBase + 4) 3 s else s
  let s := if dead.isEmpty then s else rset (dmcBase + 4) 2 s
  let s := if dead.isEmpty ∨ s.cfg.dmcPolicy.autoMask = 0 then s
    else putSettings (fun v => { v with mask := dead.foldl (fun m f => m ||| 2 ^ f.ch) v.mask }) s
  (decide (16 ≤ spaceMib s / 1024), s)

/-- Every bank is precharged and every DIMM enters self-refresh, once the requests accepted have been served (R533). -/
def selfRefresh (s : State) : State :=
  let s := s.dmc.set.foldl (fun s c => emit (.dram c 5 0 0) (setDramCh c (fun x => { x with wq := [] }) s)) s
  setDmc (fun d => { d with selfRef := true }) s

/-- The DIMMs leave self-refresh; a channel with a DIMM that had moved by TDELTA is retrained (R533). -/
def leaveRefresh (s : State) : State :=
  if ! s.dmc.selfRef then s else
  let s := s.dmc.set.foldl (fun s c => emit (.dram c 6 0 0) s) (setDmc (fun d => { d with selfRef := false }) s)
  let moved := s.dmc.set.filter fun c =>
    let x := dramCh s c
    x.temp != 0x8000 && decide (s.cfg.dmcPolicy.tdelta * 256 ≤ (toSigned 16 x.temp - toSigned 16 x.trained).natAbs)
  moved.foldl (fun s c => startRetrain c s) s

/-- A start that keeps DRAM (R512, R533, R534). -/
def dramExit (s : State) : State :=
  let s := leaveRefresh (setDmc (fun d => { d with chans := d.chans.map fun e => (e.1, { e.2 with temp := 0x8000, retrain := false, queued := false, hot := false, ues := [], nbr := [] }) }) s)
  setDmc (fun d => { d with retained := true, ready := true }) s

/-! ## Registers (R547, R548) -/

def rateCode (r : Nat) : Nat := match r with | 4800 => 1 | 5200 => 2 | 5600 => 3 | 6400 => 4 | _ => 0

/-- Fields that a System reset clears read their reset values until the start has formed or kept the set (R547). -/
def dmcStat (s : State) : Nat :=
  let now : Nat := if s.dmc.ready then
      (s.dmc.set.foldl (fun m c => m ||| 2 ^ c) 0) + boolNat (s.dmc.mask != 0) * 2 ^ 13 + boolNat s.dmc.pending * 2 ^ 14 +
        boolNat (s.dmc.set.any fun c => (dramCh s c).prov) * 2 ^ 15 + (Nat.log2 s.dmc.grain - 8) % 16 * 2 ^ 16 + rateCode s.dmc.rate * 2 ^ 20
    else 0
  now + boolNat s.dmc.retained * 2 ^ 12

/-- The mask recorded for the next start that does not keep DRAM; bits 6 to 11 read 0 on the HA (R517). -/
def nextMask (s : State) : Nat := s.nvs.set.mask &&& (if s.dev.ha then 0x03F else 0xFFF)

def dmcMask (s : State) : Nat := (if s.dmc.ready then s.dmc.mask else 0) + nextMask s * 65536
def dmcTemp (s : State) (c : Nat) : Nat := if s.dmc.ready then (dramCh s c).temp + (dramCh s c).trained * 65536 else 0x80008000
def dmcTrain (s : State) (c : Nat) : Nat := (if s.dmc.ready then min 255 (dramCh s c).qf + (dramCh s c).cls * 256 else 0) + (dramCh s c).retrains * 65536

def dmcCntClear (s : State) : State :=
  (List.range 12).foldl (fun s c => rput (dmcBase + 0x104 + c * 0x10) 0 (rput (dmcBase + 0x100 + c * 0x10) 0 s))
    (setDmc (fun d => { d with chans := d.chans.map fun e => (e.1, { e.2 with retrains := 0 }) }) s)

def dmaCh (s : State) (c : Nat) : DmaCh := (tabGet s.dma.chans c).getD {}
def setDmaCh (c : Nat) (f : DmaCh → DmaCh) (s : State) : State := setDma (fun d => { d with chans := tabPut d.chans c (f (dmaCh s c)) }) s

/-- The mask of channels of [lo, lo + 32) in a state that `p` picks. -/
def dmaMask (s : State) (lo : Nat) (p : Nat → Bool) : Nat := (List.range 32).foldl (fun m i => if p (dmaCh s (lo + i)).state then m + 2 ^ i else m) 0

def dmaBusy (s : State) (lo : Nat) : Nat := dmaMask s lo fun x => x == 1 || x == 2
def dmaHalt (s : State) (lo : Nat) : Nat := dmaMask s lo fun x => x == 3
def dmaStat (s : State) (c : Nat) : Nat := let x := dmaCh s c; x.state + x.retries % 8 * 4 + x.result * 256

def dmaCntClear (s : State) : State :=
  (List.range 64).foldl (fun s c => rput (dmaBase + 0x108 + c * 0x10) 0 (rput (dmaBase + 0x104 + c * 0x10) 0 s)) s

/-! ## Descriptors (R537 to R544) -/

def dSrc (d : List Nat) : Nat := leAt d 0 8
def dDst (d : List Nat) : Nat := leAt d 8 8
def dLen (d : List Nat) : Nat := leAt d 16 4
def dSrcSp (d : List Nat) : Nat := nth d 20
def dDstSp (d : List Nat) : Nat := nth d 21
def dCtrl (d : List Nat) (i : Nat) : Bool := bit (nth d 22) i
def dRetry (d : List Nat) : Nat := nth d 23 % 8
def dNext (d : List Nat) : Nat := leAt d 24 8
def dTag (d : List Nat) : Nat := leAt d 32 4

/-- Bytes of a buffer space, none for a host link (R485, R536, R546). -/
def spaceSize (s : State) (sp : Nat) : Option Nat :=
  if sp = 0 then some (s.cfg.userMib * 1048576) else if sp = 5 then some (s.cfg.tbcPool * 1048576) else none

/-- Whether a range leaves a buffer. -/
def rangeBad (s : State) (sp a n : Nat) : Bool := match spaceSize s sp with | some z => decide (z < a + n) | none => false

/-- Result code of a descriptor that R539 refuses, none where it is good. -/
def descFault (s : State) (d : List Nat) : Option Nat :=
  if nth d 22 / 64 ≠ 0 ∨ nth d 23 / 8 ≠ 0 ∨ ! zeros d 36 12 ∨ dLen d = 0 ∨ 5 < dSrcSp d ∨ 5 < dDstSp d then some 3
  else if rangeBad s (dSrcSp d) (dSrc d) (dLen d) ∨ rangeBad s (dDstSp d) (dDst d) (dLen d) then some 4
  else none

/-- Bytes of a buffer space. -/
def bufRead (s : State) (sp a n : Nat) : List Nat := memRead (if sp = 0 then s.dmc.user else s.tbc.buf) a n

/-- Writes bytes to a buffer. -/
def bufWrite (sp a : Nat) (bs : List Nat) (s : State) : State :=
  let s := queueWrites sp a bs.length (setDmc (fun d => { d with bad := clearBad sp a bs.length d.bad }) s)
  if sp = 0 then setDmc (fun d => { d with user := memWrite d.user a bs }) s else { s with tbc := { s.tbc with buf := memWrite s.tbc.buf a bs } }

/-- Writes bytes to a space (R540). -/
def spaceWrite (sp a : Nat) (bs : List Nat) (s : State) : State :=
  if sp = 0 ∨ sp = 5 then bufWrite sp a bs s else emit (.hostWr (sp - 1) a bs) s

/-- What reading the units of a range of a buffer meets: corrected errors are written back, the first uncorrectable one is
counted; true when one was met (R519, R520, R652). -/
def readUnits (sp a n : Nat) (s : State) : Bool × State :=
  let hit := s.dmc.bad.filter fun e => e.1 == sp && decide (a / 64 ≤ e.2.1 ∧ e.2.1 ≤ (a + n - 1) / 64 ∧ 0 < n)
  let s := (hit.filter fun e => e.2.2 == 0).foldl readBad (touch sp a n s)
  match hit.find? fun e => e.2.2 != 0 with
  | some e => (true, readBad s e)
  | none => (false, s)

/-- Writes back bytes 48 to 63 of the descriptor, DONE_WORD last (R537, R542). -/
def writeBack (c : Nat) (x : DmaCh) (result : Nat) (s : State) : State :=
  match x.set, x.desc with
  | some p, some d =>
    if ! dCtrl d 5 then s
    else spaceWrite p.space (x.addr + 60) (leBytes 4 (boolNat (result == 0))) (spaceWrite p.space (x.addr + 48) (leBytes 8 x.done ++ [result, x.retries, 0, 0]) s)
  | _, _ => let _ := c; s

/-- The task input of a channel's start is free from the next cycle on (R493). -/
def freeStart (c : Nat) (s : State) : State :=
  { s with evr := { s.evr with tasks := tabPut s.evr.tasks (0x8200 + c) { (tabGet s.evr.tasks (0x8200 + c)).getD {} with busyTo := sysCycle s + 1 } } }

/-- DMA_NOTIFY, at each halt (R550). -/
def dmaNotify (c : Nat) (s : State) : State :=
  let x := dmaCh s c
  notifySubsAnd (if x.set.isSome then x.session else none) 0x0EF1 [u8 c, u8 x.result, u32 x.tag, u64 x.addr] s

/-- The channel halts with a result (R539, R541). -/
def dmaHaltWith (c result : Nat) (s : State) : State :=
  let s := writeBack c (dmaCh s c) result s
  let s := setDmaCh c (fun x => { x with state := 3, result := result, waitTo := none, abort := false }) s
  dmaNotify c (rset (dmaBase + 0x10) (if result = 1 then 0 else 1) (freeStart c s))

/-- Returns a channel to IDLE with ABORTED written back (R544). -/
def dmaAbortNow (c : Nat) (s : State) : State :=
  let s := writeBack c (dmaCh s c) 2 s
  freeStart c (setDmaCh c (fun x => { x with state := 0, result := 2, waitTo := none, abort := false, desc := none, left := false, origin := none }) s)

/-- A request fails: reissued after a wait that doubles from 1 µs to 64 µs, at most RETRY times (R541). -/
def dmaFail (c : Nat) (s : State) : State :=
  let x := dmaCh s c
  let most := match x.desc with | some d => dRetry d | none => Config.fetchRetries c % 8
  if x.abort then dmaAbortNow c s
  else if x.retries < most then setDmaCh c (fun y => { y with retries := x.retries + 1, waitTo := some (s.now + min 64 (2 ^ x.retries) * us) }) s
  else dmaHaltWith c 1 s

/-- Begins the fetch of a descriptor. -/
def dmaFetch (c addr : Nat) (s : State) : State :=
  setDmaCh c (fun x => { x with state := 1, addr := addr, desc := none, done := 0, retries := 0, waitTo := none, left := false }) s

/-- A start of a channel (R538): true where it was taken. -/
def dmaStart (c : Nat) (origin : Option Nat) (s : State) : Bool × State :=
  let x := dmaCh s c
  match x.set with
  | none => (false, s)
  | some p =>
    if x.state = 0 then (true, dmaFetch c p.addr (setDmaCh c (fun x => { x with origin := origin }) s))
    else if x.state = 2 then (true, setDmaCh c (fun x => { x with state := 1, origin := origin }) s)
    else (false, s)

/-- A descriptor has been fetched. -/
def dmaFetched (c : Nat) (d : List Nat) (s : State) : State :=
  let s := setDmaCh c (fun x => { x with desc := some d, tag := dTag d, retries := 0 }) s
  match descFault s d with
  | some r => dmaHaltWith c r s
  | none => if dCtrl d 4 then freeStart c (setDmaCh c (fun x => { x with state := 2 }) s) else s

/-- Bytes that a request ends with: the engine moves whole 64-byte units of the destination, so `n` is cut back to the last unit's end unless it
ends the transfer (R540). -/
def wholeUnits (dst done len n : Nat) : Nat :=
  if len ≤ done + n then len - done else (dst + done + n) / 64 * 64 - (dst + done)

/-- A read of a host covers every unit that holds a byte of the range (R540). -/
def hostRead (sp a n : Nat) (s : State) : State := if n = 0 ∨ sp = 0 ∨ sp = 5 then s else emit (.hostRd (sp - 1) (a / 64 * 64) ((unitsOf a n).length * 64)) s

/-- A read of a buffer by the engine fails as poisoned data: an uncorrectable error of its first unit (R519, R541). -/
def poisonUnit (sp a : Nat) (s : State) : State := if sp = 0 ∨ sp = 5 then readBad s (sp, a / 64, 1) else s

/-- n bytes of the transfer have moved; `data` are those read from a host link. An abort takes effect at the next unit (R544). -/
def dmaMove (c n : Nat) (data d : List Nat) (s : State) : State :=
  let x := dmaCh s c
  let sp := dSrcSp d
  let n := if sp = 0 ∨ sp = 5 then n else min n data.length
  let n := if x.abort then min n (64 - (dDst d + x.done) % 64) else n
  let n := wholeUnits (dDst d) x.done (dLen d) n
  let r := if sp = 0 ∨ sp = 5 then readUnits sp (dSrc d + x.done) n s else (false, hostRead sp (dSrc d + x.done) n s)
  if r.1 then dmaFail c r.2 else
  let s := r.2
  let bs := if sp = 0 ∨ sp = 5 then bufRead s sp (dSrc d + x.done) n else data.take n
  let s := spaceWrite (dDstSp d) (dDst d + x.done) bs s
  let s := setDmaCh c (fun x => { x with done := x.done + bs.length, left := decide (dLen d ≤ x.done + bs.length) }) s
  if x.abort then dmaAbortNow c s else s

/-- A request of a channel's engine ends (R540, R541): a descriptor fetch, or `n` bytes of the transfer. A failing read of a buffer is poisoned data:
writes leave the engine posted, so no other failure reaches such a request. -/
def dmaTransferDone (c : Nat) (ok : Bool) (n : Nat) (data : List Nat) (s : State) : State :=
  let x := dmaCh s c
  match x.set with
  | none => s
  | some p =>
    if x.state ≠ 1 ∨ x.waitTo.isSome ∨ x.left then s
    else match x.desc with
      | none =>
        let s := hostRead p.space x.addr 64 s
        if ! ok then dmaFail c (poisonUnit p.space x.addr s)
        else if rangeBad s p.space x.addr 64 then dmaHaltWith c 4 s
        else if p.space = 0 ∨ p.space = 5 then
          let r := readUnits p.space x.addr 64 s
          if r.1 then dmaFail c r.2 else dmaFetched c (bufRead r.2 p.space x.addr 64) r.2
        else dmaFetched c ((data ++ List.replicate 64 0).take 64) s
      | some d => if ok then dmaMove c n data d s else dmaFail c (poisonUnit (dSrcSp d) (dSrc d + x.done) s)

/-- DMA_TRANSFER_DONE: the rows that the request activated are counted, and the request ends (R524, R525, R540). -/
def dmaTransfer (c : Nat) (ok : Bool) (n : Nat) (data : List Nat) (acts : List RowAct) (s : State) : State := dmaTransferDone c ok n data (acts.foldl activate s)

/-- A retry wait ends: the failing request is reissued (R541). -/
def dmaRetryWait (c : Nat) (s : State) : State :=
  match (dmaCh s c).waitTo with
  | some t => if t ≤ s.now then bump (dmaBase + 0x108 + c * 0x10) 1 (setDmaCh c (fun x => { x with waitTo := none }) s) else s
  | none => s

/-- The steps of R542, and what follows: the next descriptor of the chain, or IDLE. DMA[c].DONE is presented in the first cycle after the busy time (R493). -/
def dmaComplete (c : Nat) (p : PDmaChannel) (d : List Nat) (s : State) : State :=
  let x := dmaCh s c
  let s := bump (dmaBase + 0x104 + c * 0x10) 1 (writeBack c x 0 s)
  let s := setDmaCh c (fun x => { x with result := 0 }) s
  let s := if dCtrl d 2 then { s with evr := { s.evr with emits := s.evr.emits ++ [⟨sysCycle s + 1, 0x0900 + c, x.origin⟩] } } else s
  let s := if dCtrl d 1 then emit (.msix p.link 69) (rset (dmaBase + 0x1000 + p.link * 0x1000 + c / 32 * 4) (c % 32) s) else s
  if dCtrl d 3 then dmaFetch c (dNext d) s
  else freeStart c (setDmaCh c (fun x => { x with state := 0, left := false, origin := none }) s)

/-- The last write has left the engine; a descriptor without FENCE completes (R542). -/
def descriptorComplete (c : Nat) (s : State) : State :=
  let x := dmaCh s c
  match x.set, x.desc with
  | some p, some d => if x.state = 1 ∧ x.left ∧ x.waitTo.isNone ∧ ! dCtrl d 0 then dmaComplete c p d s else s
  | _, _ => s

/-- The read of a fence: the aligned 4-byte word of a host destination, or the unit of a buffer, that holds the last byte written (R543); true
when it met poisoned data. -/
def fenceRead (d : List Nat) (s : State) : Bool × State :=
  let last := dDst d + dLen d - 1
  if dDstSp d = 0 ∨ dDstSp d = 5 then readUnits (dDstSp d) last 1 s else (false, emit (.hostRd (dDstSp d - 1) (last / 4 * 4) 4) s)

/-- A FENCE read ends (R543). -/
def fenceDone (c : Nat) (ok : Bool) (s : State) : State :=
  let x := dmaCh s c
  match x.set, x.desc with
  | some p, some d =>
    if x.state = 1 ∧ x.left ∧ x.waitTo.isNone ∧ dCtrl d 0 then
      let r := fenceRead d s
      if ok ∧ ! r.1 then dmaComplete c p d r.2
      else dmaFail c (if r.1 then r.2 else poisonUnit (dDstSp d) (dDst d + dLen d - 1) r.2)
    else s
  | _, _ => s

/-- GO of DMA_DOORBELL (R538): a doorbell that does not start the channel is flagged. -/
def doorbell (value : Nat) (s : State) : State :=
  if bit value 31 then
    let r := dmaStart (value % 64) none s
    if r.1 then r.2 else rset (dmaBase + 0x10) 2 s
  else s

/-! ## Commands of family 0x0E (R549) -/

/-- The channels known from the last start, as a start would find them now. -/
def knownChans (s : State) : List DramFind := s.dmc.chans.map fun e => ⟨e.1, e.2.dimms, e.2.supported, e.2.maxRate, if e.2.failed then 0 else e.2.qf, 0, e.2.rfm⟩

/-- MiB at the next start with a mask (R549). -/
def nextMib (mask : Nat) (s : State) : Nat :=
  let r := (formSet mask (knownChans s)).1
  match r with | [] => 0 | f :: _ => r.length * chGib f.dimms * 1024

def dmcLayout (p : PDmcLayout) : Cmd := mkDmcLayout p fun tk p s =>
  storing recSet tk [u32 (nextMib p.mask s)] (fun s => setDmc (fun d => { d with pending := true })
    (setNvs (fun v => { v with set := { v.set with grain := p.grain, mask := p.mask, rate := p.rate } }) s)) s

def dmcPolicy (p : PDmcPolicy) : Cmd := mkDmcPolicy p fun _ p s =>
  let s := { s with cfg := { s.cfg with dmcPolicy := p } }
  .ok (s.dmc.marked.foldl (fun s e => judgeCe 0 e.1 s) s) []

def dmcUserRegion (p : PDmcUserRegion) : Cmd := mkDmcUserRegion p fun _ p s => .ok { s with cfg := { s.cfg with userMib := p.mib } } []

def dmcRetrain (p : PDmcRetrain) : Cmd := mkDmcRetrain p fun _ p s =>
  if (dramCh s p.ch).retrain ∨ (dramCh s p.ch).queued then .no eBusy [] else .ok (startRetrain p.ch s) []

def spdWord (d : Nat × Nat × Nat × Nat) : Nat := d.1 % 256 + d.2.1 % 4 * 256 + d.2.2.1 % 4 * 1024 + d.2.2.2 % 16 * 4096

def dmcStatus (p : PDmcStatus) : Cmd := mkDmcStatus p fun _ p s =>
  let x := dramCh s p.ch
  .ok s ([u32 (dmcStat s), u32 (dmcMask s), u64 (spaceMib s), u32 (rget (dmcBase + 0x100 + p.ch * 0x10) s), u32 (rget (dmcBase + 0x104 + p.ch * 0x10) s),
    u32 (dmcTemp s p.ch), u32 (dmcTrain s p.ch)] ++ (List.range 2).map fun i => u32 (match x.dimms[i]? with | some d => spdWord d | none => 0))

def eccEntry (e : EccEnt) : List RV := [.align 8, u64 e.addr, u8 e.ch, u8 e.rank, u8 e.bank, u8 e.pos, u8 e.kind, u64 e.time, .align 8]

/-- DMC_ECC_LOG: entries count back from the newest, entry 0 (log 56); a run of entries beyond the ring's 64 is refused (R86). -/
def dmcEccLog (p : PDmcEccLog) : Cmd := mkDmcEccLog p
  (fun _ p s => .ok s (u64 s.dmc.logNo :: ((s.dmc.log.drop p.first).take p.count).flatMap eccEntry))
  (fun p _ => if 64 < p.first + p.count then some (eParam, []) else none)

def dmcCountersClear : Cmd := mkDmcCountersClear fun _ s => .ok (dmcCntClear s) []

def dmaChannel (p : PDmaChannel) : Cmd := mkDmaChannel p fun tk p s =>
  if (dmaCh s p.ch).state ≠ 0 then .no eBusy []
  else .ok (setDmaCh p.ch (fun x => { x with set := some p, session := some tk.session }) s) []

def dmaStartCmd (p : PDmaStart) : Cmd := mkDmaStart p fun _ p s =>
  let x := dmaCh s p.ch
  if x.set.isNone then .no eState []
  else if x.state = 1 ∨ x.state = 3 then .no eBusy [] else .ok (dmaStart p.ch none s).2 []

/-- Re-runs the halted descriptor from its first byte (R544). -/
def dmaResume (p : PDmaResume) : Cmd := mkDmaResume p fun _ p s =>
  let x := dmaCh s p.ch
  if x.state ≠ 3 then .no eState []
  else match x.desc with
    | none => .ok (dmaFetch p.ch x.addr (setDmaCh p.ch (fun x => { x with origin := none }) s)) []
    | some d =>
      let s := setDmaCh p.ch (fun x => { x with state := 1, done := 0, retries := 0, left := false, waitTo := none, origin := none }) s
      .ok (match descFault s d with | some r => dmaHaltWith p.ch r s | none => s) []

def dmaAbort (p : PDmaAbort) : Cmd := mkDmaAbort p fun _ p s =>
  let x := dmaCh s p.ch
  if x.state = 0 then .ok s []
  else if x.state = 1 ∧ x.desc.isSome ∧ x.waitTo.isNone ∧ ! x.left then .ok (setDmaCh p.ch (fun x => { x with abort := true }) s) []
  else .ok (dmaAbortNow p.ch s) []

def dmaStatus (p : PDmaStatus) : Cmd := mkDmaStatus p fun _ p s =>
  let x := dmaCh s p.ch
  .ok s [u32 (dmaStat s p.ch), u32 x.tag, u64 x.addr, u64 x.done, u32 (rget (dmaBase + 0x104 + p.ch * 0x10) s), u32 (rget (dmaBase + 0x108 + p.ch * 0x10) s)]

def dmaBufWrite (p : PDmaBufWrite) : Cmd := mkDmaBufWrite p (fun _ p s => .ok (spaceWrite 0 p.offset p.data s) [])
  (fun p s => if rangeBad s 0 p.offset p.length then some (eParam, []) else none)

def tbcBufWrite (p : PTbcBufWrite) : Cmd := mkTbcBufWrite p fun _ p s =>
  if rangeBad s 5 p.offset p.length then .no eParam [] else .ok (bufWrite 5 p.offset (p.data.take p.length) s) []

def tbcBufRead (p : PTbcBufRead) : Cmd := mkTbcBufRead p fun tk p s =>
  if rangeBad s 5 p.offset p.length then .no eParam []
  else
    let r := readUnits 5 p.offset p.length s
    if r.1 then .later (answer tk eDevice [] r.2) else .ok r.2 [.block (bufRead r.2 5 p.offset p.length)]

/-- The job of which a sound line is due. -/
def lineJob (bad : Bool) (s : State) : Option Job := if s.tbc.busy = 4 ∧ ! bad then jobReady s else none

/-- One line of the Tombac engine; a job that reads poisoned data of the job buffer ends with BUS_ERR (R519, R646). -/
def tbcLine (bad : Bool) (s : State) : State :=
  match lineJob bad s with
  | some j =>
    if j.src.isNone ∧ jobSrc j.desc = 0 then
      let r := readUnits 5 (leAt j.desc 32 8) (jobSrcLen j.desc) s
      tbcLineDone r.1 r.2
    else tbcLineDone false s
  | none => tbcLineDone bad s

def dmaBufRead (p : PDmaBufRead) : Cmd := mkDmaBufRead p (fun tk p s =>
    let r := readUnits 0 p.offset p.length s
    if r.1 then .later (answer tk eDevice [] r.2) else .ok r.2 [.block (bufRead r.2 0 p.offset p.length)])
  (fun p s => if rangeBad s 0 p.offset p.length then some (eParam, []) else none)

def dmaCountersClear : Cmd := mkDmaCountersClear fun _ s => .ok (dmaCntClear s) []

end Sys2Proof.Machine
end

