-- ==== Sys2Proof/Machine/Events.lean ====
section
/-! DEFINITION. Sys2Proof/Machine/Events.lean: deliveries of the event router, its task inputs and loops, and the commands of family
0x0D (chapter 13). -/

namespace Sys2Proof.Machine

def setEvr (f : Evr → Evr) (s : State) : State := { s with evr := f s.evr }

def taskIn (s : State) (k : Nat) : TaskIn := (tabGet s.evr.tasks k).getD {}
def setTask (k : Nat) (f : TaskIn → TaskIn) (s : State) : State := setEvr (fun e => { e with tasks := tabPut e.tasks k (f (taskIn s k)) }) s

/-- Whether a code is a source of R492 (0 none). -/
def sourceOk (c : Nat) : Bool :=
  c == 0 || evrCodeOk 0x100 64 c || evrCodeOk 0x200 3 c || evrCodeOk 0x300 14 c || evrCodeOk 0x310 8 c || evrCodeOk 0x320 32 c || evrCodeOk 0x340 16 c ||
    evrCodeOk 0x400 18 c || evrCodeOk 0x500 48 c || evrCodeOk 0x600 51 c || c == 0x700 || evrCodeOk 0x800 2 c || evrCodeOk 0x900 64 c || evrCodeOk 0xA00 16 c

/-- Whether a code is a task input of R493. -/
def taskOk (c : Nat) : Bool := evrCodeOk 0x8000 32 c || c == 0x8100 || evrCodeOk 0x8200 64 c || evrCodeOk 0x8300 32 c

/-- The wrapper of the block that a task input belongs to (R581). -/
def taskWrap (c : Nat) : Nat := if c < 0x8010 then 38 else if c < 0x8100 then 37 else if c < 0x8200 then 35 else if c < 0x8300 then 40 else 36

def divisor (s : State) (d : Nat) : Nat := (tabGet s.cfg.dividers d).getD 1

/-- Whether a task input's unit takes events (R494). -/
def takesEvents (s : State) (c : Nat) : Bool :=
  if c < 0x8010 then match tabGet s.cfg.latches (c - 0x8000) with | some l => l.source == 2 | none => false
  else if c < 0x8100 then match tabGet s.tmu.tcp (c - 0x8010) with | some t => t.p.source == 1 | none => false
  else if c = 0x8100 then true
  else if c < 0x8300 then (dmaCh s (c - 0x8200)).set.isSome
  else (tabGet s.cfg.dividers (c % 16)).isSome

/-- Busy time in cycles (R493); a DMA start is busy while its channel runs. -/
def taskTime (c : Nat) : Nat := if c < 0x8010 then 3 else if c < 0x8100 then 2 else 1

def taskBusy (s : State) (c cyc : Nat) : Bool :=
  decide (cyc < (taskIn s c).busyTo) || (evrCodeOk 0x8200 64 c && (dmaCh s (c - 0x8200)).state == 1)

/-- The action of a task on a delivery (R493). -/
def taskAct (c tag : Nat) (s : State) : State :=
  let s := if evrCodeOk 0x8200 64 c then s else setTask c (fun x => { x with busyTo := sysCycle s + taskTime c }) s
  if wrapClosed (taskWrap c) s ∨ ! takesEvents s c then s
  else if c < 0x8010 then
    let l := c - 0x8000
    let r := storeCapture l s
    if r.1 then setEvr (fun e => { e with emits := e.emits ++ [⟨sysCycle s + 3, 0x0340 + l, some tag⟩] }) ((latchOrigins l r.2).foldl applyPendO r.2) else r.2
  else if c < 0x8100 then tcpCapture (c - 0x8010) s
  else if c = 0x8100 then releaseJob tag s
  else if c < 0x8300 then (dmaStart (c - 0x8200) (some tag) s).2
  else if c < 0x8310 then
    let d := c - 0x8300
    let n := (tabGet s.evr.div d).getD 0 + 1
    if divisor s d ≤ n then publishFrom (some tag) (0x0A00 + d) (setEvr (fun e => { e with div := tabDel e.div d }) s)
    else setEvr (fun e => { e with div := tabPut e.div d n }) s
  else setEvr (fun e => { e with div := tabDel e.div (c - 0x8310) }) s

/-- Deliveries dropped at a busy task input: DROP and the totals (R496, R497). -/
def dropDelivery (c ch tag : Nat) (old : Bool) (s : State) : State :=
  let s := bump (evrBase + 0x10) 1 (setTask c (fun x => { x with drop := min (x.drop + 1) 0xFFFFFFFF, ovr := x.ovr || old }) s)
  let s := rset (evrBase + 4) 2 (if old then rset (evrBase + 4) 3 s else s)
  evrNotify (if old then 3 else 2) ch c tag 1 s

/-- Events merged at one task input (R495). -/
def mergeDelivery (c ch tag : Nat) (s : State) : State :=
  let s := bump (evrBase + 0x14) 1 (setTask c (fun x => { x with collide := min (x.collide + 1) 0xFFFFFFFF }) s)
  evrNotify 4 ch c tag 1 (rset (evrBase + 4) 1 s)

/-- One delivery at the present cycle: `n` events, the lowest origin `tag`, from channel `ch` (R494 to R497). A pending event that
is due in this cycle merges with it. -/
def evrDeliver (c n ch tag : Nat) (s : State) : State :=
  let x := taskIn s c
  let busy := taskBusy s c (sysCycle s)
  let due := ! busy && x.pend.isSome
  let s := if 1 < n + boolNat due then mergeDelivery c ch tag s else s
  if busy then
    if (tabGet s.cfg.taskMode c).getD 0 = 1 then dropDelivery c ch tag true s
    else if x.pend.isSome then dropDelivery c ch tag false s
    else setTask c (fun y => { y with pend := some tag }) s
  else
    let tag := match x.pend with | some p => min p tag | none => tag
    taskAct c tag (setTask c (fun y => { y with pend := none, delivered := min (y.delivered + 1) 0xFFFFFFFF }) s)

/-- A pending event is delivered by itself (R496). -/
def deliverPend (c : Nat) (s : State) : State :=
  match (taskIn s c).pend with
  | some tag =>
    if taskBusy s c (sysCycle s) then s
    else taskAct c tag (setTask c (fun y => { y with pend := none, delivered := min (y.delivered + 1) 0xFFFFFFFF }) s)
  | none => s

/-! ## Running the router up to an instant (R490) -/

/-- The cycle at which a task input's pending event is due, none where it waits on a channel that runs. -/
def pendCycle (s : State) (e : Nat × TaskIn) : Option Nat :=
  if e.2.pend.isNone ∨ (evrCodeOk 0x8200 64 e.1 && (dmaCh s (e.1 - 0x8200)).state == 1) then none else some e.2.busyTo

/-- The first cycle at which the router has something to do. -/
def evrNext (s : State) : Option Nat :=
  ((s.evr.flight.map fun f => f.cyc) ++ (s.evr.emits.map fun e => e.cyc) ++ s.evr.tasks.filterMap (pendCycle s)).foldl
    (fun m c => match m with | some x => some (min x c) | none => some c) none

/-- Presents one event (R493, R502). -/
def present1 (s : State) (e : EvEmit) : State :=
  if 65536 ≤ e.src then
    if wrapClosed 36 s then s else
    match tabGet s.cfg.chans (e.src - 65536) with
    | some c => if c.enable = 1 then publishOn e.origin s c else s
    | none => s
  else publishFrom e.origin e.src s

/-- The flights of one task input at a cycle, as one delivery. -/
def deliverTask (fs : List Flight) (s : State) (c : Nat) : State :=
  match fs.filter fun f => f.task == c with
  | [] => s
  | f :: r => evrDeliver c (r.length + 1) f.ch (r.foldl (fun m g => min m g.tag) f.tag) s

/-- Everything the router does in cycle `cyc`, the present one: deliveries, pending events now due, and presentations. -/
def evrCycle (cyc : Nat) (pends : Bool) (s : State) : State :=
  let fs := s.evr.flight.filter fun f => decide (f.cyc ≤ cyc)
  let es := s.evr.emits.filter fun e => decide (e.cyc ≤ cyc)
  let s := setEvr (fun e => { e with flight := e.flight.filter fun f => decide (cyc < f.cyc), emits := e.emits.filter fun e => decide (cyc < e.cyc) }) s
  let s := (fs.map fun f => f.task).eraseDups.foldl (deliverTask fs) s
  let due := if pends then (s.evr.tasks.filter fun e => match pendCycle s e with | some c => decide (c ≤ cyc) | none => false).map fun e => e.1 else []
  es.foldl present1 (due.foldl (fun s c => deliverPend c s) s)

/-- The time moves on to `t` ps (log 1): the back-channels and the TMU counter run (R141, R231). -/
def moveTo (t : Nat) (s : State) : State :=
  if t ≤ s.now then s
  else
    let s := backRun t s
    { s with now := t, tmu := { s.tmu with acc := tmuRun s.dev.asleep s.now t s.tmu.incr s.tmu.acc } }

/-- The router runs up to `t` ps, at most `fuel` cycles in which it acts. Pending events due in the cycle of `t` itself are left to
PENDING_DELIVERY. -/
def evrRun (t : Nat) : Nat → State → State
  | 0, s => s
  | k + 1, s =>
    match evrNext s with
    | none => s
    | some c =>
      if c < t / 625 then evrRun t k (evrCycle (max c (sysCycle s)) true (moveTo (max s.now (c * 625)) s))
      else if c = t / 625 then evrCycle c false (moveTo (max s.now (c * 625)) s)
      else s

/-- The router acts at most once in each cycle up to `t` ps. -/
def evrFuel (t : Nat) (s : State) : Nat := t / 625 + 2 - sysCycle s

/-- The block runs on its own up to `t` ps. -/
def advance (t : Nat) (s : State) : State := moveTo t (evrRun t (evrFuel t s) (exposeTo t s))

def pendingDelivery (c : Nat) (s : State) : State :=
  match pendCycle s (c, taskIn s c) with
  | some d => if d ≤ sysCycle s then deliverPend c s else s
  | none => s

/-! ## Loops (R500) -/

/-- The source that an immediate task input emits, where its unit takes events. -/
def immediateOut (s : State) (c : Nat) : Option Nat :=
  if ! takesEvents s c then none
  else if c < 0x8010 then some (0x0340 + (c - 0x8000))
  else if evrCodeOk 0x8300 16 c then some (0x0A00 + (c - 0x8300)) else none

/-- The channels that a channel's immediate tasks feed. -/
def evrEdges (s : State) (a : PEvrChannel) : List Nat :=
  let outs := (a.tasks.take a.forks).filterMap (immediateOut s)
  (s.cfg.chans.filter fun e => outs.contains e.2.source).map fun e => e.1

/-- A shortest path from the front of the paths to channel `goal`, each path in reverse order. -/
def evrSearch (s : State) (goal : Nat) : Nat → List (List Nat) → List Nat → Option (List Nat)
  | 0, _, _ => none
  | _, [], _ => none
  | k + 1, path :: rest, seen =>
    match path with
    | [] => evrSearch s goal k rest seen
    | c :: _ =>
      let next := match tabGet s.cfg.chans c with | some x => (evrEdges s x).eraseDups | none => []
      if next.contains goal then some path.reverse
      else
        let new := next.filter fun n => ! seen.contains n
        evrSearch s goal k (rest ++ new.map fun n => n :: path) (seen ++ new)

/-- A cycle of the graph of R500, from its lowest-numbered channel on. -/
def evrLoop (s : State) : Option (List Nat) := s.cfg.chans.findSome? fun e => evrSearch s e.1 (s.cfg.chans.length + 1) [[e.1]] [e.1]

/-- The reply of E_LOOP (R500). -/
def loopReply (xs : List Nat) : List RV := u8 xs.length :: xs.map u8

/-! ## Registers and commands (R503, R505) -/

def evrStat (s : State) : Nat :=
  (s.cfg.chans.filter fun e => e.2.enable == 1).length + boolNat (s.cfg.taskMode.any fun e => e.2 == 1) * 65536

def evrCntClear (s : State) : State :=
  let s := rclear (evrBase + 0x1000) (evrBase + 0x1400) (rclear (evrBase + 0x0C) (evrBase + 0x18) s)
  setEvr (fun e => { e with tasks := e.tasks.map fun x => (x.1, { x.2 with delivered := 0, collide := 0, drop := 0 }) }) s

/-- GO of EVR_SW_FIRE (R502): the event is presented in the next cycle. -/
def swFire (value : Nat) (s : State) : State :=
  if bit value 31 then setEvr (fun e => { e with emits := e.emits ++ [⟨sysCycle s + 1, 65536 + value % 256, none⟩] }) s else s

/-- Checks 9 and 10 of R75 on a task code (R493, R506). -/
def taskPre (c : Nat) : Option (Nat × List RV) := if taskOk c then none else some (eParam, [])

def evrChannel (p : PEvrChannel) : Cmd := mkEvrChannel p
  (fun _ p s =>
    let s' := { s with cfg := { s.cfg with chans := tabPut s.cfg.chans p.ch p } }
    match evrLoop s' with
    | some xs => .no eLoop (loopReply xs)
    | none => .ok s' [])
  (fun p _ =>
    if ! sourceOk p.source ∨ ! ((p.tasks.take p.forks).all fun c => taskOk c || c == 0xFFFF) ∨ ! ((p.tasks.drop p.forks).all (· == 0xFFFF)) then some (eParam, [])
    else none)

def evrEnable (p : PEvrEnable) : Cmd := mkEvrEnable p fun _ p s =>
  let old := (tabGet s.cfg.chans p.ch).getD ⟨p.ch, 0, 0, 0, 0, 0, List.replicate 16 0xFFFF⟩
  .ok { s with cfg := { s.cfg with chans := tabPut s.cfg.chans p.ch { old with enable := p.enable } } } []

/-- A task input that enters AK-6420 mode has no pending bit: an event pending then is given up (R497, log 230). -/
def evrTaskMode (p : PEvrTaskMode) : Cmd := mkEvrTaskMode p
  (fun _ p s =>
    let s := { s with cfg := { s.cfg with taskMode := tabPut s.cfg.taskMode p.task p.mode } }
    .ok (if p.mode = 1 then setTask p.task (fun x => { x with pend := none }) s else s) []) (fun p _ => taskPre p.task)

def evrDivider (p : PEvrDivider) : Cmd := mkEvrDivider p fun _ p s => .ok { s with cfg := { s.cfg with dividers := tabPut s.cfg.dividers p.div p.n } } []

def evrFire (p : PEvrFire) : Cmd := mkEvrFire p fun _ p s => .ok (swFire (2 ^ 31 + p.ch) s) []

def evrStatus (p : PEvrStatus) : Cmd := mkEvrStatus p
  (fun _ p s => .ok s (((List.range p.count).map fun i => p.first + i).flatMap fun c =>
    let x := (tabGet s.cfg.chans c).getD ⟨c, 0, 0, 0, 0, 0, []⟩
    [.align 4, u16 x.source, u8 x.enable, u8 x.loopOk, u32 (rget (evrBase + 0x1000 + c * 4) s),
      u8 (boolNat (bit (rget (evrBase + 0x100 + c / 32 * 4) s) (c % 32))), u8 (boolNat (bit (rget (evrBase + 0x140 + c / 32 * 4) s) (c % 32))), .align 4]))
  (fun p _ => if 256 < p.first + p.count then some (eParam, []) else none)

def evrTaskStatus (p : PEvrTaskStatus) : Cmd := mkEvrTaskStatus p
  (fun _ p s =>
    let x := taskIn s p.task
    .ok s [u8 ((tabGet s.cfg.taskMode p.task).getD 0), u8 (boolNat (taskBusy s p.task (sysCycle s))), u8 (boolNat x.pend.isSome), u8 (boolNat x.ovr),
      u32 x.delivered, u32 x.collide, u32 x.drop, u8 (x.pend.getD 0)])
  (fun p _ => taskPre p.task)

def evrTaskClear (p : PEvrTaskClear) : Cmd := mkEvrTaskClear p (fun _ p s => .ok (setTask p.task (fun x => { x with ovr := false }) s) []) (fun p _ => taskPre p.task)

def evrCountersClear : Cmd := mkEvrCountersClear fun _ s => .ok (evrCntClear s) []

end Sys2Proof.Machine
end

