-- ==== Sys2Proof/Machine/Reset.lean ====
section
/-! DEFINITION. Sys2Proof/Machine/Reset.lean: clocks, reset sources and reaches, deferral, entry and release, and the Babbitt wrappers
(chapter 15). -/

namespace Sys2Proof.Machine

def setRcp (f : Rcp → Rcp) (s : State) : State := { s with rcp := f s.rcp }
def setRst (f : Rst → Rst) (s : State) : State := setRcp (fun r => { r with rst := r.rst.map f }) s

def rstCause : Nat := devBase + 0x20
def rstCount : Nat := devBase + 0x24
def causePor : Nat := 0
def causeBrown : Nat := 1
def causePin : Nat := 2
def causeWdog : Nat := 3
def causeTherm : Nat := 4
def causeClk : Nat := 5
def causeSwChip : Nat := 6
def causeSwSystem : Nat := 7
def causeSwBlock : Nat := 8
def causePcie : Nat := 9
def causeDebug : Nat := 10

/-! ## FAULT_N and THERM_N (R638, R640, R643) -/

/-- FAULT_N is asserted in FAULT, from the entry of a reset of System reach or wider until STANDBY, and during a trip. -/
def judgeFaultN (s : State) : State :=
  let on := s.dev.state == .fault || s.rcp.rst.isSome || s.rcp.starting || s.rcp.tripped
  if on = s.rcp.faultN then s else emit (.pin pinFaultN 0 (! on)) (setRcp (fun r => { r with faultN := on }) s)

/-- THERM_N is asserted while the warning or the trip condition holds. -/
def judgeThermN (s : State) : State :=
  let on := s.mon.warned || s.rcp.tripped
  if on = s.rcp.thermN then s else emit (.pin pinThermN 0 (! on)) (setRcp (fun r => { r with thermN := on }) s)

/-! ## What a reset keeps (R25, R560, R586) -/

/-- Register addresses whose fields a System reset keeps: those that a reach wider than System clears (R25). -/
def chipRegs (a : Nat) : Bool :=
  a == rcpBase + 0x08 || a == rcpBase + 0x10 || a == dmcBase + 0x04 ||
    (decide (dmcBase + 0x100 ≤ a ∧ a < dmcBase + 0x1C0) && a % 0x10 < 8)

/-- Those that only a Full reset clears. -/
def fullRegs (a : Nat) : Bool :=
  a == rstCause || a == rstCount || a == rcpBase + 0x04 || a == rcpBase + 0x14 || a == rcpBase + 0x48 || a == monBase + 0x60

def keepReg (reach a : Nat) : Bool := (decide (reach < 3) && fullRegs a) || (decide (reach < 2) && chipRegs a)

/-- A record write cut short: which of its steps the reset fell in is a free value (R598, R599). -/
def tearWrite (s : State) : State :=
  match s.nvs.cur with
  | some { rec_ := r, pay := some pay, on := true, .. } =>
    let f := takeNat s
    let s := f.2
    let a := firstTarget s r
    let c : NCopy := ⟨nextGen s r, tmuNs s, pay⟩
    match f.1 % 5 with
    | 0 => s
    | 1 => setCopy r a none s
    | 2 => setCopy r a (some c) s
    | 3 => setCopy r (1 - a) none (setCopy r a (some c) s)
    | _ => setCopy r (1 - a) (some c) (setCopy r a (some c) s)
  | _ => s

/-- A staging operation cut short: the bytes it was to program are free values. -/
def tearStage (s : State) : State :=
  match s.nvs.stage with
  | { act := .erase, on := true, .. } :: _ => setNvs (fun v => { v with staging := [] }) s
  | { act := .piece o bs, on := true, .. } :: _ =>
    let b := takeBytes bs.length s
    setNvs (fun v => { v with staging := v.staging ++ [(o, b.1)] }) b.2
  | _ => s

/-- A program pulse cut short by a reset that is not deferred: whether its bit was programmed is a free value (R571, R591). -/
def tearFuse (s : State) : State :=
  match s.nvs.fuse with
  | some f =>
    match f.on, f.bits with
    | true, b :: _ =>
      let n := takeNat s
      if n.1 % 2 = 0 then n.2 else fuseBit f b n.2
    | _, _ => s
  | none => s

/-- The flash and the eFuses, which no reset changes. -/
def flashPart (v : Nvs) : Nvs :=
  { revoked := v.revoked, secBits := v.secBits, shadowKeys := v.shadowKeys, shadowSec := v.shadowSec, copies := v.copies, slotA := v.slotA, slotB := v.slotB, staging := v.staging, sizeMib := v.sizeMib }

/-- The state after the reset of every fast domain, keeping what the reach keeps: 1 System, 2 Chip, 3 Full. -/
def coreReset (reach : Nat) (keep : Bool) (s : State) : State :=
  let r := s.rcp
  let aon : Rcp := { xtal := r.xtal, onVbat := r.onVbat, rst := r.rst, tripped := r.tripped, faultN := r.faultN, thermN := r.thermN }
  let rcp : Rcp := if reach = 3 then { rst := r.rst, faultN := r.faultN, thermN := r.thermN }
    else if reach = 2 then aon else { aon with ref := r.ref, lock := r.lock, good := r.good, sub := r.sub }
  let mon : Mon := if reach = 3 then { aonAt := s.now } else { blog := s.mon.blog, blogNo := s.mon.blogNo, aonAt := s.mon.aonAt, avsLost := s.mon.avsLost }
  let d := s.dmc
  let dmc : Dmc := if keep then { d with retained := false, ready := false } else { chans := if reach < 2 then d.chans.map fun e => (e.1, { retrains := e.2.retrains }) else [] }
  let tbc : Tbc := if keep then { hist := s.tbc.hist, histNext := match s.tbc.hist.head? with | some h => h.seq + 1 | none => 1, buf := s.tbc.buf } else {}
  let res : Res_ := if keep then { queues := s.res.queues.map fun e => (e.1, { e.2 with written := 0, lost := 0, dropped := 0 }), tiles := s.res.tiles,
                                   nextBlock := s.res.nextBlock, gen := s.res.gen, pool := s.res.pool } else {}
  { now := s.now, free := s.free, dev := { ha := s.dev.ha }, regs := s.regs.filter fun e => keepReg reach e.1
    dmc := dmc, tbc := tbc, res := res, rcp := rcp, nvs := flashPart s.nvs, mon := mon, out := s.out, pending := s.pending }

/-- The balls of R574 as a reset of System reach or wider begins. -/
def pinsSafe (s : State) : State :=
  let s := s.mrk.heads.foldl (fun s e =>
    let s := dropShift e.1 s
    let s := if e.2.pulse then emit (.pin pinMhFire e.1 false) s else s
    if e.2.en then emit (.pin pinHeadEn e.1 false) s else s) s
  let s := { s with mrk := { s.mrk with heads := s.mrk.heads.map fun e => (e.1, { e.2 with en := false, pulse := false, pre := none, crossed := [] }) } }
  let s := setDrive false false false s
  let s := s.pos.cmp.foldl (fun s e => driveCmp e.1 false s) s
  let s := s.tmu.ttr.foldl (fun s e => if e.2.pulseEnd.isSome then emit (.pin pinTio e.1 false) s else s) s
  let s := if s.tmu.ppsHigh then emit (.pin pinPpsOut 0 false) s else s
  setTmu (fun x => { x with ppsHigh := false, ttr := x.ttr.map fun e => (e.1, { e.2 with pulseEnd := none }) }) s

/-! ## Entry of a reset of System reach or wider (R565, R570, R571, R573) -/

/-- Steps 3 to 5 of the entry, for the widest reach so far. Whether the entry to self-refresh completes within the 20 µs of R534 is a free value (log 229). -/
def enterReset (t : Nat) (s : State) : State :=
  match s.rcp.rst with
  | none => s
  | some r =>
    let able := r.reach = 1 ∧ r.keep ∧ ! s.dmc.lose ∧ bit s.rcp.good 6 ∧ bit s.rcp.lock 6 ∧ ! s.dmc.set.isEmpty ∧ (r.entered = 0 ∨ s.dmc.retained)
    let f := takeNat s
    let keep := able ∧ (s.dmc.selfRef ∨ f.1 % 2 = 0)
    let s := tearFuse (tearStage (tearWrite f.2))
    let s := rfield (rcpBase + 0x10) 0 16 2000 (coreReset r.reach (decide keep) (if able ∧ ! s.dmc.selfRef then selfRefresh s else s))
    setDmc (fun d => { d with retained := decide keep }) (setRst (fun r => { r with defer := none, entered := r.reach, freeAt := max r.freeAt (t + us), released := false }) s)

/-! ### Deferral -/

/-- What a source asserted now waits for (R569, R570). -/
def deferNow (s : State) : Option Defer :=
  if flashBusy s || pulseOn s then some { since := s.now, flash := flashBusy s, pulse := pulseOn s } else none

/-- A deferral in progress: of a Block reset of NVS (`block`), or of the entry of a wider reset. -/
def deferOf (s : State) (block : Bool) : Option Defer :=
  if block then (tabGet s.rcp.wraps 43).bind fun x => x.waits else s.rcp.rst.bind fun r => r.defer

def putDefer (block : Bool) (d : Option Defer) (s : State) : State :=
  if block then setRcp (fun r => { r with wraps := tabMod r.wraps 43 fun x => { x with waits := d } }) s else setRst (fun r => { r with defer := d }) s

def deferOver (d : Defer) : Bool := (! d.flash || d.flashDone) && (! d.pulse || d.pulseDone)

/-- Ends a deferral at instant `t` (R571): DEFERRED and RCP_DEFER, whose KIND is that of the later end (log 237), and the entry goes on. -/
def endDeferral (block flash : Bool) (t : Nat) (d : Defer) (s : State) : State :=
  let v := boolNat flash * 2 + boolNat d.late * 4 + min 0xFFFF ((t - d.since) / us) * 65536
  let s := putDefer block none (rput (rcpBase + 0x14) v (rset rstCause 12 s))
  if block then s else enterReset t s

/-- The flash has become ready, or the pulse has ended, at instant `t`; `late` says that 5 ms passed before the flash was. -/
def deferStep (flash late : Bool) (t : Nat) (s : State) (block : Bool) : State :=
  match deferOf s block with
  | none => s
  | some d =>
    let d := if flash then { d with flashDone := true, late := d.late || (late && d.flash) } else { d with pulseDone := true }
    if deferOver d then endDeferral block flash t d s else putDefer block (some d) s

/-- What of the writes in progress has ended now is seen by the deferrals that wait for it. -/
def deferSeen (s : State) : State :=
  let s := if flashBusy s then s else [true, false].foldl (deferStep true false s.now) s
  if pulseOn s then s else [true, false].foldl (deferStep false false s.now) s

/-- A deferral whose flash has not been ready within 5 ms of the source goes on without it (R570). -/
def deferLate (s : State) (block : Bool) : State :=
  match deferOf s block with
  | some d => if d.flash ∧ ! d.flashDone ∧ d.since + 5 * ms < s.now then deferStep true true (d.since + 5 * ms) s block else s
  | none => s

/-- The pulse in progress ends, whether or not its read-back is seen: where it is not, whether the bit took is a free value; the bits that remain wait
or are abandoned (R569, R571). -/
def pulsePast (s : State) : State :=
  match s.nvs.fuse with
  | some f =>
    if f.on ∧ f.at_ + 10 * us < s.now ∧ ((deferOf s true).isSome ∨ (deferOf s false).isSome) then
      let n := takeNat s
      let s := match f.bits with
        | b :: _ => if n.1 % 2 = 0 then fuseBit f b n.2 else n.2
        | [] => n.2
      let s := setNvs (fun v => { v with fuse := some { f with on := false, bits := f.bits.tail } }) s
      [true, false].foldl (deferStep false false (f.at_ + 10 * us)) s
    else s
  | none => s

/-- What a deferral waits for no longer (R569, R570). -/
def deferLapse (s : State) : State := [true, false].foldl deferLate (pulsePast s)

/-- The key of a Block source that the debug port holds, among the level sources of a wider reset that absorbs it (R566, R568). -/
def blockKey (w : Nat) : Nat × Nat := (causeDebug, 100 + w)

/-- Asserts a source of System reach or wider (R561, R564, R565): a wider one, or one that does not keep DRAM after the entry of one
that did (R567), performs the entry steps that it adds. Its cause bit, reach, whether it keeps DRAM, whether it can be
deferred, and its level key where it is a level source. -/
def assertSource (cause reach : Nat) (keep deferrable : Bool) (level : Option (Nat × Nat)) (s : State) : State :=
  let lv := level.toList ++ ((s.rcp.wraps.filter fun e => e.2.level).map fun e => blockKey e.1)
  let fresh := s.rcp.rst.isNone
  let r : Rst := match s.rcp.rst with
    | none => { since := s.now, reach := reach, keep := keep, level := lv, freeAt := s.now + us }
    | some r => { r with reach := max r.reach reach, keep := r.keep && keep, level := r.level ++ (lv.filter fun k => ! r.level.contains k), freeAt := max r.freeAt (s.now + us), released := false }
  let s := rfield rstCause 14 2 r.reach (rset rstCause cause s)
  let s := if fresh then bump rstCount 1 s else s
  let s := setRcp (fun c => { c with rst := some r, starting := true, gate := true }) s
  let s := pinsSafe s
  let s := if fresh then logBack 0 (if cause = causeSwSystem ∨ cause = causeSwChip then 0 else 2) 0 unitNone (rget rstCause s) 0 s else s
  match r.defer with
  | some d => if deferrable then s else endDeferral false d.flash s.now d s
  | none =>
    match if r.entered = 0 ∧ deferrable then deferNow s else none with
    | some d => rset (rcpBase + 0x14) 0 (putDefer false (some d) s)
    | none => if r.entered < r.reach ∨ (! r.keep ∧ s.dmc.retained) then enterReset s.now s else s

/-- Releases a level source. -/
def releaseSource (key : Nat × Nat) (s : State) : State :=
  setRst (fun r => if r.level.contains key then { r with level := r.level.filter (· != key), freeAt := max r.freeAt s.now } else r) s

/-! ## Wrappers (R578 to R585) -/

def setWrap (w : Nat) (x : Wrap) (s : State) : State := setRcp (fun r => { r with wraps := tabPut r.wraps w x }) s

/-- The clock domain of a wrapper's block (R581): SYS 0, ENG 2, PIX 3, MEDIA 4, IO 5; a port's domain runs from SYS / 4 at worst. -/
def wrapDomain (w : Nat) : Nat :=
  if w < 16 then 0 else if w < 32 then 2 else if w < 34 then 3 else if w < 36 then 4 else if w = 37 ∨ w = 40 then 5 else 0

def clockGood (s : State) (d : Nat) : Bool := bit s.rcp.good d && bit s.rcp.lock d

/-- Whether a wrapper exists on the ordering code (R581). -/
def wrapPresent (w : Nat) (s : State) : Bool := decide (w < 44) && (decide (32 ≤ w) || present 16 (w % 16) s)

/-- Requests a Block reset (R561, R564): absorbed into a wider reset in progress, whose release then waits for it (R566, R568), joined with one of the
same wrapper (R565, R566), and deferred where it names NVS (R572). -/
def assertBlock (w cause : Nat) (level clock : Bool) (s : State) : State :=
  if ! wrapPresent w s then s
  else if s.rcp.rst.isSome then
    let lv := if level then [blockKey w] else []
    setRst (fun r => { r with level := r.level ++ lv.filter (fun k => ! r.level.contains k), freeAt := max r.freeAt (s.now + us), released := false }) (rset rstCause cause s)
  else
    let s := rfield rstCause 14 2 0 (rset rstCause cause s)
    match tabGet s.rcp.wraps w with
    | some o => setWrap w { o with level := level || o.level, clock := clock || o.clock, again := o.again || o.stage == 3, cause := s.dev.cause <|> o.cause } s
    | none =>
      let d := if w = 43 then deferNow s else none
      let s := setWrap w { level := level, clock := clock, waits := d, cause := s.dev.cause } s
      if d.isSome then rset (rcpBase + 0x14) 0 s else s

/-- Every component with pixels in cluster k is closed with TRUNCATED (R584). -/
def closeCluster (verify : Bool) (k : Nat) (s : State) : State :=
  let m := lmuOf s verify
  match m.slot with
  | none => s
  | some slot =>
    let x := lblOf s verify (gnodes (contentsOf s m.ver) slot)
    let n := match m.tags.getLast? with | some t => t.1 | none => 0
    let mine := m.comps.filter fun e => (tabGet e.2.bands k).isSome
    let st := closeAll x true { m with comps := mine }
    let left := m.comps.filter fun e => (tabGet e.2.bands k).isNone
    emitAll x verify slot m.ver n { st with m := { st.m with comps := left } } s

/-- A Block reset of an ELX cluster: the lines on their way are skipped, and it resumes at a strip boundary (R255, R584). The registers that one reset of one
cluster clears are log 197. -/
def elxReset (k : Nat) (s : State) : State :=
  let s := closeCluster true k (closeCluster false k s)
  let passAll (verify : Bool) (s : State) : State :=
    let c := cluOf s verify k
    let s := c.hist.foldl (fun s r => bandPasses verify k r.ser none s) (setClu verify k (fun _ => {}) s)
    (c.backlog ++ c.inq).foldl (skipLine verify k) s
  let s := rclear (elxReg k 0) (elxReg k 0x20) (rput (elxBase + 4) 0 (rfield elxBase (16 + k) 1 0 (rfield elxBase k 1 0 s)))
  let s := if (tabGet s.elx.clu k).isSome then passAll false s else s
  let s := if hostsVerify s k then passAll true s else s
  let s := setElx (fun x => { x with parked := if x.parked.contains k then x.parked else k :: x.parked }) s
  advanceLabels true (advanceLabels false s)

/-- What a Block reset does to each block's work in progress (R584 and the blocks' chapters), and its registers (R25); `nvs` gives up the writes of NVS. -/
def blockEffect (nvs : State → State) (w : Nat) (s : State) : State :=
  if w < 16 then
    let n := w
    let was := (port s n).link
    let s := if was = 2 then loseOutstanding n s else s
    let s := if was = 0 then s else closePort n stOk none s
    rclear (cptBase n) (cptBase n + 0x10000) (setPort n (fun p => { p with d0 := 0, dSet := false, off := false, lanes := p.lanes.map fun l => { l with phys := 0, polInv := false } }) s)
  else if w < 32 then elxReset (w - 16) s
  else if w = 32 then
    let s := closeStrip s
    let lose : FSlot → FSlot := fun x => { x with st := .lost }
    let s := setFep (fun f => { f with hist := f.hist.map fun e => (e.1, e.2.map lose), prev := [], laneQ := [], shade := [], vslots := [], bank := [], pend := [], sel := [], armed := [], seen := [] }) s
    dropCaptures (fun _ _ => true) (rclear (fepBase + 0x30) (fepBase + 0x10000) (rclear fepBase (fepBase + 0x20) s))
  else if w = 33 then clpReset s
  else if w = 34 then rclear vcuBase (vcuBase + 0x10000) (vcuReset s)
  else if w = 35 then tbcReset s
  else if w = 36 then
    setEvr (fun _ => {}) (rclear evrBase (evrBase + 0x10000) s)
  else if w = 37 then
    let s := { s with tmu := { s.tmu with
      state := 0, stepDone := false, offsetFault := false, good := 0, bad := 0, offset := 0, ppsSec := none, ppsBad := 0, incr := 4294967296, snap := []
      tcp := s.tmu.tcp.map fun e => (e.1, { e.2 with fifo := [], missed := 0 }), ttr := s.tmu.ttr.map fun e => (e.1, { e.2 with missed := 0 })
      ptp := { s.tmu.ptp with sync := none, t3 := none, pd := none, haveDelay := false, parent := none, master := false, annAt := s.now } } }
    rclear tmuBase (tmuBase + 0x10000) s
  else if w = 38 then
    let s := (List.range 4).foldl (fun s a => if (axis s a).state = 0 then s else axisStart a (encCfg s a).type (setAxis a (fun x => { x with illegal := 0, zMis := 0, serErr := 0 }) s)) s
    let s := s.pos.cmp.foldl (fun s e => driveCmp e.1 false s) s
    rclear posBase (posBase + 0x10000) { s with pos := { s.pos with ltg := [], exps := [], cmp := [], latch := [] } }
  else if w = 39 then
    let s0 := s
    let s := s.mrk.heads.foldl (fun s e => dropShift e.1 s) s
    let s := s.mrk.heads.foldl (fun s e => if e.2.pulse then emit (.pin pinMhFire e.1 false) s else s) s
    let s := s.mrk.heads.foldl (fun s e => if e.2.en then emit (.pin pinHeadEn e.1 false) s else s) s
    let s := setMrk (fun m => { m with heads := m.heads.map fun e => (e.1, { e.2 with
      en := false, pulse := false, pre := none, crossed := [], svc := none, suspended := false, overN := 0, hot := false, throttled := false, badReads := 0, temp := 0x8000, tempAt := none, k := 0, counted := [], asked := false, latchQ := none }), pend := [], slowOff := none, origin := true }) s
    let s := setDrive false false false (s0.mrk.pend.foldl (fun s p => missMark 7 p s) s)
    rclear (mrkBase + 0x100) (mrkBase + 0x10000) (rclear mrkBase (mrkBase + 0x100) s)
  else if w = 40 then setDma (fun _ => {}) (rclear dmaBase (dmaBase + 0x10000) s)
  else if w = 41 then
    let s := setRes (fun r => { r with subs := r.subs.filter fun e => e.2.mode != 1, writer := [], rate := (0, 0, 0) }) s
    rclear resBase (resBase + 0x10000) s
  else if w = 42 then
    rclear lncBase (lncBase + 0x10000) ((List.range 16).foldl (fun s n => dropScan n (setPort n (fun p => { p with recal := none, scans := [], lanes := p.lanes.map fun l => { l with prov := false } }) s)) s)
  else rclear nvsBase (nvsBase + 0x10000) (nvs s)

/-- The wrapper isolates its block and holds it in reset (R573, R584), a Block reset of NVS once its deferral is over (R572). -/
def blockReset (nvs : State → State) (w : Nat) (s : State) : State :=
  match tabGet s.rcp.wraps w with
  | some x =>
    if (x.stage ≠ 0 ∧ ! x.again) ∨ s.rcp.rst.isSome ∨ x.waits.isSome then s
    else
      let s := setWrap w { x with stage := 1, again := false, at_ := s.now } s
      logMain 10 1 0 w w 0 (bump (rcpBase + 0x40) 1 (causing x.cause (blockEffect nvs w) s))
  | none => s

/-- 64 cycles of the clock of a wrapper's block, in ps (R551, R578). -/
def wrapHold (s : State) (w : Nat) : Nat :=
  let khz : Nat := if w < 16 then (if bit s.rcp.sub w then 400000 else nth [400000, 161130, 219730, 439450] (port s w).rate)
    else match wrapDomain w with | 2 => s.mon.engKhz / 2 ^ max s.mon.divT s.mon.divM | 3 => 1250000 | 4 | 5 => 1000000 | _ => 1600000
  ceilDiv (64 * 1000000000) (max 1 khz)

/-- The block is released after at least 64 cycles, once its clock is good, and restores its configuration (R578, R579). -/
def blockRelease (w : Nat) (s : State) : State :=
  match tabGet s.rcp.wraps w with
  | some x => if x.stage = 1 ∧ ! x.level ∧ ! x.clock ∧ clockGood s (wrapDomain w) ∧ x.at_ + wrapHold s w ≤ s.now then setWrap w { x with stage := 2 } s else s
  | none => s

/-- The restore is done and the wrapper opens (R578): a port is brought up again in a running state, TMU acquires its source again, and
NVS reads its records (R584, R617). -/
def wrapperOpen (w : Nat) (s : State) : State :=
  match tabGet s.rcp.wraps w with
  | some x =>
    if x.stage ≠ 2 ∨ x.level ∨ x.clock then s else
    let s := setRcp (fun r => { r with wraps := tabDel r.wraps w }) s
    if w < 16 then
      match tabGet s.cfg.ports w with
      | some c => if runningState s.dev.state then startBring w .reset c.rate c.fec c.lanes (causing x.cause (setLink w 1 stOk none) s) else s
      | none => s
    else if w < 32 then
      let s := rset elxBase (w - 16) s
      if runningState s.dev.state ∧ bit (bandMask s) (w - 16) then rset elxBase w s else s
    else if w = 32 then enterLines (setFep (fun f => { f with bank := s.cfg.banks }) s)
    else if w = 37 then (if s.tmu.source = 0 then s else setTmuState 1 s)
    else if w = 43 then nvsKick s
    else s
  | none => s

/-! ## Clock failures (R556 to R559) -/

/-- The answer to the failure of PLL or domain d (R559). -/
def clockFail (d : Nat) (s : State) : State :=
  let blocks : List Nat → State := fun ws => ws.foldl (fun s w => assertBlock w causeClk false true s) s
  match d with
  | 0 => assertSource causeClk 2 false true (some (causeClk, 0)) s
  | 1 => assertSource causeClk 1 true true (some (causeClk, 1)) s
  | 5 => assertSource causeClk 1 true true (some (causeClk, 5)) s
  | 6 => assertSource causeClk 1 false true (some (causeClk, 6)) s
  | 2 => blocks ((List.range 16).map (16 + ·))
  | 3 => blocks [32, 33]
  | 4 => blocks [34, 35]
  | _ => s

def clearBit (x i : Nat) : Nat := if bit x i then x - 2 ^ i else x

/-- A PLL loses lock, and with PLL_SYS every PLL that runs from it (R552); the third time within 10 s it is held unlocked, until the next reset of System reach or wider, which may be its own (R559, log 226). -/
def pllUnlock (d : Nat) (s : State) : State :=
  if 7 ≤ d ∨ ! bit s.rcp.lock d then s else
  let times := (s.rcp.unlocks.filter fun e => decide (s.now < e.2 + 10 * secPs)) ++ [(d, s.now)]
  let third := 3 ≤ (times.filter fun e => e.1 == d).length
  let lost := if d = 0 then s.rcp.lock % 128 else 2 ^ d
  let s := setRcp (fun r => { r with
    lock := if d = 0 then 0 else clearBit r.lock d, good := if d = 0 then 0 else clearBit r.good d, unlocks := times
    heldPll := if third then r.heldPll ||| 2 ^ d else r.heldPll }) s
  clockFail d (rput (rcpBase + 4) (rget (rcpBase + 4) s ||| lost * 4) s)

/-- A domain monitor sees a cycle that is not good (R557, R559): 0 to 6 as the PLLs, 7 REF. -/
def clockMonitorBad (d : Nat) (s : State) : State :=
  if d = 7 then setRcp (fun r => { r with ref := false }) s
  else if 7 ≤ d ∨ ! bit s.rcp.good d then s
  else clockFail d (rset (rcpBase + 4) (9 + d) (setRcp (fun r => { r with good := clearBit r.good d }) s))

/-- A domain monitor shows 64 good cycles (R557): its PLL has locked, and a reset held for it is released. A PLL locks only with its
reference (R552), and not while it is held unlocked (R559). -/
def clockMonitorGood (d : Nat) (s : State) : State :=
  if d = 7 then releaseSource (causeClk, 7) (setRcp (fun r => { r with ref := true }) s)
  else if 7 ≤ d ∨ bit s.rcp.heldPll d ∨ ! s.rcp.ref ∨ (d ≠ 0 ∧ ! bit s.rcp.lock 0) then s
  else
    let s := setRcp (fun r => { r with
      lock := r.lock ||| 2 ^ d, good := r.good ||| 2 ^ d
      wraps := r.wraps.map fun e => (e.1, if wrapDomain e.1 = d then { e.2 with clock := false } else e.2) }) s
    releaseSource (causeClk, d) s

/-- REF is lost (R558, R559, R644). -/
def refLost (s : State) : State :=
  let flags := rget (rcpBase + 4) s ||| 2 ||| s.rcp.lock % 128 * 4
  assertSource causeClk 2 false true (some (causeClk, 7)) (rput (rcpBase + 4) flags (setRcp (fun r => { r with ref := false, lock := 0, good := 0 }) s))

/-- The forwarded clock of a port is lost: its domain runs from the substitute (R553). -/
def forwardedClockLoss (n : Nat) (s : State) : State :=
  linkDown n true [] (setRcp (fun r => { r with sub := r.sub ||| 2 ^ n }) s)

def xtalQualify (s : State) : State := setRcp (fun r => { r with xtal := true }) s
def xtalFail (s : State) : State := rset (rcpBase + 4) 0 (setRcp (fun r => { r with xtal := false }) s)

/-! ## Sources (R561 to R563, R666, R669) -/

/-- The backup domain is powered: a Full reset, not counted (R560, R564). -/
def vbatPowerOn (s : State) : State :=
  let s := pinsSafe s
  let s := coreReset 3 false (setRcp (fun r => { r with rst := some { since := s.now, reach := 3, keep := false, entered := 3, freeAt := s.now + us } }) (tearFuse (tearStage (tearWrite s))))
  s

def levelSource (cause reach : Nat) (keep deferrable on : Bool) (key : Nat) (s : State) : State :=
  if on then assertSource cause reach keep deferrable (some (cause, key)) s else releaseSource (cause, key) s

def mainPowerOn (on : Bool) (s : State) : State := levelSource causePor 2 false false on 0 s
def brownout (on : Bool) (s : State) : State := levelSource causeBrown 2 false false on 0 s
def rstPin (low : Bool) (s : State) : State := levelSource causePin 2 false true low 0 s

/-- The management watchdog expires (R563). -/
def watchdogExpiry (s : State) : State :=
  if s.nvs.boot = 0 then s else
  let esc := bit (rget (rcpBase + 0x10) s) 16
  let keep := bit (rget (rcpBase + 0x08) s) 4
  assertSource causeWdog (if esc then 2 else 1) (keep && ! esc) true none (rset (rcpBase + 0x10) 16 s)

/-- Deletes the queue pairs of a link without completions; pair 0 waits for HQ_ADMIN_SIZE (R562). -/
def dropLink (l : Nat) (s : State) : State :=
  { s with dev := { s.dev with pairs := s.dev.pairs.filter fun e => e.1 / 64 != l, trained := s.dev.trained.filter (· != l) } }

/-- A PCIe hot reset, link down or PERST_N[L] begins or ends (R561, R562). -/
def pcieReset (l : Nat) (on : Bool) (s : State) : State :=
  if on then
    let s := dropLink l s
    if bit (rget (rcpBase + 0x08) s) l then assertSource causePcie 1 true true (some (causePcie, l)) s else s
  else releaseSource (causePcie, l) s

/-- The test and debug port asserts or releases a reset (R561). -/
def debugReset (reach wrapper : Nat) (keep on : Bool) (s : State) : State :=
  if reach = 0 then
    if on then assertBlock wrapper causeDebug true false s
    else
      let s := releaseSource (blockKey wrapper) s
      match tabGet s.rcp.wraps wrapper with
      | some x => setWrap wrapper { x with level := false } s
      | none => s
  else if reach ≤ 2 then levelSource causeDebug reach (keep && reach == 1) true on 0 s
  else s

/-- A reset request of RCP_SW_RESET or DIAG_RESET (R561). -/
def swReset (reach wrapper : Nat) (keep : Bool) (s : State) : State :=
  match reach with
  | 0 => assertBlock wrapper causeSwBlock false false s
  | 1 => assertSource causeSwSystem 1 keep true none s
  | 2 => assertSource causeSwChip 2 false true none s
  | _ => s

/-- GO of RCP_SW_RESET with the reach of the row; on the HA an absent wrapper is ignored (R581, R587). -/
def swResetReg (reach value : Nat) (s : State) : State :=
  if bit value 31 ∧ bits value 9 8 = reach then swReset reach (value % 64) (bit value 10) s else s

/-! ## Release (R565, R566, R575 to R577, R580) -/

/-- Every source is released and every clock is good: the release sequence ends as the boot ROM may start. -/
def resetRelease (s : State) : State :=
  match s.rcp.rst with
  | some r =>
    if 0 < r.entered ∧ r.level.isEmpty ∧ r.defer.isNone ∧ r.freeAt ≤ s.now ∧ s.rcp.ref ∧ s.rcp.lock % 128 = 127 ∧ s.rcp.good % 128 = 127 then setRst (fun r => { r with released := true }) (if 2 ≤ r.entered then senseFuses s else s) else s
  | none => s

/-- The debug port forces a release before the clocks are good: the wrappers of blocks without a good clock stay closed (R580). -/
def forcedRelease (s : State) : State :=
  let shut := (List.range 44).filter fun w => wrapPresent w s && ! clockGood s (wrapDomain w)
  let hold : State → Nat → State := fun s w => setWrap w { stage := 3 } s
  match s.rcp.rst with
  | some r =>
    if r.entered = 0 ∨ ! (r.level.all fun k => k.1 == causeClk) then s
    else shut.foldl hold (rset rstCause 11 (setRst (fun r => { r with level := [], released := true }) s))
  | none =>
    let held := (s.rcp.wraps.filter fun e => e.2.stage == 1 && ! e.2.level).map fun e => e.1
    let bad := held.filter fun w => shut.contains w
    if bad.isEmpty then s else bad.foldl hold (rset rstCause 11 s)

/-! ## Registers (R587) -/

def clkStat (s : State) : Nat :=
  boolNat s.rcp.xtal + boolNat s.rcp.ref * 2 + s.rcp.lock % 128 * 4 + s.rcp.good % 128 * 512 + s.rcp.sub % 65536 * 65536

def wrapMask (s : State) (lo n : Nat) (p : Wrap → Bool) : Nat :=
  (s.rcp.wraps.filter fun e => decide (lo ≤ e.1 ∧ e.1 < lo + n) && p e.2).foldl (fun m e => m + 2 ^ (e.1 - lo)) 0

def heldMask (s : State) (lo n : Nat) : Nat := wrapMask s lo n fun x => x.stage == 1
def isoMask (s : State) (lo n : Nat) : Nat := wrapMask s lo n fun x => x.stage == 3

def rcpCntClear (s : State) : State := rput (rcpBase + 0x40) 0 (rput (rcpBase + 0x44) 0 s)

end Sys2Proof.Machine
end

