-- ==== Sys2Proof/Machine/Health.lean ====
section
/-! DEFINITION. Sys2Proof/Machine/Health.lean: monitors, load classes, the margin planner and guard, telemetry, thermal protection, and
the commands of families 0x0F and 0x11 that act on them (chapter 17). -/

namespace Sys2Proof.Machine

def monFlags : Nat := monBase + 4
def monFlag (i : Nat) (s : State) : State := rset monFlags i s

/-- The Measured envelope is in force: recorded, with factory calibration (R594), and AVSBus has not been lost (R633). -/
def inMeasured (s : State) : Bool := s.nvs.set.env == 1 && ! s.nvs.factoryBad && ! s.mon.avsLost

/-! ## Sensors (R620, R621, R637 to R640) -/

/-- A sensor's site exists on the ordering code: clusters 0 to 15, and ports 8 to 15 at sensor 22 (R621). -/
def sensorHere (s : State) (n : Nat) : Bool := ! s.dev.ha || ! (decide (8 ≤ n ∧ n < 16) || n == 22)

def sensorValid (s : State) (n : Nat) : Bool := let x := s.mon.sensors.getD n {}; sensorHere s n && x.read && ! x.bad

def validSensors (s : State) : List Nat := (List.range 24).filter (sensorValid s)

def sensorTemp (s : State) (n : Nat) : Int := (s.mon.sensors.getD n {}).temp

/-- A temperature of 1/16 °C in 0.01 °C. -/
def centi (t : Int) : Int := roundDivUp (t * 25) 4

/-- The lowest-numbered sensor with the highest reading. -/
def hottest (s : State) : List Nat → Option Nat
  | [] => none
  | n :: r => match hottest s r with
    | some m => if sensorTemp s n < sensorTemp s m then some m else some n
    | none => some n

/-- What throttling takes for a cluster's sensor: a bad one is replaced by the hottest valid cluster sensor (R637). -/
def clusterTemps (s : State) : List (Nat × Int) :=
  let good := (List.range 16).filter (sensorValid s)
  (List.range 16).filterMap fun k =>
    if ! sensorHere s k then none
    else if sensorValid s k then some (k, sensorTemp s k)
    else if (s.mon.sensors.getD k {}).bad then (hottest s good).map fun m => (k, sensorTemp s m) else none

/-- The post-divider stage in force: the larger of the guard's and the throttle's (R639). -/
def engDiv (s : State) : Nat := max s.mon.divT s.mon.divM

/-- The user offset of sensor n in 1/16 °C (R613). -/
def userTrim (s : State) (n : Nat) : Int := match s.nvs.trim.find? fun e => e.1 == 0x0100 + n with | some e => roundDivUp (e.2 * 16) 100 | none => 0

/-- Counts a divider increase (R639). -/
def divUp (s : State) : State := monNotify 1 (engDiv s) (logMain 2 1 0 unitMon (toUnsigned 32 s.mon.tj) s.mon.tjSensor (monFlag 1 (bump (monBase + 0x40) 1 s)))

/-- Judges the warning threshold (R638). -/
def judgeWarn (s : State) : State :=
  if ! s.mon.tjOk then s
  else if ! s.mon.warned ∧ s.mon.warnAt ≤ s.mon.tj then
    monNotify 0 s.mon.tj (irqAll 5 (monFlag 0 (logMain 2 1 0 unitMon (toUnsigned 32 s.mon.tj) s.mon.tjSensor (setMon (fun m => { m with warned := true }) s))))
  else if s.mon.tj < s.mon.warnAt - 300 then setMon (fun m => { m with warned := false }) s
  else s

/-- Judges throttling (R639): the first stage at once, and the times from which the other changes run. -/
def judgeThrottle (s : State) : State :=
  let ts := clusterTemps s
  let at_ : Int → Nat × Int → Bool := fun d e => decide ((s.mon.throttleAt + d) * 4 ≤ e.2 * 25)
  let s := if s.mon.divT = 0 ∧ ts.any (at_ 0) then divUp (setMon (fun m => { m with divT := 1 }) s) else s
  let hot := (ts.filter (at_ 400)).map fun e => (e.1, (tabGet s.mon.hotSince e.1).getD s.now)
  let cool := ! (ts.any (at_ (-300)))
  let since := if cool then some (s.mon.coolSince.getD s.now) else none
  setMon (fun m => { m with hotSince := if m.divT = 0 then [] else hot, coolSince := since }) s

/-- Every sensor is read (R620): readings in 1/16 °C after factory trim. -/
def thermalSample (temps : List Int) (s : State) : State :=
  let s := setMon (fun m => { m with sensors := m.sensors.mapIdx fun i x => match temps[i]? with
    | some t => if sensorHere s i then { x with temp := t + userTrim s i, read := true } else x
    | none => x }) s
  let s := match hottest s (validSensors s) with
    | some n => setMon (fun m => { m with tj := centi (sensorTemp s n), tjOk := true, tjSensor := n }) s
    | none => setMon (fun m => { m with tjOk := false }) s
  judgeThrottle (judgeWarn s)

def throttleEscalate (s : State) : State :=
  if s.mon.divT = 1 ∧ s.mon.hotSince.any (fun e => decide (e.2 + 10 * ms ≤ s.now)) then divUp (setMon (fun m => { m with divT := 2 }) s) else s

def throttleRestore (s : State) : State :=
  match s.mon.coolSince with
  | some t =>
    if s.mon.divT ≠ 0 ∧ t + 100 * ms ≤ s.now then
      monNotify 2 (max (s.mon.divT - 1) s.mon.divM : Nat) (setMon (fun m => { m with divT := m.divT - 1, coolSince := some s.now }) s)
    else s
  | none => s

def thermalTrip (s : State) : State := assertSource causeTherm 2 false true (some (causeTherm, 0)) (setRcp (fun r => { r with tripped := true }) s)

def thermalTripEnd (s : State) : State := releaseSource (causeTherm, 0) (setRcp (fun r => { r with tripped := false }) s)

/-- Sensors are compared with the median of the valid ones (R637). -/
def sensorCrossCheck (s : State) : State :=
  let v := validSensors s
  let med := lowerMedian (v.map (sensorTemp s))
  let one : State → Nat → State := fun s n =>
    let d := sensorTemp s n - med
    let s := calRan 4 n (centi d) s
    let fails := if 240 < d.natAbs then (s.mon.sensors.getD n {}).fails + 1 else 0
    let bad := decide (3 ≤ fails)
    let s := setMon (fun m => { m with sensors := listMod m.sensors n fun x => { x with fails := fails, bad := bad } }) s
    if bad then monFlag 9 (logMain 11 1 0 unitMon 0 n s) else s
  v.foldl one s

/-! ## Load classes (R624, R625) -/

def classFloor (c : Nat) : Nat := nth [0, 400, 900, 1400] c

/-- The class of a power in 0.1 W. -/
def classOf (p : Nat) : Nat := if 1400 ≤ p then 3 else if 900 ≤ p then 2 else if 400 ≤ p then 1 else 0

/-- The load class changes; a rise makes the calibrations of lower classes provisional (R625). -/
def setClass (c : Nat) (s : State) : State :=
  let old := s.mon.loadClass
  let s := monNotify 5 c (logMain 12 0 0 unitMon c 0 (setMon (fun m => { m with loadClass := c, rising := m.rising.filter (fun e => decide (c < e.1)), falling := none }) s))
  if c ≤ old then s else monNotify 6 c (dramProvisional c (markProvisional c s))

/-- P_est has been formed, in 0.1 W (R624). -/
def powerEstimate (p : Nat) (s : State) : State :=
  let c := s.mon.loadClass
  let up := (([1, 2, 3].filter fun k => decide (c < k ∧ classFloor k ≤ p)).map fun k => (k, (tabGet s.mon.rising k).getD s.now))
  let down := if p + 50 < classFloor c then some (s.mon.falling.getD s.now) else none
  let s := setMon (fun m => { m with pEst := p, rising := up, falling := down }) s
  match (up.filter fun e => decide (e.2 + 10 * ms ≤ s.now)).getLast? with
  | some e => setClass e.1 s
  | none => match down with
    | some t => if t + secPs ≤ s.now then setClass (classOf p) s else s
    | none => s

/-! ## The margin planner (R626 to R630, R633) -/

def ratedMv : List Nat := [800, 775, 800]
def railLo (r : Nat) : Nat := nth [700, 700, 720] r
def railHi (r : Nat) : Nat := nth [900, 850, 850] r

/-- Whether a WM in 0.1 % reaches m_req at Tj (R627). -/
def wmOk (tj : Int) (wm : Int) : Bool := decide (19500 - tj ≤ wm * 200)

/-- The lowest setpoint of a scan down to which every one passes. -/
def lowestPass (tj : Int) (pts : List (Nat × Int)) : Option Nat :=
  let ok := pts.filter fun p => (pts.all fun q => decide (q.1 < p.1) || wmOk tj q.2)
  ok.foldl (fun m p => match m with | some x => some (min x p.1) | none => some p.1) none

/-- A plan's setpoint of VDD_MEDIA or VDD_CORE: the lowest passing voltage plus 10 mV, within its range. -/
def railPlan (s : State) (r : Nat) (pts : List (Nat × Int)) : Nat :=
  match lowestPass s.mon.tj pts with
  | some v => clampN (railLo r) (railHi r) (v + 10)
  | none => nth s.mon.mv r

/-- The ENG clocks scanned that pass, with their setpoints, lowest clock first. -/
def engChoices (s : State) (f : PlanScan) : List (Nat × Nat) :=
  f.eng.filterMap fun e => (lowestPass s.mon.tj e.2).map fun v => (e.1, max 700 (v + 10))

/-- Whether a clock and its setpoint meet the voltage and power limits (R627). -/
def engFits (s : State) (mv1 mv2 : Nat) (e : Nat × Nat) : Bool :=
  decide (e.2 ≤ 900) && e.1 % 25 == 0 && decide (Config.pPred e.1 [e.2, mv1, mv2] ≤ s.nvs.set.watts * 10)

/-- The plan of R627 from what was measured, and whether it is a low one. -/
def formPlan (s : State) (f : PlanScan) : Plan × Bool :=
  let a := railPlan s 1 f.media
  let b := railPlan s 2 f.core
  let fit := (engChoices s f).filter (engFits s a b)
  let best : List (Nat × Nat) → Option (Nat × Nat) := fun xs => xs.foldl (fun m e => match m with | some x => if x.1 < e.1 then some e else some x | none => some e) none
  let top := best (fit.filter fun e => if s.nvs.set.goal = 0 then decide (2000 ≤ e.1 ∧ e.1 ≤ 2200) else e.1 == 2000)
  match top with
  | some e => ({ mhz := e.1, mv := [e.2, a, b] }, false)
  | none => match best (fit.filter fun e => decide (1000 ≤ e.1 ∧ e.1 < 2000)) with
    | some e => ({ mhz := e.1, mv := [e.2, a, b] }, true)
    | none => ({ mhz := s.mon.engKhz / 1000, mv := [nth s.mon.mv 0, a, b] }, true)

/-- AVSBus commands from one setpoint to another, at most 10 mV each (R629). -/
def railSteps (r b : Nat) : Nat → Nat → List (Nat × Nat)
  | 0, _ => []
  | k + 1, a =>
    if a = b then []
    else
      let n := if a < b then min b (a + 10) else max b (a - 10)
      (r, n) :: railSteps r b k n

def stepsTo (s : State) (r b : Nat) : List (Nat × Nat) := railSteps r b 100 (nth s.mon.mv r)

/-- The setpoint a rail has or is on its way to. -/
def railTarget (s : State) (r : Nat) : Nat := match (s.mon.moves.filter fun e => e.1 == r).getLast? with | some e => e.2 | none => nth s.mon.mv r

/-- Moves that a run must not see, a change of clock and what follows it, are held with the plan (R554, R630). -/
def holdMoves (s : State) : State :=
  let ups := s.mon.moves.takeWhile fun e => e.1 != 3 && decide (nth s.mon.mv e.1 < e.2)
  if ups.length = s.mon.moves.length then s else setMon (fun m => { m with moves := ups, held := some m.plan }) s

/-- A move numbered 3 changes the ENG clock, in MHz; it needs no AVSBus command. -/
def runClock : List (Nat × Nat) → State → State
  | [], s => setMon (fun m => { m with moves := [] }) s
  | (r, x) :: rest, s => if r = 3 then runClock rest (setMon (fun m => { m with engKhz := x * 1000 }) s) else setMon (fun m => { m with moves := (r, x) :: rest }) s

/-- Applies a plan now: a lower clock at once, voltages up, then a higher clock, then voltages down (R40, R629); nothing moves once
setpoints are frozen (R633). -/
def applyPlan (p : Plan) (s : State) : State :=
  let s := setMon (fun m => { m with held := none, divM := 0, divAt := none }) s
  if s.mon.frozen then s else
  let rails := [0, 1, 2]
  let ups := (rails.filter fun r => decide (nth s.mon.mv r < nth p.mv r)).flatMap fun r => stepsTo s r (nth p.mv r)
  let downs := (rails.filter fun r => decide (nth p.mv r < nth s.mon.mv r)).flatMap fun r => stepsTo s r (nth p.mv r)
  runClock (if p.mhz * 1000 ≤ s.mon.engKhz then (3, p.mhz) :: (ups ++ downs) else ups ++ (3, p.mhz) :: downs) s

/-- A plan takes effect (R630): in RUNNING and DRAINING only its increases of voltage, and a voltage that keeps WM at m_req with a
clock that is held. -/
def takePlan (p : Plan) (s : State) : State :=
  if s.dev.state ≠ .running ∧ s.dev.state ≠ .draining then applyPlan p s
  else
    let now := s.mon.engKhz / 1000
    let v0 := if p.mhz = now then nth p.mv 0 else (tabGet s.mon.vEng now).getD (nth p.mv 0)
    let want := [min 900 v0, nth p.mv 1, nth p.mv 2]
    let ups := ([0, 1, 2].filter fun r => decide (nth s.mon.mv r < nth want r)).flatMap fun r => stepsTo s r (nth want r)
    let held := p.mhz ≠ now ∨ [0, 1, 2].any fun r => decide (nth p.mv r < nth s.mon.mv r)
    let s := setMon (fun m => { m with held := if held then some p else none, moves := if m.frozen then [] else ups }) s
    if p.mhz < now then monFlag 7 s else s

/-- A held plan is applied once the device is in neither RUNNING nor DRAINING (R630). -/
def releaseHeldPlan (s : State) : State :=
  match s.mon.held with
  | some p => if s.dev.state = .running ∨ s.dev.state = .draining then s else applyPlan p s
  | none => s

/-- Begins to form a plan, in the Measured envelope only (R628). -/
def startPlan (s : State) : State := if inMeasured s then setMon (fun m => { m with planning := true }) s else s

/-- The reply of a command that waits for a plan: 0 ENVELOPE_SET, 1 PLAN_RUN (R650). -/
def planPs (p : Plan) (kind : Nat) : List RV := u32 p.mhz :: if kind = 1 then p.mv.map u16 else []

/-- The planner finishes a plan (R627, R630). -/
def planFormed (f : PlanScan) (s : State) : State :=
  if ! s.mon.planning then s else
  let r := formPlan s f
  let waiters := s.mon.planWait
  let vs := (engChoices s f).foldl (fun t e => tabPut t e.1 e.2) ([] : Tab Nat)
  let s := setMon (fun m => { m with planning := false, planWait := [], plan := r.1, vEng := vs }) s
  let s := if r.2 then monFlag 8 s else s
  let s := monNotify 4 r.1.mhz (logMain 13 0 0 unitMon r.1.mhz 0 s)
  let s := takePlan r.1 s
  waiters.foldl (fun s w => answer w.1 stOk (planPs r.1 w.2) s) s

/-- AVSBus has failed three times (R633). -/
def avsLostNow (r : Nat) (s : State) : State :=
  let s := setMon (fun m => { m with frozen := true, avsOk := false, avsLost := true, moves := [], avsFails := 0 }) s
  monNotify 7 r (monFlag 5 (logMain 5 2 0 unitMon r 0 s))

/-- The next AVSBus command ends, acknowledged and read back or not; commands to one rail lie 20 µs or more apart (R629, R633). -/
def avsCommand (ok : Bool) (s : State) : State :=
  match s.mon.moves with
  | [] =>
    if ! ok then s
    else
      let lost := s.mon.avsLost && ! s.mon.frozen
      let s := setMon (fun m => { m with avsOk := ! m.frozen, avsLost := m.avsLost && m.frozen }) s
      if lost then startPlan s else s
  | (r, v) :: rest =>
    let early : Bool := match tabGet s.mon.avsAt r with | some t => decide (s.now < t + 20 * us) | none => false
    if early then s else
    let s := emit (.bus 0 r v) (setMon (fun m => { m with avsAt := tabPut m.avsAt r s.now }) s)
    if ok then runClock rest (setMon (fun m => { m with mv := listMod m.mv r fun _ => v, avsOk := true, avsFails := 0 }) s)
    else if 2 ≤ s.mon.avsFails then avsLostNow r s
    else setMon (fun m => { m with avsFails := m.avsFails + 1 }) s

/-! ## The margin guard, droops and ageing (R622, R623, R631, R632) -/

/-- The rail of a timing-margin monitor's domain (R620, R626). -/
def tmmRail (n : Nat) : Nat := if n < 16 then 0 else if n = 18 ∨ n = 19 then 1 else 2

def tmmHere (s : State) (n : Nat) : Bool := decide (n < 22) && (! s.dev.ha || ! decide (8 ≤ n ∧ n < 16))

/-- The readings of the monitors that a rail feeds. -/
def railTmm (s : State) (r : Nat) : List (Nat × Int) :=
  (s.mon.tmm.mapIdx fun i x => (i, x)).filter fun e => tmmHere s e.1 && tmmRail e.1 == r

def leastTmm : List (Nat × Int) → Option (Nat × Int)
  | [] => none
  | e :: r => match leastTmm r with
    | some m => if m.2 < e.2 then some m else some e
    | none => some e

/-- The highest setpoint that the guard may give a rail (R631). -/
def railLimit (s : State) (r : Nat) : Nat := if inMeasured s then railHi r else nth ratedMv r + 30

/-- Whether a rail cannot be raised by another 5 mV. -/
def atLimit (s : State) (r : Nat) : Bool := s.mon.frozen || decide (railLimit s r < railTarget s r + 5)

def raiseRail (r : Nat) (s : State) : State := setMon (fun m => { m with moves := m.moves ++ [(r, railTarget s r + 5)] }) s

/-- Step 1 of R631 on one rail. -/
def guardRail (s : State) (r : Nat) : State :=
  match leastTmm (railTmm s r) with
  | none => s
  | some w =>
    let free : Bool := match tabGet s.mon.raised r with | some t => decide (t + 10 * ms ≤ s.now) | none => true
    if w.2 < 20 ∧ free ∧ ! atLimit s r then
      let s := raiseRail r (setMon (fun m => { m with raised := tabPut m.raised r s.now }) s)
      monNotify 3 w.2 (monFlag 2 (logMain 3 1 0 unitMon (toUnsigned 32 w.2) w.1 s))
    else s

/-- The margin guard (R631): readings of the 22 monitors in 0.1 %. -/
def marginGuard (tmm : List Int) (s : State) : State :=
  let s := setMon (fun m => { m with tmm := tmm }) s
  let eng := leastTmm (railTmm s 0)
  let engLow : Bool := match eng with | some w => decide (w.2 < 5) && atLimit s 0 | none => false
  let lost := [1, 2].findSome? fun r => match leastTmm (railTmm s r) with
    | some w => if w.2 < 5 ∧ atLimit s r then some w.1 else none
    | none => none
  let s := [0, 1, 2].foldl guardRail s
  let s := if engLow ∧ s.mon.divAt.isNone then
      monFlag 3 (logMain 3 2 0 unitMon (match eng with | some w => toUnsigned 32 w.2 | none => 0) (match eng with | some w => w.1 | none => 0) (setMon (fun m => { m with divM := 1, divAt := some s.now }) s))
    else s
  let any := leastTmm ((s.mon.tmm.mapIdx fun i x => (i, x)).filter fun e => tmmHere s e.1)
  let late : Bool := match s.mon.divAt, any with | some t, some w => decide (t + 10 * ms ≤ s.now) && decide (w.2 < 5) | _, _ => false
  match lost with
  | some n => faultEntry 5 unitMon n s
  | none => if late then faultEntry 5 unitMon (match any with | some w => w.1 | none => 0) s else s

/-- A droop detector counts an excursion; too many within 1 s raise the rail (R632). -/
def droopEvent (r : Nat) (s : State) : State :=
  if 3 ≤ r then s else
  let times := (((tabGet s.mon.droops r).getD []) ++ [s.now]).filter fun t => decide (s.now < t + secPs)
  let s := bump (monBase + 0x44 + r * 4) 1 s
  if times.length ≤ s.mon.droopLimit then setMon (fun m => { m with droops := tabPut m.droops r times }) s
  else
    let s := setMon (fun m => { m with droops := tabDel m.droops r }) s
    let s := if atLimit s r then s else raiseRail r s
    monNotify 8 r (monFlag 4 (logMain 4 1 0 unitMon r 0 s))

/-- The ageing pairs are measured (R622): shifts in ppm. -/
def ageingMeasure (shifts : List Nat) (s : State) : State :=
  let shifts := shifts.take 40
  let s := (shifts.mapIdx fun i x => (i, x)).foldl (fun s e => calRan 3 e.1 e.2 s) s
  let top := shifts.foldl max 0
  let idx := min 255 (top / 2500)
  let s := setMon (fun m => { m with shift := top }) s
  if idx ≤ s.mon.ageIdx then setMon (fun m => { m with ageSeen := [] }) s
  else if s.mon.ageSeen.length < 2 then setMon (fun m => { m with ageSeen := idx :: m.ageSeen }) s
  else startPlan (setMon (fun m => { m with ageIdx := idx, ageSeen := [] }) s)

/-! ## Regulators (R634) -/

/-- The bits of STATUS_WORD that report VOUT_OV, VOUT_UV, IOUT_OC or a temperature fault (log 58). -/
def railFaultBits : Nat := 0x8034

/-- The command codes of READ_VOUT, READ_IOUT, READ_TEMPERATURE_1 and STATUS_WORD (log 225). -/
def pmbusReads : List Nat := [0x8B, 0x8C, 0x8D, 0x79]

/-- Regulators are read over PMBus: mV, mA, temperature and STATUS_WORD of those configured. -/
def telemetryRead (rs : List (Nat × Nat × Int × Nat)) (s : State) : State :=
  match s.mon.tele with
  | none => s
  | some c =>
    let read := (rs.mapIdx fun i r => (i, r)).filter fun e => nth c.addrs e.1 != 0 && decide (e.1 < 8)
    let s := read.foldl (fun s e => pmbusReads.foldl (fun s k => emit (.bus 1 (nth c.addrs e.1) k) s) s) s
    let s := read.foldl (fun s e =>
      let x : Telem := ⟨e.2.1, e.2.2.1, e.2.2.2.1, e.2.2.2.2⟩
      let rail := nth c.rails e.1
      setMon (fun m => { m with telem := tabPut m.telem e.1 x, readMv := if rail < 3 then listMod m.readMv rail fun _ => x.mv else m.readMv }) s) s
    match read.find? fun e => e.2.2.2.2 &&& railFaultBits != 0 with
    | some e => faultEntry 6 unitMon e.1 (monFlag 6 (logMain 6 2 0 unitMon e.1 e.2.2.2.2 s))
    | none => s

/-! ## FAULT: its automatic reset and FAULT_CLEAR (R641, R652) -/

def faultHoldExpiry (s : State) : State :=
  if s.dev.state ≠ .fault ∨ s.nvs.set.hold = 0 ∨ s.now < s.mon.faultAt + s.nvs.set.hold * secPs then s
  else if s.dev.faultClass = 2 ∨ s.dev.faultClass = 6 then swReset 2 0 false s
  else if s.dev.faultClass = 3 ∨ s.dev.faultClass = 5 ∨ s.dev.faultClass = 7 then swReset 1 0 false s
  else s

/-- Whether the condition of R641 for clearing the class in force holds. -/
def faultOver (s : State) : Bool :=
  if s.dev.faultClass = 4 then match webAxis s with | some a => (axis s a).state != 2 | none => true
  else if s.dev.faultClass = 6 then ! s.mon.telem.any fun e => e.2.status &&& railFaultBits != 0
  else false

def faultClear : Cmd := mkFaultClear fun _ s =>
  if faultOver s then .ok (setState .standby stOk { s with dev := { s.dev with faultClass := 0 } }) [] else .no eBusy []

/-- The oldest DIAG_RESET whose 10 ms have passed is asserted (R651, R652). -/
def diagResetAssert (s : State) : State :=
  match s.rcp.diag with
  | d :: rest => if d.at_ ≤ s.now then causing d.cause (swReset d.reach d.wrapper d.keep) (setRcp (fun r => { r with diag := rest }) s) else s
  | [] => s

/-! ## Registers (R649) -/

def monStat (s : State) : Nat :=
  s.mon.loadClass + s.nvs.set.goal * 4 + engDiv s * 8 + boolNat s.mon.held.isSome * 32 + boolNat s.mon.avsOk * 64 + s.mon.ageIdx * 256

def monTj (s : State) : Nat := if s.mon.tjOk then toUnsigned 16 (sensorTemp s s.mon.tjSensor * 16) + s.mon.tjSensor * 65536 else 0x8000

def monPower (s : State) : Nat := min 65535 s.mon.pEst + s.nvs.set.watts * 10 * 65536

def monPlan (s : State) : Nat := s.mon.engKhz / 1000 + s.mon.plan.mhz * 65536

def monVolt (s : State) (r : Nat) : Nat := nth s.mon.mv r + min 65535 (nth s.mon.readMv r) * 65536

def monMargin (s : State) : Nat :=
  match leastTmm ((s.mon.tmm.mapIdx fun i x => (i, x)).filter fun e => tmmHere s e.1) with
  | some w => toUnsigned 16 w.2 + w.1 * 65536
  | none => 0

def monAge (s : State) : Nat := s.mon.ageIdx + min 0xFFFFFF s.mon.shift * 256

def monTemp (s : State) (n : Nat) : Nat :=
  if sensorHere s n ∧ (s.mon.sensors.getD n {}).read then toUnsigned 16 (sensorTemp s n * 16) + boolNat (sensorValid s n) * 65536 else 0x8000

def monCntClear (s : State) : State :=
  [0x40, 0x44, 0x48, 0x4C, 0x50, 0x54].foldl (fun s o => rput (monBase + o) 0 s) s

/-! ## Commands of family 0x0F (R650) -/

/-- A change of the recorded envelope takes effect (R627, R628, R630): a plan is formed, or the Rated settings apply. -/
def envelopeChanged (s : State) : State := if inMeasured s then startPlan s else takePlan {} (setMon (fun m => { m with plan := {}, planning := false }) s)

def envelopeSet (p : PEnvelopeSet) : Cmd := mkEnvelopeSet p fun tk p s =>
  storeWith recSet { tk := tk, next := 1 } (fun s => envelopeChanged (setNvs (fun v => { v with set := { v.set with env := p.env, goal := p.goal, watts := p.watts } }) s)) s

def planRun : Cmd := mkPlanRun fun tk s =>
  if inMeasured s then .later (setMon (fun m => { m with planning := true, planWait := m.planWait ++ [(tk, 1)] }) s)
  else .ok s (planPs s.mon.plan 1)

/-- MON_STATUS. In BOOT a sensor that has not been read yet reads 0, and so does MON_TJ until one has (R113). -/
def monStatus : Cmd := mkMonStatus fun _ s =>
  let unread : Int := if s.dev.state = .boot then 0 else -32768
  let temps := (List.range 24).map fun n => if sensorHere s n ∧ (s.mon.sensors.getD n {}).read then s16 (centi (sensorTemp s n)) else s16 unread
  let tj := if s.dev.state = .boot ∧ (validSensors s).isEmpty then 0 else monTj s
  .ok s ([monStat s, tj, monPower s, monPlan s, monMargin s, monAge s, monVolt s 0, monVolt s 1, monVolt s 2].map u32 ++ temps)

def thermalConfig (p : PThermalConfig) : Cmd := mkThermalConfig p fun _ p s => .ok (judgeWarn (setMon (fun m => { m with warnAt := p.warn, throttleAt := p.throttle }) s)) []

def marginConfig (p : PMarginConfig) : Cmd := mkMarginConfig p fun _ p s => .ok (setMon (fun m => { m with droopMv := p.droopMv, droopLimit := p.droopLimit }) s) []

def telemetryConfig (p : PTelemetryConfig) : Cmd := mkTelemetryConfig p fun _ p s =>
  .ok (setMon (fun m => { m with tele := some p, telem := [], readMv := [0, 0, 0] }) s) []

def telemetryReadCmd (p : PTelemetryRead) : Cmd := mkTelemetryRead p fun _ p s =>
  let x := (tabGet s.mon.telem p.reg).getD ⟨0, 0, 0, 0⟩
  .ok s [u16 x.mv, u32 x.ma, s16 x.temp, u16 x.status]

/-- Instances of a calibration kind (R635). -/
def calCount (kind : Nat) : Nat := nth [64, 12, 12, 40, 24] kind

/-- The provisional flag of a calibration item (R635). -/
def calProv (s : State) (kind i : Nat) : Bool :=
  match kind with
  | 0 => ((port s (i / 4)).lanes.getD (i % 4) {}).prov
  | 1 => (dramCh s i).prov
  | _ => false

def calStatus (p : PCalStatus) : Cmd := mkCalStatus p
  (fun _ p s =>
    let x := (tabGet s.mon.cal (calKey p.kind p.which)).getD {}
    .ok s [u32 x.count, u64 x.last, s32 x.quality, s16 x.tj, u8 x.cls, u8 (boolNat (calProv s p.kind p.which))])
  (fun p _ => if calCount p.kind ≤ p.which then some (eParam, []) else none)

def faultPolicy (p : PFaultPolicy) : Cmd := mkFaultPolicy p fun tk p s =>
  storing recSet tk [] (setNvs fun v => { v with set := { v.set with hold := p.hold } }) s

def errlogRead (p : PErrlogRead) : Cmd := mkErrlogRead p fun _ p s =>
  let log := if p.log = 0 then s.mon.log else s.mon.blog
  let no := if p.log = 0 then s.mon.logNo else s.mon.blogNo
  .ok s (u64 no :: ((log.reverse.filter fun e => decide (p.first ≤ e.no)).take p.count).map fun e => .block (logBytes e))

def monCountersClear : Cmd := mkMonCountersClear fun _ s => .ok (monCntClear s) []

/-! ## Diagnostics of family 0x11 (R647, R651, R652) -/

/-- Asserted 10 ms after the reply; refused in NO_FIRMWARE. -/
def diagReset (p : PDiagReset) : Cmd := mkDiagReset p
  (fun tk p s => .ok (setRcp (fun r => { r with diag := r.diag ++ [⟨s.now + 10 * ms, p.reach, p.wrapper, p.keep == 1, some (tk.session, tk.tag)⟩] }) s) [])

/-- An uncorrectable SRAM error in a wrapped block (R645, R647): its Block reset. -/
def sramUe (w : Nat) (s : State) : State := assertBlock w causeSwBlock false false (logMain 8 2 0 w w 0 (bump (monBase + 0x54) 1 s))

def sramCe (w : Nat) (s : State) : State := logMain 7 0 0 w w 0 (bump (monBase + 0x50) 1 s)

def diagInject (p : PDiagInject) : Cmd := mkDiagInject p
  (fun _ p s =>
    if p.kind < 2 then
      let keep := s.dmc.bad.filter fun e => ! (e.1 == 0 && e.2.1 == p.target / 64)
      .ok (setDmc (fun d => { d with bad := keep ++ [(0, p.target / 64, p.kind)] }) s) []
    else if p.kind = 2 then .ok (sramCe p.target s) [] else .ok (sramUe p.target s) [])
  (fun p s =>
    if p.kind < 2 then (if s.cfg.userMib * 1048576 ≤ p.target then some (eParam, []) else none)
    else if 44 ≤ p.target then some (eParam, []) else none)

/-- A cluster that has hung for 10 ms with lines waiting is Block reset (R645). -/
def clusterHang (k : Nat) (s : State) : State :=
  if (cluOf s false k).backlog.isEmpty ∧ (cluOf s false k).inq.isEmpty ∧ ! (hostsVerify s k && ! (cluOf s true k).backlog.isEmpty) then s
  else assertBlock (16 + k) causeSwBlock false false s

end Sys2Proof.Machine
end

