-- ==== Sys2Proof/Machine/MarkCmds.lean ====
section
/-! DEFINITION. Sys2Proof/Machine/MarkCmds.lean: marking heads (chapter 09): commit checks, registers, and the commands of family 0x09
except MRK_CAL_SAVE. -/

namespace Sys2Proof.Machine

/-! ## Checks of CONFIG_COMMIT (R350, R358, R380) -/

/-- The lowest nozzle whose pair and slot a lower present nozzle already names (R350). -/
def remapClash (s : State) (h n : Nat) : Option Nat :=
  let ws := ((List.range n).map fun i => (i, remapOf s h i)).filter fun e => bit e.2 15
  (ws.find? fun e => ws.any fun o => decide (o.1 < e.1) && o.2 % 1024 == e.2 % 1024).map fun e => e.1

/-- The shortest legal T_min of a head in ns, where its F_max gives less (R358). -/
def tMinFault (s : State) (h : Nat) (c : PMrkHeadConfig) (p : PMrkPreheat) : Option Nat :=
  let fixed := c.wMain + c.latchW + 40 + (p.w.take p.count).foldl (fun a w => a + w + p.gap) 0
  let need := fixed * c.busKhz + shiftLen s h c.nozzles * 1000000
  if 1000000000 * c.busKhz < c.fmax * need then some (ceilDiv need c.busKhz) else none

/-- Whether a verification stream's generator drives it on the web axis (R380). -/
def verifyGeoBad (s : State) (st : Nat) : Bool :=
  match tabGet s.cfg.streams st with
  | some c => match tabGet s.cfg.ltg c.trig with
    | some g => webAxis s != some g.axis
    | none => true
  | none => true

/-- What refuses the marking configuration at CONFIG_COMMIT. -/
def mrkCommitFault (s : State) : Option (Nat × List RV) :=
  match (markHeads s).findSome? fun e => (remapClash s e.1 e.2.nozzles).map fun i => [u8 e.1, u16 i] with
  | some r => some (eParam, r)
  | none =>
    match (markHeads s).findSome? fun e => (tMinFault s e.1 e.2 (preheatOf s e.1)).map fun t => [u8 e.1, u32 t] with
    | some r => some (eParam, r)
    | none => (s.cfg.verifyGeo.find? fun e => verifyGeoBad s e.1).map fun e => (eParam, [u8 e.1])

/-! ## Registers (R387) -/

def mrkStat (s : State) : Nat :=
  boolNat s.mrk.slow + boolNat s.mrk.stop * 2 + boolNat s.mrk.rev * 4 + boolNat s.mrk.ldack * 8 + s.cfg.lineMode.mode % 2 * 16

def mhStat (s : State) (h : Nat) : Nat :=
  let x := mhead s h
  headMode s h + boolNat x.en * 4 + boolNat x.throttled * 8 + boolNat x.suspended * 16 + x.k % 32 * 32 + x.temp * 65536

/-- Every MRK counter to 0 (R387). -/
def mrkCntClear (s : State) : State :=
  let s := setMrk (fun m => { m with heads := m.heads.map fun e => (e.1, { e.2 with counted := [] }) }) s
  (List.range 16).foldl (fun s h => rput (mhReg h 0x1C) 0 (rput (mhReg h 0x18) 0 (rput (mhReg h 0x14) 0 (rput (mhReg h 0x10) 0 s)))) (rput (mrkBase + 0x0C) 0 s)

/-! ## Commands of family 0x09 (R388) -/

def setCfg (f : Cfg → Cfg) (s : State) : State := { s with cfg := f s.cfg }

def mrkHeadConfig (p : PMrkHeadConfig) : Cmd := mkMrkHeadConfig p fun _ p s =>
  .ok (setCfg (fun c => { c with heads := tabPut c.heads p.head p }) s) []

/-- Entries of MRK_REMAP_LOAD; one whose reserved bits are not 0 is refused, as is a run beyond nozzle 1,023 (R86, R350). -/
def mrkRemapLoad (p : PMrkRemapLoad) : Cmd := mkMrkRemapLoad p
  (fun _ p s => .ok (setCfg (fun c => { c with remap := (p.data.mapIdx fun i w => (i, w)).foldl (fun t e => tabPut t (p.head * 1024 + p.first + e.1) e.2) c.remap }) s) [])
  (fun p _ => if 1024 < p.first + p.count ∨ p.data.any (fun w => bits w 14 12 != 0) then some (eParam, []) else none)

def mrkPreheat (p : PMrkPreheat) : Cmd := mkMrkPreheat p
  (fun _ p s => .ok (setCfg (fun c => { c with preheat := tabPut c.preheat p.head p }) s) [])
  (fun p s => match tabGet s.cfg.heads p.head with
    | some c => (tMinFault s p.head c p).map fun t => (eParam, [u8 p.head, u32 t])
    | none => none)

def mrkThermal (p : PMrkThermal) : Cmd := mkMrkThermal p fun _ p s =>
  .ok (judgeSuspend p.head (setCfg (fun c => { c with thermal := tabPut c.thermal p.head p }) s)) []

def mrkStyle (p : PMrkStyle) : Cmd := mkMrkStyle p fun _ p s => .ok (setCfg (fun c => { c with style := p }) s) []

def mrkLineMode (p : PMrkLineMode) : Cmd := mkMrkLineMode p fun _ p s => .ok (setCfg (fun c => { c with lineMode := p }) s) []

/-- MRK_HEAD_MODE; dots still to be fired on a head that goes into SERVICE are treated as R365 gives. -/
def mrkHeadMode (p : PMrkHeadMode) : Cmd := mkMrkHeadMode p fun _ p s =>
  let s := setCfg (fun c => { c with headMode := tabPut c.headMode p.head p.mode }) s
  .ok (if p.mode = 2 then transfer p.head s else setMHead p.head (fun x => { x with svc := none }) s) []

def mrkOverlap (p : PMrkOverlap) : Cmd := mkMrkOverlap p
  (fun _ p s => .ok (setCfg (fun c => { c with overlap := tabPut c.overlap p.head p }) s) [])
  (fun p s => match tabGet s.cfg.heads p.head, tabGet s.cfg.heads p.neighbour with
    | some a, some b => if a.ph ≠ b.ph then some (eParam, []) else none
    | _, _ => none)

def mrkServicePattern (p : PMrkServicePattern) : Cmd := mkMrkServicePattern p fun _ p s =>
  .ok (setCfg (fun c => { c with pattern := tabPut c.pattern p.head p.bitmap }) s) []

def mrkServiceFire (p : PMrkServiceFire) : Cmd := mkMrkServiceFire p fun _ p s =>
  if headMode s p.head ≠ 2 then .no eState []
  else .ok (setMHead p.head (fun x => { x with svc := some ⟨p.pattern == 1, p.rate, p.lines, s.now + secPs / p.rate⟩ }) s) []

def mrkVerifyGeometry (p : PMrkVerifyGeometry) : Cmd := mkMrkVerifyGeometry p fun _ p s =>
  .ok (setCfg (fun c => { c with verifyGeo := tabPut c.verifyGeo p.stream p }) s) []

/-- A test print on a head that is not in PRODUCTION is refused (log 39). -/
def mrkTestPrint (p : PMrkTestPrint) : Cmd := mkMrkTestPrint p fun _ p s =>
  if ! production s p.head then .no eState []
  else .ok (offer (.print p.head p.s p.r p.md) s) []

def mrkDotRead (p : PMrkDotRead) : Cmd := mkMrkDotRead p
  (fun _ p s =>
    let x := mhead s p.head
    let b := (tabGet s.mrk.prop p.head).getD []
    .ok s ((List.range p.count).flatMap fun i =>
      let e := x.found.getD (p.first + i) (0, 0, 0)
      [.align 4, u8 e.1, u8 (boolNat (calDead b (p.first + i))), .align 4, s32 e.2.1, s32 e.2.2]))
  (fun p _ => if 1024 < p.first + p.count then some (eParam, []) else none)

def mrkCalRead (p : PMrkCalRead) : Cmd := mkMrkCalRead p fun _ p s =>
  if p.which = 0 then .ok s [.block (calOf s p.head)]
  else match tabGet s.mrk.prop p.head with
    | some b => .ok s [.block b]
    | none => .no eState []

/-- A calibration takes effect (R386). An instant that has been latched keeps its own q_j; the others are re-timed, and those that
the new delay puts behind the position are LATE; a nozzle that it makes dead fires no dot that has not been latched (R364). While a head holds j_r every instant from j_r on is still to be fired (R371). -/
def applyCal (h : Nat) (b : List Nat) (s : State) : State :=
  let x := mhead s h
  let latched := match x.shift with | some k => if k.fall ≤ s.now then some k.inst else none | none => none
  let dead : Dot → Dot := fun d => if d.cause = 255 ∧ some d.inst ≠ latched ∧ calDead b d.noz then { d with cause := 3 } else d
  let keep := latched.map fun j => (j, fireAt s h j)
  let s := setMrk (fun m => { m with cal := tabPut m.cal h b }) (setMHead h (fun x => { x with latchQ := keep, dots := x.dots.map dead, shift := if latched.isSome then x.shift else none }) s)
  if (tabGet s.cfg.heads h).isNone ∨ x.jr.isSome then s else
  let past := hwmBelow s h
  let j := match latched with | some l => min past (l - 1) | none => past
  let s := dropDots h 4 (fun d => decide (d.inst ≤ past) && some d.inst != latched) s
  if x.hwm < j then
    judgeLow h (bufLevel x) (reshift h (setMHead h (fun x => { x with hwm := j, seen := max x.seen j, top := max x.top j }) s))
  else reshift h s

/-- The little-endian half words of a string of bytes. -/
def halfWords : List Nat → List Nat
  | lo :: hi :: r => (lo % 256 + hi % 256 * 256) :: halfWords r
  | _ => []

/-- Whether a block's check word fails, or a reserved field, its head or its version is not legal (R385). -/
def calBad (b : List Nat) : Bool :=
  leAt b 2448 4 != crc32c (b.take 2448) || nth b 1 != 0 || leAt b 2 2 != 1 || leAt b 13 3 != 0 || 15 < nth b 0 ||
    (halfWords ((b.drop 400).take 2048)).any fun w => bit w 14

def mrkCalSet (p : PMrkCalSet) : Cmd := mkMrkCalSet p
  (fun _ p s => .ok (applyCal (nth p.block 0) p.block s) [])
  (fun p _ => if calBad p.block then some (eFormat, []) else none)

def mrkCalAccept (p : PMrkCalAccept) : Cmd := mkMrkCalAccept p fun _ p s =>
  match tabGet s.mrk.prop p.head with
  | some b => .ok (applyCal p.head b s) []
  | none => .no eState []

def mrkStatus (p : PMrkStatus) : Cmd := mkMrkStatus p fun _ p s =>
  let h := p.head
  let x := mhead s h
  .ok s ([u32 (mhStat s h), u32 (bufLevel x), s64 x.hwm, u32 (min (rho s h) 0xFFFFFFFF)] ++
    [0x10, 0x14, 0x18, 0x1C].map (fun o => u32 (rget (mhReg h o) s)) ++ [s64 (x.jr.getD 0)])

def mrkMissRead (p : PMrkMissRead) : Cmd := mkMrkMissRead p fun _ p s =>
  let es := (s.mrk.log.reverse.filter fun e => decide (p.first ≤ e.1)).take p.count
  .ok s ([u64 s.mrk.logNo] ++ es.flatMap fun e => [.align 8, u64 e.1, .block e.2])

def mrkCountersClear : Cmd := mkMrkCountersClear fun _ s => .ok (mrkCntClear s) []

end Sys2Proof.Machine
end

