-- ==== Sys2Proof/Machine/Estimate.lean ====
section
/-! DEFINITION. Sys2Proof/Machine/Estimate.lean: the cost estimator and the checks of CONFIG_COMMIT (R39, R95, R112, R284, R341, R429,
R454, R513, R532), GRAPH_COST and MODEL_SWAP. -/

namespace Sys2Proof.Machine

/-! ## The Tombac figure (R454) -/

/-- Units of 1/2,059,200 of a sample at 50 M/s: every throughput of R452 divides them. -/
def tbcUnit (effort near : Nat) : Nat := 2059200 / max 1 (tbcRate effort near)

def tbcHeadsNum (s : State) : Nat :=
  (s.cfg.heads2.filter fun e => e.2.dest == 2).foldl (fun a e =>
    let t := tbcHeadCfg s e.1
    a + nth e.2.out 0 * nth e.2.out 1 * samples2 e.2.fmt * ctxF s e.2.ctx * tbcUnit t.effort t.near) 0

/-- Samples per second of the Tombac tiles that a slot's TILE_CUT cuts. -/
def tileSamples (s : State) (slot : Nat) : Nat :=
  let ns := gnodes s.cfg.graph slot
  match findKernel ns kTile with
  | some t => if npar t.2 3 = 1 then (graphBudgetOf s slot).rate * bandedCount s * tilePixels t.2 * (imageIns ns t.2).length else 0
  | none => 0

def tbcTilesNum (s : State) : Nat := (usedSlots s).foldl (fun a k => a + tileSamples s k * tbcUnit s.cfg.tileEffort 0) 0

def webWidth (s : State) : Nat := match s.cfg.geom with | some g => g.width | none => 0

/-- The history that is enabled. -/
def historyOn (s : State) : Option PTbcHistory := match s.cfg.tbcHist with | some h => if h.enable = 1 then some h else none | none => none

def tbcHistNum (s : State) : Nat :=
  match historyOn s with
  | some h => webWidth s * (histPlanes h).length * grantedF s * tbcUnit h.effort 0
  | none => 0

/-- The Tombac figure in ‰. -/
def tbcFigure (s : State) : Nat :=
  ceilDiv (1000 * (tbcHeadsNum s + 2000 * (tbcTilesNum s + tbcHistNum s))) (2000 * 2059200 * 50000000)

/-! ## DRAM_LOAD (R285, R311, R394, R477, R532) -/

/-- Whether a context is buffered, and its pixels per frame. -/
def bufferedPx (s : State) (k : Nat) : Nat :=
  let on := match areaOf s k, liveOf s k with
    | some a, _ => a.role == 1
    | none, some l => l.role == 1
    | none, none => false
  match ctxSize s k with
  | some z => if on then z.1 * z.2 else 0
  | none => 0

/-- Predicted demand of classes 1 to 3, bytes per 1,000 s: the web slot that needs most, the verification graph, the buffered contexts and
the web history. -/
def dramDemand (s : State) : Nat :=
  let web := ((usedSlots s).filter fun k => verifySlot s != some k).foldl (fun m k => max m (slotDram s k)) 0
  let ver := match verifySlot s with | some k => slotDram s k | none => 0
  let area := (List.range 16).foldl (fun a k => a + bufferedPx s k * 4 * ctxF s k) 0
  let hist := match historyOn s with | some h => webWidth s * (histPlanes h).length * grantedF s * 6 | none => 0
  1000 * (web + ver + hist) + area

/-- Bandwidth available to classes 1 to 3, bytes per second (R532). -/
def dramBandwidth (s : State) : Nat :=
  s.dmc.set.length * 8 * s.dmc.rate * 800000 - (s.cfg.heads.filter fun e => headMode s e.1 == 1).foldl (fun a e => a + e.2.fmax * 128) 0

def dramFigure (s : State) : Nat :=
  let d := dramDemand s
  if d = 0 then 0 else if dramBandwidth s = 0 then 65535 else ceilDiv d (dramBandwidth s)

/-! ## The budget (R95, R112) -/

structure Budget where
  eng : Nat
  dram : Nat
  hevc : Nat
  tbc : Nat
  cluster : Nat
  khz : Nat

def budgetAt (khz : Nat) (s : State) : Budget :=
  let t := topLoad s khz (usedSlots s)
  ⟨t.1, dramFigure s, hevcFigure s, tbcFigure s, t.2, khz⟩

/-- The first resource over 1,000 ‰, 0 none. -/
def budgetLimit (b : Budget) : Nat :=
  if 1000 < b.eng then 1 else if 1000 < b.dram then 2 else if 1000 < b.hevc then 3 else if 1000 < b.tbc then 4 else 0

/-- The budget area of R95. -/
def budgetPs (b : Budget) : List RV :=
  [.align 4, u16 (min 65535 b.eng), u16 (min 65535 b.dram), u16 (min 65535 (max b.hevc b.tbc)), u8 (budgetLimit b), u8 b.cluster, u32 b.khz]

/-- The budget at the ENG clock of the plan in force (R39). -/
def budgetNow (s : State) : Budget := budgetAt s.mon.engKhz s

/-! ## The fit of the reservations (R341, R513) -/

def queueBytes (s : State) : Nat := (List.range 64).foldl (fun a q => a + (queueCfg s q).entries * 128) 0

def mibBytes (n : Nat) : Nat := n * 1048576

/-- What ARM reserves for buffers without a stated size (log 59). -/
def openReserve (s : State) : Nat :=
  let px := (List.range 16).foldl (fun a k => a + bufferedPx s k) 0
  let cod := (s.cfg.vctx.filter fun e => e.2.kind != 0).foldl (fun a e => a + padded8 e.2.w * padded8 e.2.h) 0
  let web := match s.cfg.geom with | some g => g.width * g.planes | none => 0
  if px = 0 ∧ cod = 0 ∧ web = 0 then 0 else Config.armReserve px cod web

/-- Bytes requested of the space. -/
def fitWanted (s : State) : Nat :=
  let vcu := (s.cfg.vctx.filter fun e => e.2.kind != 0).foldl (fun a e => a + (if e.2.kind = 3 then mibBytes 8 else mibBytes (vout s e.1).mib)) 0
  let tbc := (s.cfg.heads2.filter fun e => e.2.dest == 2).foldl (fun a e => a + mibBytes (tbcHeadCfg s e.1).mib) 0
  let hist := match historyOn s with | some h => mibBytes h.mib + h.stage * webWidth s * (histPlanes h).length * 2 | none => 0
  let mark := s.cfg.heads.foldl (fun a e => a + e.2.ring * 128) 0
  let used := bandedCount s + (match s.cfg.verify with | some v => boolNat (v.slot != 255 && decide (bandedCount s ≤ v.cluster)) | none => 0)
  queueBytes s + mibBytes (s.cfg.pool + s.cfg.tbcPool + s.cfg.userMib + 32 * used) + vcu + tbc + hist + mark + openReserve s

def fitAvail (s : State) : Nat := mibBytes (spaceMib s - 2756)

/-- The first refusal of CONFIG_COMMIT other than the budget's: its status and reply (R112, log 60). -/
def commitFault (s : State) : Option (Nat × List RV) :=
  match feCommitFault s with
  | some r => some (eParam, r)
  | none => if webGenFault s then some (eParam, []) else match graphCommitFault s with
    | some r => some (eParam, r)
    | none => match mrkCommitFault s with
      | some r => some r
      | none => match clpCommitFault s with
        | some r => some r
        | none => match vcuCommitFault s with
          | some r => some (eParam, r)
          | none => match tbcCommitFault s with
            | some r => some (eParam, r)
            | none => match evrLoop s with
              | some xs => some (eLoop, loopReply xs)
              | none => if fitAvail s < fitWanted s then some (eParam, [.align 8, u64 (fitWanted s), u64 (fitAvail s)]) else none

/-- The judgement of CONFIG_COMMIT: none where the set is admitted. -/
def commitJudge (s : State) : Option (Nat × List RV) :=
  match commitFault s with
  | some f => some f
  | none => if budgetLimit (budgetNow s) = 0 then none else some (eBudget, budgetPs (budgetNow s))

/-! ## GRAPH_COST and MODEL_SWAP (R288, R312, R313) -/

def graphCost (p : PGraphCost) : Cmd := mkGraphCost p fun _ p s =>
  let ns := gnodes s.cfg.graph p.slot
  let khz := s.mon.engKhz
  let t := topLoad s khz [p.slot]
  let b : Budget := { budgetNow s with eng := t.1, cluster := t.2 }
  .ok s (budgetPs b ++ [u32 (costPixel4 ns * 250), u32 (ceilDiv (costComp2 s ns) 2)] ++
    ((List.range 16).map fun k => u16 (min 65535 (engLoad s khz p.slot k))) ++ [u16 (graphReach ns), u16 (graphDelay ns)])

/-- Whether a slot names a model. -/
def slotNames (s : State) (id k : Nat) : Bool := (gnodes s.cfg.graph k).any fun e => e.2.kernel == kClassify && nparN e.2 0 == id

/-- The refusal of a swap, judged at acceptance (R313): a new model that is not loaded or breaks R304 in a slot, or a budget that it would
exceed. -/
def swapFault (p : PModelSwap) (s : State) : Option (Nat × List RV) :=
  let slots := (List.range 4).filter (slotNames s p.old)
  let s' := { s with cfg := { s.cfg with graph := liveApply s.cfg.graph (.swap p.old p.new) } }
  let khz := if runningState s.dev.state then s.dev.admitKhz else s.mon.engKhz
  match tabGet s.models.loaded p.new with
  | none => some (eParam, [])
  | some m =>
    if slots.any fun k => sourceBad m (tileInputs (gnodes s.cfg.graph k)) then some (eParam, [])
    else
      let t := topLoad s' khz slots
      let b : Budget := { budgetAt khz s' with eng := t.1, cluster := t.2 }
      if ! slots.isEmpty ∧ (1000 < b.eng ∨ 1000 < b.dram) then some (eBudget, budgetPs b) else none

/-- CLASSIFY nodes of every slot that name a model (R312, R315). -/
def nodesNaming (s : State) (id : Nat) : Nat := (s.cfg.graph.nodes.filter fun e => decide (e.2.kernel = kClassify ∧ npar e.2 0 = id)).length

def modelSwap (p : PModelSwap) : Cmd := mkModelSwap p
  (fun tk p s =>
    let u := changeGraph tk (.swap p.old p.new) s
    .ok (if runningState s.dev.state then u else modelNotify p.new 1 0 u) [u8 (nodesNaming s p.old)])
  (fun p s => swapFault p s)

/-! ## Commands -/

def configCheck : Cmd := mkConfigCheck fun _ s => .ok s (budgetPs (budgetNow s))

end Sys2Proof.Machine
end

