-- ==== Sys2Proof/Machine/Stores.lean ====
section
/-! DEFINITION. Sys2Proof/Machine/Stores.lean: the working configuration set and its slots, the calibration store, the eFuse and the
staging area, and the commands of family 0x10 (R589 to R594, R600, R606, R610 to R618). -/

namespace Sys2Proof.Machine

/-! ## The working configuration set (R77, R616, R688) -/

/-- The ports whose PORT_OPEN a new set changes close (R686). -/
def closeChanged (c : Cfg) (s : State) : State :=
  (List.range 16).foldl (fun s n => if (port s n).link ≠ 0 ∧ tabGet s.cfg.ports n ≠ tabGet c.ports n then closePort n stOk none s else s) s

/-- Queues and the tile pool whose configuration a new set changes are emptied, as their commands would (R323, R334). -/
def emptyChanged (old : State) (s : State) : State :=
  let s := (List.range 64).foldl (fun s q => if ringCfg old q = queueCfg s q then s
    else emptyQueue q (tabGet s.cfg.queues q) s) s
  if old.res.pool = s.cfg.pool then s else setRes (fun r => { r with tiles := [], nextBlock := 0, gen := 0, pool := s.cfg.pool }) s

/-- Working states of the units that a new set configures start afresh. -/
def freshUnits (s : State) : State :=
  let s := (List.range 4).foldl (fun s a => axisStart a (encCfg s a).type s) s
  let s := s.pos.cmp.foldl (fun s e => driveCmp e.1 false s) s
  let s := { s with pos := { s.pos with ltg := [], cmp := [] } }
  let s := s.cfg.cmp.foldl (fun s e => setCmp e.1 (fun x => { x with ptr := cmpPlace s e.2 (mdNow s e.2.axis) }) s) s
  let s := setClp (fun c => { c with ctxs := [], heads := [], senders := [] }) s
  let s := setVcu (fun v => { v with ctxs := [] }) s
  let s := setTbc (fun t => { t with heads := t.heads.map (fun e => (e.1, { e.2 with head := 0, tail := 0, used := 0 })), buf := t.buf.filter fun e => decide (e.1 < s.cfg.tbcPool * 1048576) }) s
  let s := setDmc (fun d => { d with user := d.user.filter fun e => decide (e.1 < s.cfg.userMib * 1048576) }) s
  setMrk (fun m => { m with heads := m.heads.map fun e => (e.1, if headMode s e.1 = 2 then e.2 else { e.2 with svc := none }) }) (setFep (fun f => { f with bank := s.cfg.banks, sel := [], shade := [] }) s)

/-- The set becomes `c`. -/
def applySet (c : Cfg) (s : State) : State :=
  let s' := closeChanged c s
  freshUnits (emptyChanged s' { s' with cfg := c })

/-- The set as CONFIG_SAVE stores it, with the selected banks and without the tables R616 names. -/
def savedSet (s : State) : Cfg × Tab ColBank :=
  ({ s.cfg with banks := s.fep.bank }, s.clp.banks.map fun e => (e.1, { e.2 with len := 0, defs := [] }))

/-- Banks of a loaded set with the defect lists as they are. -/
def loadBanks (old new : Tab ColBank) : Tab ColBank :=
  let keep := old.filter fun e => e.2.len != 0
  (new.map fun e => (e.1, match tabGet old e.1 with | some b => { e.2 with len := b.len, defs := b.defs } | none => e.2)) ++
    ((keep.filter fun e => (tabGet new e.1).isNone).map fun e => (e.1, ({ len := e.2.len, defs := e.2.defs } : ColBank)))

/-- Puts the entries of a list into a table in its canonical order. -/
def sortTab {α : Type} (xs : List (Nat × α)) : Tab α := xs.foldl (fun t e => tabPut t e.1 e.2) []

/-- CONFIG_LOAD (R616): none where the slot is empty or damaged. -/
def loadSlot (k : Nat) (s : State) : Option State :=
  (tabGet s.nvs.cfgs k).map fun e => setClp (fun c => { c with banks := sortTab (loadBanks s.clp.banks e.2) }) (applySet e.1 s)

/-- CONFIG_CLEAR: the set is emptied, and with it the tables that class T fills (R78, R111). -/
def clearSet (s : State) : State :=
  let s := { s with fep := { s.fep with coef := [] }, pos := { s.pos with cmpMem := [] } }
  setClp (fun c => { c with banks := [], luts := [] }) (applySet {} s)

/-- CONFIG_SAVE; the bytes of a set in its slot are device-defined, so its size is a free value (R616, log 54). -/
def configSave (p : PConfigSave) : Cmd := mkConfigSave p fun tk p s =>
  let n := takeNat s
  if 65504 < n.1 then .no eParam [u32 n.1]
  else storing (recCfg p.slot) tk [] (fun s => setNvs (fun v => { v with cfgs := tabPut v.cfgs p.slot (savedSet s) }) s) n.2

/-- CONFIG_LOAD leaves the device state as it is: R76 gives it no move (log 61). -/
def configLoad (p : PConfigLoad) : Cmd := mkConfigLoad p fun _ p s =>
  match loadSlot p.slot s with
  | some s => .ok s []
  | none => .no eFormat []

def configClear : Cmd := mkConfigClear fun _ s => .ok (setState .standby stOk (clearSet s)) []

/-! ## The calibration store (R612 to R614) -/

def calBytes (xs : List CalRec) : Nat := xs.foldl (fun a r => a + 32 + r.bytes.length) 0

def calFree (xs : List CalRec) : Nat := 2097120 - calBytes xs

def calFind (xs : List CalRec) (typ inst : Nat) : Option CalRec := xs.find? fun r => r.typ == typ && r.inst == inst

/-- The store with a record's payload replaced or added, its GENERATION raised. -/
def calPut (typ inst time : Nat) (bs : List Nat) (xs : List CalRec) : List CalRec :=
  match calFind xs typ inst with
  | some r => xs.map fun x => if x.typ = typ ∧ x.inst = inst then { x with gen := (r.gen + 1) % 2 ^ 32, time := time, bytes := bs } else x
  | none => xs ++ [⟨typ, inst, 1, time, bs⟩]

/-- A command that writes calibration records: refused when the store would exceed its size (R612). -/
def calStore (tk : Ticket) (f : List CalRec → List CalRec) (s : State) : Res :=
  let xs := f s.nvs.cal
  if 2097120 < calBytes xs then .no eParam [u32 (calFree s.nvs.cal)]
  else storing recCal tk [] (setNvs fun v => { v with cal := xs }) s

/-- TRIM entries: field and offset (R613). -/
def trimEntries (bs : List Nat) : List (Nat × Int) := (List.range (bs.length / 4)).map fun i => (leAt bs (4 * i) 2, leAtI bs (4 * i + 2) 2)

def trimField (f : Nat) : Bool := decide (0x0100 ≤ f ∧ f < 0x0118) || decide (0x0200 ≤ f ∧ f < 0x0210)

def trimClamp (e : Nat × Int) : Nat × Int := (e.1, if e.1 < 0x0200 then clampI (-500) 500 e.2 else clampI (-8) 8 e.2)

def trimBytes (xs : List (Nat × Int)) : List Nat := xs.flatMap fun e => leBytes 2 e.1 ++ leBytes 2 e.2

/-- The refusal of a CAL_WRITE payload (R612 to R614). -/
def calWriteFault (p : PCalWrite) (_ : State) : Option (Nat × List RV) :=
  match p.type with
  | 0x11 =>
    if 16 ≤ p.inst then some (eParam, [])
    else if p.length ≠ 2452 ∨ calBad p.data ∨ nth p.data 0 ≠ p.inst then some (eFormat, []) else none
  | 0x13 =>
    if p.inst ≠ 0 then some (eParam, [])
    else if p.length % 4 ≠ 0 ∨ p.length < 4 ∨ 256 < p.length ∨ ! (trimEntries p.data).all fun e => trimField e.1 then some (eFormat, []) else none
  | _ => if 256 ≤ p.inst ∨ p.length < 4 ∨ 61440 < p.length then some (eParam, []) else none

def calWrite (p : PCalWrite) : Cmd := mkCalWrite p
  (fun tk p s =>
    if p.type = 0x13 then
      let xs := trimEntries p.data
      let ys := xs.map trimClamp
      calStore { tk with adj := if xs = ys then tk.adj else tk.adj ||| 8 } (calPut 0x13 0 (tmuNs s) (trimBytes ys)) s
    else calStore tk (calPut p.type p.inst (tmuNs s) p.data) s)
  calWriteFault

def calRead (p : PCalRead) : Cmd := mkCalRead p fun _ p s =>
  match calFind s.nvs.cal p.type p.inst with
  | some r => .ok s [.block ((r.bytes.drop p.offset).take p.length)]
  | none => .no eParam []

def calList (p : PCalList) : Cmd := mkCalList p fun _ p s =>
  .ok s (((s.nvs.cal.drop p.first).take p.count).flatMap fun r =>
    [.align 8, u8 r.typ, u8 0, u16 r.inst, u32 r.bytes.length, u32 r.gen, u64 r.time, .align 8])

def calErase (p : PCalErase) : Cmd := mkCalErase p fun tk p s =>
  if (calFind s.nvs.cal p.type p.inst).isNone then .no eParam []
  else calStore tk (fun xs => xs.filter fun r => ! (r.typ == p.type && r.inst == p.inst)) s

/-- MRK_CAL_SAVE: the calibration in force of every head of the mask (R386, R612). -/
def mrkCalSave (p : PMrkCalSave) : Cmd := mkMrkCalSave p fun tk p s =>
  calStore tk (fun xs => ((List.range 16).filter fun h => bit p.heads h).foldl (fun xs h => calPut 0x11 h (tmuNs s) (calOf s h) xs) xs) s

/-- A LANE_COEF payload: temperature, load class, then the coefficients in a form of the device's own (R612, log 62). -/
def coefBytes (l : Lane) : List Nat :=
  let cs := l.coef.take 63
  ((leBytes 2 l.setTemp ++ [l.setClass % 256, cs.length] ++ cs.flatMap fun c => leBytes 4 c) ++ List.replicate 256 0).take 256

def coefInst (n rate k : Nat) : Nat := n * 16 + (rate - 1) * 4 + k

/-- Writes LANE_COEF records of lanes of a port (R614). -/
def saveCoefs (n : Nat) (lanes : List Nat) (s : State) : State :=
  let p := port s n
  let xs := lanes.foldl (fun xs k => calPut 0x12 (coefInst n p.rate k) (tmuNs s) (coefBytes (p.lanes.getD k {})) xs) s.nvs.cal
  if lanes.isEmpty ∨ 2097120 < calBytes xs then s
  else
    let s := { s with lnk := { s.lnk with coefAt := lanes.foldl (fun t k => tabPut t (n * 4 + k) s.now) s.lnk.coefAt } }
    nvsPut recCal (setNvs (fun v => { v with cal := xs }) s)

/-- After a commit, at most once per hour per lane (R614). -/
def coefCommitSaved (n corrected : Nat) (s : State) : State :=
  let lanes := match (port s n).recal with | some r => maskLanes r.lanes | none => []
  let before := match (port s n).recal with | some r => r.stage | none => 9
  let s := coefCommit n corrected s
  let done : Bool := match (port s n).recal with | some r => before == 1 && r.stage == 2 | none => false
  if done then saveCoefs n (lanes.filter fun k => match tabGet s.lnk.coefAt (n * 4 + k) with | some t => decide (t + 3600 * secPs ≤ s.now) | none => true) s else s

/-- The LANE_COEF record of a lane at the port's rate. -/
def coefRecord (s : State) (n k : Nat) : Option CalRec := calFind s.nvs.cal 0x12 (coefInst n (port s n).rate k)

/-- The sets of a port just brought up carry the temperature and load class of the records they started from (R156, R614). -/
def tagCoefs (recs : List (Option CalRec)) (n : Nat) (s : State) : State :=
  setPort n (fun p => { p with lanes := p.lanes.mapIdx fun k l => match recs.getD k none with
    | some r => if k < p.nLanes then { l with setTemp := leAtI r.bytes 0 2, setClass := nth r.bytes 2, prov := decide (nth r.bytes 2 < s.mon.loadClass) } else l
    | none => l }) s

/-! ## Settings (R609, R615) -/

def settingsSave (p : PSettingsSave) : Cmd := mkSettingsSave p fun tk p s =>
  storing recSet tk [] (fun s => setNvs (fun v => { v with set := { v.set with autoload := p.slot, autocommit := p.autocommit, rcpCfg := some (rget (rcpBase + 8) s) } }) s) s

def fwPolicy (p : PFwPolicy) : Cmd := mkFwPolicy p fun tk p s =>
  storing recSet tk [] (setNvs fun v => { v with set := { v.set with window := p.window, mode := p.mode } }) s

/-- The configuration takes effect once the reply has been sent (R111). -/
def netConfig (p : PNetConfig) : Cmd := mkNetConfig p fun tk p s =>
  storeWith recSet { tk := tk, next := 3 } (setNvs fun v => { v with set := { v.set with net := tabPut v.set.net p.iface p } }) s

/-- What follows a record write that a command awaits (R111, R598, R605, R606, R650). -/
def storeWaiter (w : NWait) (status : Nat) (s : State) : State :=
  if status ≠ stOk then answer w.tk status [] s
  else if w.next = 1 then
    if s.mon.planning then setMon (fun m => { m with planWait := m.planWait ++ [(w.tk, 0)] }) s else answer w.tk stOk (planPs s.mon.plan 0) s
  else if w.next = 2 then
    let s := setNvs (fun v => { v with stageLen := none, recoverAt := if v.recovery then some (s.now + 100 * ms) else v.recoverAt }) s
    answer w.tk stOk w.ps (if s.nvs.recovery ∨ s.dev.state ≠ .update then s else causedBy w.tk (setState .standby stOk) s)
  else if w.next = 3 then
    let s := answer w.tk stOk w.ps s
    { s with dev := { s.dev with net := s.nvs.set.net } }
  else answer w.tk stOk w.ps s

/-- What follows where settings refused with E_STORE are taken back: the plan of the envelope in force, and whether a layout awaits a start (R512, R627). -/
def settingsBack (was s : State) : State :=
  let s := if was.nvs.set = s.nvs.set then s
    else setDmc (fun d => { d with pending := d.lose || (s.nvs.set.grain, s.nvs.set.mask, s.nvs.set.rate) != d.layout }) s
  if was.nvs.set.env = s.nvs.set.env ∧ was.nvs.set.goal = s.nvs.set.goal ∧ was.nvs.set.watts = s.nvs.set.watts then s else envelopeChanged s

def nvsWriteComplete (ok second : Bool) (s : State) : State := deferSeen (writeDone ok second storeWaiter settingsBack s)

/-- What a Block reset of NVS gives up (R584): the write that 5 ms did not suffice for is cut short, and it and the queued ones fail with E_STORE, as do
the staging operation and the bits of a programming operation that remain (R569, log 238). -/
def nvsDrop (s : State) : State :=
  let s := tearStage (tearWrite s)
  let ws := s.nvs.cur.toList ++ s.nvs.queue
  let s := ws.foldl (fun s w => dropWrite storeWaiter settingsBack w (setNvs (fun v => { v with cur := none, queue := if s.nvs.cur.isSome then v.queue else v.queue.tail }) s)) s
  let s := s.nvs.stage.foldl (fun s o => answer o.tk eStore [] s) (setNvs (fun v => { v with stage := [] }) s)
  match s.nvs.fuse with
  | some f => fuseEnd f eStore [] s
  | none => s

def blockResetRow (w : Nat) (s : State) : State := blockReset nvsDrop w s

/-! ## Registers (R617) -/

def nvsStat (s : State) : Nat := boolNat (nvsBusy s) + min 16 (queuedWrites s) * 2 + boolNat s.nvs.found * 64 + boolNat s.nvs.recovery * 128

/-- Whether the slot that is not running passes R602. -/
def otherValid (s : State) : Bool := 0 < s.nvs.boot && imgCheck s (slotImage s (1 - s.nvs.running)) == 0

def windowLeft (s : State) : Nat := if s.nvs.trial then ceilDiv (s.nvs.trialEnd - s.now) secPs else 0

def nvsFw (s : State) : Nat :=
  s.nvs.running + boolNat (otherValid s) * 2 + s.nvs.slotImg.trial % 4 * 4 + s.nvs.slotImg.result % 16 * 256 + s.nvs.slotImg.check % 16 * 4096 + min 65535 (windowLeft s) * 65536

def nvsSecver (s : State) : Nat := if s.nvs.boot = 0 then 0 else secMin s + s.nvs.runSec * 65536

def storeStatus : Cmd := mkStoreStatus fun _ s =>
  let gens := (List.range 22).map fun i => u32 (match tabGet s.nvs.copies i with | some c => c.gen | none => 0)
  .ok s ([u32 (nvsStat s), u32 (rget (nvsBase + 4) s)] ++ gens ++ [u32 (calFree s.nvs.cal), u32 s.nvs.sizeMib])

/-! ## Staging and slots (R605, R606, R610, R611) -/

/-- Queues a staging operation that the flash carries out; refused as a 17th write (R600). -/
def stageLater (tk : Ticket) (a : StageAct) (s : State) : Res :=
  if 16 ≤ queuedWrites s then .no eBusy [] else .later (nvsKick (setNvs (fun v => { v with stage := v.stage ++ [{ tk := tk, act := a }] }) s))

def fwStageBegin (p : PFwStageBegin) : Cmd := mkFwStageBegin p fun tk p s =>
  if ! s.nvs.found then .no eDevice []
  else if s.nvs.trial then .no eBusy []
  else
    let s := setNvs (fun v => { v with stageLen := some p.length }) s
    stageLater tk .erase (if s.nvs.recovery then s else setState .update stOk s)

def fwStageWrite (p : PFwStageWrite) : Cmd := mkFwStageWrite p fun tk p s =>
  match s.nvs.stageLen with
  | none => .no eState []
  | some n =>
    if n < p.offset + p.length then .no eParam [] else stageLater tk (.piece p.offset p.data) s

/-- The first failing check of the staged image: R602, an image longer than what was staged failing the first (R606). -/
def stagedCheck (s : State) : Nat :=
  let b := stagedImage s
  if b.length < imgLen b then 1 else imgCheck s b

/-- The check of the staged image, and on success the record that says so (R606). -/
def stageEnd (tk : Ticket) (s : State) : Res :=
  let b := stagedImage s
  let k := stagedCheck s
  if k ≠ 0 then .no (checkStatus k) [u8 k]
  else
    storeWith recSlot { tk := tk, ps := [u32 (imgVer b), u16 (imgSec b)], next := 2 }
      (setSlotImg fun x => { x with staged := 1, tries := 0, stagedVer := imgVer b, stagedLen := b.length }) s

/-- Staging ends without an image. -/
def stageDrop (s : State) : State :=
  let s := setNvs (fun v => { v with stageLen := none }) s
  if s.nvs.recovery ∨ s.dev.state ≠ .update then s else setState .standby stOk s

/-- FW_STAGE_END and FW_STAGE_ABORT follow the staging operations queued before them (DESIGN CHOICE, log 249). -/
def fwStageEnd : Cmd := mkFwStageEnd fun tk s =>
  if s.nvs.stageLen.isNone then .no eState []
  else if ! s.nvs.stage.isEmpty then .later (setNvs (fun v => { v with stage := v.stage ++ [{ tk := tk, act := .check }] }) s)
  else stageEnd tk s

def fwStageAbort : Cmd := mkFwStageAbort fun tk s =>
  if s.nvs.fuse.isSome then .no eBusy []
  else if ! s.nvs.stage.isEmpty then .later (setNvs (fun v => { v with stage := v.stage ++ [{ tk := tk, act := .abort }] }) s)
  else .ok (stageDrop s) []

/-- The outcome of a command carried out later than it was taken. -/
def settleLater (tk : Ticket) (s : State) : Res → State
  | .ok s ps => answer tk stOk ps s
  | .later s => s
  | .no st ps => answer tk st ps s

/-- What stands at the front of the staging queue and needs no flash: a check, an end. `n` bounds the operations looked at. -/
def stageNext : Nat → State → State
  | 0, s => s
  | n + 1, s =>
    match s.nvs.stage with
    | { tk := tk, act := .check, .. } :: q => stageNext n (let s := setNvs (fun v => { v with stage := q }) s; settleLater tk s (if s.nvs.stageLen.isNone then .no eState [] else stageEnd tk s))
    | { tk := tk, act := .abort, .. } :: q => stageNext n (answer tk stOk [] (causedBy tk stageDrop (setNvs (fun v => { v with stage := q }) s)))
    | _ => s

/-- The front staging operation has ended. -/
def stagePop (s : State) : State := setNvs (fun v => { v with stage := v.stage.tail }) s

/-- What follows the end of a staging operation. -/
def stageOn (s : State) : State := nvsKick (stageNext s.nvs.stage.length s)

/-- A staging operation's effect on the flash: the staging area erased, or a piece programmed (R606). -/
def stagePut (a : StageAct) (s : State) : State :=
  match a with
  | .erase => emit (.flash stagingAt (ceilDiv (s.nvs.stageLen.getD 0) 65536 * 65536) []) (setNvs (fun v => { v with staging := [] }) s)
  | .piece o bs => emit (.flash (stagingAt + o) 0 bs) (setNvs (fun v => { v with staging := v.staging ++ [(o, bs)] }) s)
  | .check => s
  | .abort => s

/-- The flash has erased the staging area, or programmed a piece (R600, R606). -/
def flashReady (ok : Bool) (s : State) : State :=
  match s.nvs.stage with
  | [] => s
  | op :: _ =>
    if ! op.on then s
    else deferSeen (if ok then stageOn (answer op.tk stOk [] (stagePop (stagePut op.act s)))
    else if ! op.retried then setNvs (fun v => { v with stage := { op with retried := true, on := ! nvsHeld s } :: v.stage.tail }) s
    else stageOn (answer op.tk eStore [] (rset (nvsBase + 4) 0 (rset (nvsBase + 4) 2 (stagePop s)))))

def fwStatus : Cmd := mkFwStatus fun _ s => .ok s [.block (slotBytes s.nvs.slotImg), u32 (nvsFw s), u32 s.nvs.runVer, u32 (nvsSecver s)]

def fwConfirm : Cmd := mkFwConfirm fun _ s => .ok (if s.nvs.trial then setNvs (fun v => { v with hostOk := true }) s else s) []

def fwRollback : Cmd := mkFwRollback fun tk s =>
  let other := 1 - s.nvs.slotImg.active % 2
  let k := imgCheck s (slotImage s other)
  if s.nvs.trial then .no eBusy []
  else if k ≠ 0 then .no (checkStatus k) []
  else storing recSlot tk [] (fun s => setSlotImg (fun x => { x with active := other, previous := s.nvs.running, trial := 1, result := 7 }) s) s

/-- The confirmation conditions of R609 hold: `perst` masks the links whose PERST_N is released, `mgmt` says that the management port
has link. -/
def trialConfirm (perst : Nat) (mgmt : Bool) (s : State) : State :=
  let links := (List.range 4).all fun l => ! bit perst l || s.dev.trained.contains l
  if s.nvs.trial ∧ ! s.rcp.starting ∧ ! s.dmc.set.isEmpty ∧ links ∧ mgmt ∧ (s.nvs.set.mode = 0 ∨ s.nvs.hostOk) then
    let s := nvsPut recSlot (setSlotImg (fun x => { x with trial := 0, result := 6 }) (setNvs (fun v => { v with trial := false }) s))
    fwNotify 1 6 stOk s.nvs.runVer s
  else s

def confirmationWindowEnd (s : State) : State := if s.nvs.trial ∧ s.nvs.trialEnd ≤ s.now then swReset 2 0 false s else s

def recoveryReset (s : State) : State :=
  match s.nvs.recoverAt with
  | some t => if t ≤ s.now then swReset 2 0 false (setNvs (fun v => { v with recoverAt := none }) s) else s
  | none => s

/-! ## The eFuse (R589 to R593, R611) -/

/-- A byte of the shadow: the field bits as sensed, and what the factory wrote (R589, R590, log 52). -/
def fuseByte (s : State) (a : Nat) : Nat :=
  if a = 0 then (if s.dev.ha then 2 else 1)
  else if 0x40C0 ≤ a ∧ a < 0x40C4 then (tabGet s.nvs.shadowKeys (a - 0x40C0)).getD 0 % 256
  else if 0x40C4 ≤ a ∧ a < 0x40D0 then 0
  else if 0x40D0 ≤ a ∧ a < 0x40F0 then (List.range 8).foldl (fun m i => if s.nvs.shadowSec.contains ((a - 0x40D0) * 8 + i) then m + 2 ^ i else m) 0
  else (Config.efuseByte a).toNat

/-- Offset and bytes of a region of EFUSE_READ (R618). -/
def fuseRegion (r : Nat) : Nat × Nat := match r with | 0 => (0, 256) | 1 => (0x1000, 12288) | 2 => (0x4000, 208) | _ => (0x40D0, 32)

def efuseRead (p : PEfuseRead) : Cmd := mkEfuseRead p
  (fun _ p s => .ok s [.block ((List.range p.length).map fun i => fuseByte s ((fuseRegion p.region).1 + p.offset + i))])
  (fun p _ => if (fuseRegion p.region).2 < p.offset + p.length then some (eParam, []) else none)

/-- Begins to program bits; with none left the command is done (R591, R618). -/
def fuseStart (tk : Ticket) (key : Option Nat) (bits_ : List Nat) (ps : List RV) (s : State) : Res :=
  if bits_.isEmpty then .ok s ps
  else .later (setState .update stOk (setNvs (fun v => { v with fuse := some { tk := tk, key := key, bits := bits_ } }) s))

def efuseSecverAdvance : Cmd := mkEfuseSecverAdvance fun tk s =>
  if s.nvs.trial then .no eBusy []
  else fuseStart tk none ((List.range s.nvs.runSec).filter fun i => ! s.nvs.shadowSec.contains i) [u16 (secMin s)] s

/-- Whether an image in a slot or staging uses a key. -/
def usesKey (b : List Nat) (k : Nat) : Bool := leAt b 0 4 == 0x4D49444B && imgKey b == k

def efuseKeyRevoke (p : PEfuseKeyRevoke) : Cmd := mkEfuseKeyRevoke p fun tk p s =>
  let used := usesKey s.nvs.slotA p.slot || usesKey s.nvs.slotB p.slot || (s.nvs.slotImg.staged == 1 && usesKey (stagedImage s) p.slot)
  let last := ([0, 1, 2, 3].filter fun k => k != p.slot).all fun k => keyRevoked s k
  if s.nvs.trial ∨ used ∨ last then .no eBusy []
  else fuseStart tk (some p.slot) ((List.range 8).filter fun i => ! bit ((tabGet s.nvs.shadowKeys p.slot).getD 0) i) [] s

/-- A program pulse of 10 µs ends, and the bit reads back as 1 or not: at most three pulses for a bit (R591). None follows it during a deferral (R569). -/
def efusePulse (ok : Bool) (s : State) : State :=
  match s.nvs.fuse with
  | none => s
  | some f =>
    if ! f.on ∨ s.now < f.at_ + 10 * us then s else
    match f.bits with
    | [] => fuseEnd f stOk [u16 (secMin s)] s
    | b :: rest =>
      let again : FusePgm → State → State := fun f s => nvsKick (setNvs (fun v => { v with fuse := some { f with on := false } }) s)
      deferSeen (if ok then
        let s := shadowBit f b (fuseBit f b s)
        if rest.isEmpty then fuseEnd f stOk [u16 (secMin s)] s else again { f with bits := rest, tries := 0 } s
      else if f.tries < 2 then again { f with tries := f.tries + 1 } s
      else fuseEnd f eStore [] (rset (nvsBase + 4) 3 s))

/-! ## Deferral (R569 to R572) -/

/-- The flash reports ready, the eFuse pulse ends, or 5 ms have passed (R570). The flash's ready status is read on the SYS clock. For a Block reset of NVS the
write in progress is complete then (R584). -/
def deferralEnd (s : State) : State :=
  let held := deferOf s true <|> deferOf s false
  match held with
  | none => s
  | some d =>
    let late := decide (d.since + 5 * ms ≤ s.now)
    if d.flash ∧ ! d.flashDone then
      if late then [true, false].foldl (deferStep true true s.now) s
      else if ! clockGood s 0 then s
      else if (deferOf s true).isSome then flashReady true (nvsWriteComplete true false s)
      else deferStep true false s.now s false
    else match s.nvs.fuse with
      | some f => if f.at_ + 10 * us ≤ s.now then efusePulse (decide ((takeNat s).1 % 2 = 0)) (takeNat s).2 else s
      | none => s

end Sys2Proof.Machine
end

