-- ==== Sys2Proof/Machine/Bringup.lean ====
section
/-! DEFINITION. Sys2Proof/Machine/Bringup.lean: bring-up of a camera port as it completes or fails, and the judgement of ARM (R149 to R151,
R167, R614, R682, R683). -/

namespace Sys2Proof.Machine

/-- The port's bring-up measured well: it is UP, its coefficient sets start from the records of its rate, and records are written
(R149, R156, R614). Its domain runs from the forwarded clock (R553). -/
def bringDone (n : Nat) (b : BringUp) (found : List (Nat × LaneRx)) (standby : Bool) (sid : Option Nat) (s : State) : State :=
  let recs := (List.range 4).map fun k => coefRecord s n k
  let s := tagCoefs recs n (portUpNow n b found standby sid s)
  saveCoefs n (List.range (port s n).nLanes) (setRcp (fun r => { r with sub := clearBit r.sub n }) s)

/-- D + L_head + 25.6 ns of what a bring-up measured, ps (R167). -/
def bringReach (s : State) (n : Nat) (b : BringUp) : Int :=
  echoD (selectEcho b.echoes) + (tabGet s.cfg.trims n).getD 0 + nth b.head 3 + 25600

/-- A retry that measures too large a D leaves the port DOWN until the next ARM (R167). -/
def bringLate (n : Nat) (s : State) : State :=
  linkNotify n 3 3 eDevice none (rset (cptBase n + 4) 7 (setPort n (fun p => { p with bring := none, noRetry := true }) s))

/-- A bring-up ends without the port UP: a probe is refused, a retry leaves the port DOWN, and ARM is judged on it (R150, R151). -/
def bringFailed (n : Nat) (why : Bring) (s : State) : State :=
  match why with
  | .probe tk =>
    let l := (port s n).link
    let s := causedBy tk (closePort n eDevice (some tk.session)) (setPort n (fun p => { p with bring := none }) s)
    answer tk eDevice [u8 n, u8 l] s
  | .arm => setPort n (fun p => { p with bring := none }) s
  | .retry => setPort n (fun p => { p with bring := none }) s
  | .reset => closePort n eDevice none (setPort n (fun p => { p with bring := none }) s)

/-- The session whose ARM waits, and with its tag. -/
def armSession (s : State) : Option Nat := s.dev.arming.map fun a => a.1.session
def armCause (s : State) : Option (Nat × Nat) := s.dev.arming.map fun a => (a.1.session, a.1.tag)

/-- Lanes more than 64 ns apart, or without a marker that all of them have seen, cannot be aligned (R127). -/
def skewed (rx : List LaneRx) : Bool := match skewOf rx with | some k => decide (64000 < k) | none => true

/-- Messages of a port that have left by now go on record. -/
def backNow (n : Nat) (s : State) : State := if (port s n).grid.isNone then s else blocksRun s.now n [] (ctlRun s.now n (port s n).ctl.length s)

/-- A bring-up completes within its 200 ms once every logical lane is found in marker lock and the lanes lie within 64 ns (R127, R149,
R150). -/
def portUp (n : Nat) (b : BringUp) (s : State) : State :=
  match (port s n).bring, lanesFound (bringRx (port s n) b) (port s n).nLanes with
  | none, _ => s
  | _, none => s
  | some (why, t0), some found =>
    if t0 + 200 * ms < s.now then s
    else if skewed (found.map fun e => e.2) then rset (cptBase n + 4) 4 s
    else
    let s := backNow n (bringMessages n b s)
    let late : Bool := runningState s.dev.state && decide ((s.lnk.eUse : Int) * 1000 < bringReach s n b)
    match why with
    | .probe tk =>
      if headIdOk b.head then answer tk stOk (headRegs b.head) (causedBy tk (bringDone n b found true (some tk.session)) s) else bringFailed n why s
    | .arm =>
      let fits : Bool := match tabGet s.cfg.ports n with | some c => headIdOk b.head && headCapsOk s n c b.head | none => false
      if fits then causing (armCause s) (bringDone n b found false (armSession s)) s else bringFailed n why s
    | .retry =>
      if ! headIdOk b.head then bringFailed n why s
      else if late then bringLate n s
      else bringDone n b found false none s
    | .reset =>
      if ! headIdOk b.head then bringFailed n why s
      else if late then bringFailed n why (rset (cptBase n + 4) 7 s)
      else bringDone n b found false none s

/-- 200 ms have passed since t0; `skew` says that lanes lay more than 64 ns apart (R127, R150). -/
def bringupTimeout (n : Nat) (skew : Bool) (s : State) : State :=
  match (port s n).bring with
  | none => s
  | some (why, t0) =>
    if s.now < t0 + 200 * ms then s else bringFailed n why (if skew then rset (cptBase n + 4) 4 s else s)

/-! ## ARM (R112, R150, R682, R686) -/

/-- An opened port on which ARM fails (R150). -/
def armPortBad (s : State) (e : Nat × PPortOpen) : Bool :=
  (port s e.1).link != 2 || ! headIdOk (port s e.1).head || ! headCapsOk s e.1 e.2 (port s e.1).head

/-- ARM is answered once no port of it is in bring-up: refused for the lowest-numbered failing port, or the device is ARMED, with E
chosen anew (R142, R150, R682, R686). -/
def armJudge (s : State) : State :=
  match s.dev.arming with
  | none => s
  | some (tk, xs) =>
    if s.cfg.ports.any fun e => (port s e.1).bring.isSome then s else
    let s := { s with dev := { s.dev with arming := none } }
    match s.cfg.ports.find? (armPortBad s) with
    | some e => answer tk eDevice [u8 e.1, u8 (port s e.1).link] (causedBy tk (armRestore xs tk.session) s)
    | none =>
      let s := causedBy tk (setState .armed stOk) { s with lnk := { s.lnk with eUse := chooseE s } }
      answer tk stOk (budgetPs (budgetNow s)) (markArm (elxArm s))

/-- Whether ARM brings an opened port up: it is not UP, or it is UP at settings other than its PORT_OPEN's (log 63). -/
def armBrings (s : State) (e : Nat × PPortOpen) : Bool :=
  let p := port s e.1
  p.link != 2 || p.rate != e.2.rate || p.fec != e.2.fec || p.nLanes != e.2.lanes

/-- Starts the bring-ups of an ARM (R149, R686). -/
def armStart (s : State) (sid : Nat) : State :=
  (s.cfg.ports.filter (armBrings s)).foldl (fun s e =>
    startBring e.1 .arm e.2.rate e.2.fec e.2.lanes (setLink e.1 1 stOk (some sid) (dropWaits e.1 s))) s

/-- ARM: judged on the budget at once (R112), then on its ports. A port that a probe is still bringing up is busy (log 63). -/
def arm : Cmd := mkArm fun tk s =>
  if budgetLimit (budgetNow s) ≠ 0 then .no eBudget (budgetPs (budgetNow s))
  else if s.cfg.ports.any fun e => (port s e.1).bring.isSome then .no eBusy []
  else
    let xs := (s.cfg.ports.filter (armBrings s)).map fun e => (e.1, decide ((port s e.1).link = 2))
    let up := (List.range 16).filter fun n => (port s n).link == 2 && ! xs.any fun e => e.1 == n
    let s := { s with dev := { s.dev with admitKhz := s.mon.engKhz } }
    let s := armStart (up.foldl (fun s n => laneCtrl n 0 s) s) tk.session
    .later (armJudge { s with dev := { s.dev with arming := some (tk, xs) } })

end Sys2Proof.Machine
end

