-- ==== Sys2Proof/Machine/Session.lean ====
section
/-! DEFINITION. Sys2Proof/Machine/Session.lean: sessions, ownership, queue pairs, and the commands of families 0x00 and 0x01 that other
files do not hold (R54 to R112, R681). -/

namespace Sys2Proof.Machine

def setDev (f : Dev → Dev) (s : State) : State := { s with dev := f s.dev }

/-! ## Ownership (R98 to R104) -/

/-- `sid` owns the device, with a fresh lease. -/
def grant (sid lease : Nat) (s : State) : State :=
  setDev (fun d => { d with owner := some sid, lease := lease, leaseEnd := s.now + lease * ms }) s

def vacate (cause : Nat) (s : State) : State := ownerNotify cause (setDev (fun d => { d with owner := none, lease := 0, leaseEnd := 0 }) s)

/-- A claim (R99): granted where ownership is vacant or `sid`'s already. -/
def claimFor (sid lease : Nat) (s : State) : Option State :=
  match s.dev.owner with
  | none => some (ownerNotify 0 (grant sid lease s))
  | some o => if o = sid then some (grant sid lease s) else none

/-- The lease has ended (R101, R103). -/
def leaseEndEff (s : State) : State := if s.dev.owner.isSome ∧ s.dev.leaseEnd ≤ s.now then vacate 3 s else s

/-! ## Sessions (R70 to R72, R96, R97, R106) -/

def sess (s : State) (sid : Nat) : Option Sess := tabGet s.dev.sessions sid

def setSess (sid : Nat) (f : Sess → Sess) (s : State) : State := setDev (fun d => { d with sessions := tabMod d.sessions sid f }) s

/-- The lowest free session number (R96). -/
def freeSess (s : State) : Option Nat := (List.range 2048).find? fun i => (sess s i).isNone

/-- A reply given before a command has consumed its number: SESSION, SEQUENCE and TAG as received, nothing retained (R72, R75). -/
def refuseRaw (tk : Ticket) (status : Nat) (ps : List RV) (s : State) : State :=
  sendReply tk.via ⟨tk.op, tk.session, tk.seq, tk.tag, status, stateCode s.dev.state, 0, false, ps⟩ s

/-- A session closes: its subscriptions end with it, and ownership where it owns the device; a held command finds no open session
(R75, R97, R102, R327). -/
def closeSess (sid : Nat) (s : State) : State :=
  let held := match sess s sid with | some x => x.held | none => []
  let s := setDma (fun d => { d with chans := d.chans.map fun e => (e.1, if e.2.session = some sid then { e.2 with session := none } else e.2) }) s
  let s := setRes (fun r => { r with subs := r.subs.filter fun e => e.1 / 64 != sid }) (setDev (fun d => { d with sessions := tabDel d.sessions sid }) s)
  let s := if s.dev.owner = some sid then vacate 4 s else s
  held.foldl (fun s e => refuseRaw e.2.2 eSession [] s) s

/-- Sessions whose idle timeout has passed close (R97). -/
def idleClose (strict : Bool) (s : State) : State :=
  let overN : Sess → Bool := fun x => if strict then decide (x.last + x.idle * secPs < s.now) else decide (x.last + x.idle * secPs ≤ s.now)
  ((s.dev.sessions.filter fun e => overN e.2).map fun e => e.1).foldl (fun s i => closeSess i s) s

/-- A kept SESSION_OPEN reply is forgotten after 10 s (R106). -/
def forgetOpens (s : State) : State := setDev (fun d => { d with opens := d.opens.filter fun k => decide (s.now < k.upTo) }) s

/-- Where a packet came from, as R106 compares it: the transport with its source address and port, or link and pair. -/
def sameSource (a b : Via) : Bool :=
  match a, b with
  | .pcie l p _, .pcie l' p' _ => l == l' && p == p'
  | .udp n v x u, .udp n' v' x' u' => n == n' && v == v' && x == x' && u == u'
  | _, _ => false

/-- Transport codes of SESSION_LIST (R111). -/
def viaCode : Via → Nat
  | .pcie .. => 0
  | .udp n _ _ _ => n + 1

def idleLeft (s : State) (x : Sess) : Nat := ceilDiv (x.last + x.idle * secPs - s.now) secPs

/-! ## DEV registers (R108) -/

def devStep (s : State) : Nat := 0xA1 + (if s.dev.ha then 2 else 1) * 256

def devState (s : State) : Nat :=
  stateCode s.dev.state + (if s.dev.state = .fault then s.dev.faultClass * 256 else 0) + boolNat s.nvs.trial * 65536 +
    boolNat (inMeasured s) * 131072 + boolNat s.dev.owner.isSome * 262144

def ownStatus (s : State) : Nat :=
  match s.dev.owner with
  | some o => o + 32768 + min 65535 (leaseLeft s) * 65536
  | none => 0

/-- GO of OWN_CLAIM (R104): the RESULT it leaves. The claim of an open session in BOOT is refused for its state, for which RESULT has no
code: a free value (log 64). -/
def ownClaimGo (value : Nat) (s : State) : State :=
  let sid := value % 2048
  let s := rfield (devBase + 0x14) 0 11 sid s
  if ! bit value 31 then s
  else if (sess s sid).isNone then rfield (devBase + 0x14) 28 3 4 s
  else if s.dev.state = .boot then let r := takeNat s; rfield (devBase + 0x14) 28 3 r.1 r.2
  else match claimFor sid 2000 s with
    | some s => rfield (devBase + 0x14) 28 3 2 s
    | none => rfield (devBase + 0x14) 28 3 3 s

/-! ## Queue pairs (R59 to R64, R109) -/

def qpair (s : State) (link pair : Nat) : Option QPair := tabGet s.dev.pairs (pairKey link pair)

/-- A pair that QUEUE_DELETE closes goes once its pending completions are written (R111). -/
def dropClosed (link pair : Nat) (s : State) : State :=
  match qpair s link pair with
  | some q => if q.closing ∧ q.waiting.isEmpty then setDev (fun d => { d with pairs := tabDel d.pairs (pairKey link pair) }) s else s
  | none => s

/-- HQ_ERR: no notification tells it (log 200). -/
def hqErr (link : Nat) (s : State) : State := irqLink 3 s link

/-- HQ_SUBMIT_TAIL (R62, R63); the reserved bits of the value are passed over (log 198). -/
def submitTail (link pair value : Nat) (s : State) : State :=
  match qpair s link pair with
  | some q => if q.entries ≤ value % 4096 then hqErr link s
      else setDev (fun d => { d with pairs := tabPut d.pairs (pairKey link pair) { q with sqTail := value % 4096 } }) s
  | none => hqErr link s

/-- HQ_DONE_HEAD: the host releases completion slots, and completions that waited are written (R62, R63). The ring is used to its last
entry, and a head equal to the last one releases nothing (log 198). -/
def doneHead (link pair value : Nat) (s : State) : State :=
  match qpair s link pair with
  | some q =>
    if q.entries ≤ value % 4096 then hqErr link s
    else
      let n := (value % 4096 + q.entries - q.doneHead) % q.entries
      let q := { q with doneHead := value % 4096, used := q.used - n }
      dropClosed link pair (flushPair link pair (setDev (fun d => { d with pairs := tabPut d.pairs (pairKey link pair) q }) s))
  | none => hqErr link s

/-- Ring sizes of a pair: the nearest power of two from 16 to 4,096 (R84, R108). -/
def ringSize (n : Nat) : Nat := (nearest (n : Int) (pow2s 16 4096)).toNat

/-- HQ_ADMIN_SIZE: pair 0 is disabled, or starts anew over the admin area (R64, R108, R109). Until this write a pair 0 that runs keeps the
address with which it started (log 243). -/
def adminSize (link value : Nat) (s : State) : State :=
  let a := 0x1000 + link * 0x1000
  let v := value % 8192
  let n := if v = 0 then 0 else ringSize v
  let base := rget a s + rget (a + 4) s * 2 ^ 32
  let s := rput (a + 8) n s
  if n = 0 then setDev (fun d => { d with pairs := tabDel d.pairs (pairKey link 0) }) s
  else setDev (fun d => { d with pairs := tabPut d.pairs (pairKey link 0) { entries := n, sq := base, cq := base + 32 * n, area := base + 48 * n } }) s

/-- The link that QUEUE_CREATE and QUEUE_DELETE name: 0xFF is the one that carries the command (R111). -/
def pairLink (link : Nat) (via : Via) : Option Nat :=
  if link ≠ 0xFF then some link else match via with
  | .pcie l _ _ => some l
  | .udp .. => none

/-! ## Commands of family 0x00 (R111) -/

/-- SESSION_OPEN: the ticket names the session that is opened, the lowest free number (R96, R105). -/
def sessionOpen (p : PSessionOpen) : Cmd := mkSessionOpen p fun tk p s =>
  if (sess s tk.session).isSome ∨ 2048 ≤ tk.session then .no eSessions []
  else
    let x : Sess := { quiet := bit p.flags 0, idle := p.idle, last := s.now, via := tk.via, kept := [(0, none)] }
    .ok (setDev (fun d => { d with sessions := tabPut d.sessions tk.session x }) s) [u16 tk.session, u32 (devStep s)]

def sessionClose : Cmd := mkSessionClose fun tk s => .ok (closeSess tk.session s) []

def ownerPs (s : State) : List RV := [u16 (ownerId s), u32 (leaseLeft s)]

def heartbeat : Cmd := mkHeartbeat fun _ s => .ok s (ownerPs s)

def claim (p : PClaim) : Cmd := mkClaim p fun tk p s =>
  match claimFor tk.session p.lease s with
  | some s => .ok s [u32 p.lease]
  | none => .no eOwner (ownerPs s)

def release : Cmd := mkRelease fun _ s => .ok (vacate 2 s) []

def transferCmd (p : PTransfer) : Cmd := mkTransfer p fun _ p s =>
  if (sess s p.target).isNone then .no eSession []
  else .ok ((if s.dev.owner = some p.target then ownerNote 1 else ownerNotify 1) (grant p.target p.lease s)) []

def ownerQuery : Cmd := mkOwnerQuery fun _ s => .ok s (ownerPs s)

def sessionList (p : PSessionList) : Cmd := mkSessionList p fun _ p s =>
  .ok s (((s.dev.sessions.filter fun e => decide (p.first ≤ e.1)).take p.count).flatMap fun e =>
    [.align 4, u16 e.1, u8 (viaCode e.2.via), u8 0, u32 (idleLeft s e.2)])

def queueCreate (p : PQueueCreate) : Cmd := mkQueueCreate p fun tk p s =>
  match pairLink p.link tk.via with
  | none => .no eParam []
  | some l =>
    if ! s.dev.trained.contains l then .no eParam []
    else if (qpair s l p.pair).isSome then .no eBusy []
    else .ok (setDev (fun d => { d with pairs := tabPut d.pairs (pairKey l p.pair) { entries := p.entries, sq := p.sq, cq := p.cq, area := p.area } }) s) []

/-- QUEUE_DELETE: its reply is the last completion of a pair that carries it; a pair that does not exist is refused (log 66). -/
def queueDelete (p : PQueueDelete) : Cmd := mkQueueDelete p fun tk p s =>
  match pairLink p.link tk.via with
  | none => .no eParam []
  | some l =>
    if (qpair s l p.pair).isNone then .no eParam []
    else
      let s := setDev (fun d => { d with pairs := tabMod d.pairs (pairKey l p.pair) fun q => { q with closing := true } }) s
      .later (dropClosed l p.pair (answer tk stOk [] s))

def identify : Cmd := mkIdentify fun _ s =>
  .ok s [u32 0x9640, u32 (devStep s), u8 s.nvs.running, u32 s.nvs.runVer, u32 Config.bootRomVersion]

def notifySubscribe (p : PNotifySubscribe) : Cmd := mkNotifySubscribe p fun tk p s =>
  let old := match sess s tk.session with | some x => x.mask | none => 0
  .ok (setSess tk.session (fun x => { x with mask := p.mask }) s) [u32 old]

/-! ## Commands of family 0x01 (R79, R111, R112) -/

def stateQuery : Cmd := mkStateQuery fun _ s => .ok s [u32 (devState s), u16 s.dev.queue.length]

def configCommit : Cmd := mkConfigCommit fun _ s =>
  match commitJudge s with
  | some (st, ps) => .no st ps
  | none => .ok (setState .configured stOk (setDev (fun d => { d with admitKhz := s.mon.engKhz }) s)) (budgetPs (budgetNow s))

/-- DISARM: what is open in the array closes, and the running states are left (R94, R379, R686, log 67). -/
def disarm : Cmd := mkDisarm fun _ s => .ok (setState .configured stOk (leaveRunning (elxLimit s))) []

/-- START takes effect (R76, R112, R258, R689). -/
def start : Cmd := mkStart fun _ s =>
  if budgetLimit (budgetNow s) ≠ 0 then .no eBudget (budgetPs (budgetNow s))
  else
    let s := setFep (fun f => { f with hist := [], prev := [], adv := none, fresh := true, restart := true, ended := false }) s
    .ok (setState .running stOk (elxStart (holdMoves (setDev (fun d => { d with startAt := some s.now, drain := none, admitKhz := s.mon.engKhz }) s)))) []

/-- STOP takes effect: the stop point, and the drain limit (R79). -/
def stop (p : PStop) : Cmd := mkStop p fun _ p s =>
  .ok (setState .draining stOk (setDev (fun d => { d with drain := some (s.now, s.now + p.limit * ms), stopMd := webMd s }) s)) []

/-- The fast clocks stop (R49, R245, R533). -/
def enterSleep (s : State) : State :=
  let s := if s.tmu.state = 2 then holdover s else s
  setDev (fun d => { d with asleep := true }) (confine selfRefresh s)

/-- SLEEP: the reply is sent before SLEEP is entered (R49, R111, R535). -/
def sleep : Cmd := mkSleep fun tk s =>
  if s.dma.chans.any fun e => e.2.state == 1 then .no eBusy [] else .later (enterSleep (answer tk stOk [] s))

/-- A wake cause ends SLEEP; a time trigger that fell due fires, late (R49, R245). -/
def sleepWake (s : State) : State :=
  if ! s.dev.asleep then s else
  let s := confine leaveRefresh s
  let s := setTmu (fun x => { x with ppsNext := ppsFirst x.pps (tmuNs s) }) (setDev (fun d => { d with asleep := false }) s)
  s.tmu.ttr.foldl (fun s e => match e.2.next with
    | some t => if t ≤ tmuNs s then rset (tmuBase + 4) 3 (fireTtr e.1 (tmuNs s) s) else s
    | none => s) s

/-- APPLY_CANCEL (R112). -/
def applyCancel (p : PApplyCancel) : Cmd := mkApplyCancel p fun _ p s =>
  let n := (s.dev.queue.filter fun q => q.tk.tag == p.ctag).length
  .ok (cancelQueued (fun q => q.tk.tag == p.ctag) s) [u16 n]

/-- An apply-at block as a packet carries it (R87). -/
def blkBytes (b : AtBlk) : List Nat := [b.key % 256, b.rsv1 % 256] ++ leBytes 2 b.source ++ leBytes 4 b.rsv2 ++ leBytes 8 b.value

def applyList (p : PApplyList) : Cmd := mkApplyList p fun _ p s =>
  .ok s (((s.dev.queue.drop p.first).take p.count).flatMap fun q => [.align 4, u16 q.tk.session, u16 q.tk.op, u32 q.tk.tag, .block (blkBytes q.blk)])

/-! ## The drain (R79, R379) -/

/-- No web line is on its way through the array. -/
def webQuiet (s : State) : Bool := s.elx.clu.all fun e => e.2.inq.isEmpty && e.2.backlog.isEmpty

/-- The last web line up to the stop point has been analysed: every component still open closes (R79). -/
def drainFinish (s : State) : State :=
  if s.dev.state = .draining ∧ ! s.fep.ended ∧ webDone s ∧ webQuiet s then setFep (fun f => { f with ended := true }) (elxEnd s) else s

/-- Whether a mark lies before the stop point. -/
def beforeStop (s : State) (d : MarkDec) : Bool := decide (d.md < s.dev.stopMd)

/-- The three conditions of R79. -/
def drainOk (s : State) : Bool :=
  let pend : PendMark → Bool := fun p => match p with | .mark d => beforeStop s d | .print .. => false
  s.fep.ended && webQuiet s && s.elx.waiting.isEmpty && s.elx.tiling.isEmpty && s.elx.held.isEmpty && s.elx.emitWait.isEmpty && s.res.writer.isEmpty &&
    ! s.mrk.inbox.any (beforeStop s) && ! s.mrk.pend.any pend && ! s.mrk.marks.any fun e => beforeStop s e.2.dec

/-- The drain ends: a held plan is applied, marks not fired are missed, and the device is ARMED (R40, R79, R379, R475). -/
def drainEnd (s : State) : State :=
  let s := match s.mon.held with | some p => applyPlan p s | none => s
  let s := setDev (fun d => { d with drain := none, startAt := none }) (markStop (endStrips s))
  setState .armed stOk (setFep (fun f => { f with hist := [], prev := [], adv := none }) s)

def drainComplete (s : State) : State := if s.dev.state = .draining ∧ drainOk s then drainEnd s else s

/-- The drain limit: every remaining component closes with TRUNCATED (R79, R275). -/
def drainLimit (s : State) : State :=
  match s.dev.drain with
  | some (_, t) => if s.dev.state = .draining ∧ t ≤ s.now then drainEnd (elxLimit s) else s
  | none => s

end Sys2Proof.Machine
end

