-- ==== Sys2Proof/Machine/Regs.lean ====
section
/-! DEFINITION. Sys2Proof/Machine/Regs.lean: the compact register interface: what a read of an address returns and what a write to it does
(R5, R23, R24, R27, R28, R107 to R110 and each chapter's register rule), and the register window (R651). -/

namespace Sys2Proof.Machine

/-! ## Reads -/

/-- The index of an array of `n` registers at `base`, `stride` apart, that offset `o` names, and the offset within its element. -/
def arr (o base stride n : Nat) : Option (Nat × Nat) :=
  if base ≤ o ∧ o < base + stride * n then some ((o - base) / stride, (o - base) % stride) else none

/-- Word `w` (0 low, 1 high) of an s64. -/
def word64 (x : Int) (w : Nat) : Nat := toUnsigned 64 x / 2 ^ (32 * w) % 2 ^ 32

/-- DEV (R107, R108). -/
def devView (s : State) (o : Nat) : Nat :=
  match o with
  | 0x00 => 0x9640
  | 0x04 => devStep s
  | 0x08 => devState s
  | 0x10 => ownStatus s
  | _ =>
    match arr o 0x1000 0x1000 4 with
    | some (l, x) =>
      match arr x 0x100 8 64 with
      | some (n, 0) => match qpair s l n with | some q => q.sqTail | none => 0
      | some (n, 4) => match qpair s l n with | some q => q.doneHead | none => 0
      | some _ => 0
      | none => rget o s
    | none => rget o s

/-- A camera port's registers (R161). -/
def cptView (s : State) (n o : Nat) : Nat :=
  match o with
  | 0x00 => linkStat s n
  | 0x08 => toUnsigned 24 (dShown s n)
  | 0x10 => laneStat s n 0
  | 0x14 => laneStat s n 1
  | 0x18 => laneStat s n 2
  | 0x1C => laneStat s n 3
  | _ => rget (cptBase n + o) s

def portMask (s : State) (p : Port → Bool) : Nat := (List.range 16).foldl (fun m n => if p (port s n) then m + 2 ^ n else m) 0

/-- The lane controller (R161). -/
def lncView (s : State) (o : Nat) : Nat :=
  match o with
  | 0x00 => portMask s fun p => p.recal.isSome
  | 0x04 => portMask s fun p => p.lanes.any fun l => l.prov
  | _ => rget (lncBase + o) s

/-- The front end (R203). -/
def fepView (s : State) (o : Nat) : Nat :=
  match o with
  | 0x00 => fepStat s
  | 0x10 => fepBankReg s 0
  | 0x14 => fepBankReg s 1
  | 0x18 => fepBankReg s 2
  | 0x1C => fepBankReg s 3
  | 0x20 => word64 (s.fep.hwm.getD 0) 0
  | 0x24 => word64 (s.fep.hwm.getD 0) 1
  | _ => match arr o 0x100 0x10 16 with
    | some (n, _) => if present 16 n s then rget (fepBase + o) s else 0
    | none => rget (fepBase + o) s

/-- The time unit (R247). -/
def tmuView (s : State) (o : Nat) : Nat :=
  match o with
  | 0x00 => tmuStat s
  | 0x08 => s.tmu.incr % 2 ^ 32
  | 0x0C => s.tmu.incr / 2 ^ 32 % 256
  | 0x10 => toUnsigned 32 (clampI (-(2 ^ 31)) (2 ^ 31 - 1) s.tmu.offset)
  | _ => rget (tmuBase + o) s

/-- The position unit (R248). -/
def posView (s : State) (o : Nat) : Nat :=
  match arr o 0x00 4 4 with
  | some (a, _) => axisStat s a
  | none => rget (posBase + o) s

/-- The Electrum array (R287). -/
def elxView (s : State) (o : Nat) : Nat :=
  match o with
  | 0x08 => elxGraph s
  | 0x0C => elxClock s
  | _ => match arr o 0x100 0x20 16 with
    | some (k, x) => if ! present 16 k s then 0 else if x = 0x10 then lmuOpen s k else rget (elxBase + o) s
    | none => rget (elxBase + o) s

/-- Results (R339). -/
def resView (s : State) (o : Nat) : Nat :=
  match o with
  | 0x04 => resWriter s
  | 0x08 => resRate s
  | 0x0C => tileLife s
  | _ => match arr o 0x1000 0x1000 4 with
    | some (l, x) => match arr x 0x100 8 64 with
      | some (q, 0) => mirReg s l q fun m => m.head
      | some (q, 4) => mirReg s l q fun m => m.tail
      | some _ => 0
      | none => rget (resBase + o) s
    | none => rget (resBase + o) s

/-- Marking (R387). -/
def mrkView (s : State) (o : Nat) : Nat :=
  match o with
  | 0x00 => mrkStat s
  | 0x08 => min 16384 s.mrk.pend.length
  | _ => match arr o 0x100 0x20 16 with
    | some (h, x) =>
      if ! present 16 h s then 0
      else if x = 0 then mhStat s h
      else if x = 4 then bufLevel (mhead s h)
      else if x = 8 then word64 (mhead s h).hwm 0
      else if x = 0xC then word64 (mhead s h).hwm 1
      else rget (mrkBase + o) s
    | none => rget (mrkBase + o) s

/-- The colour pipeline (R420). -/
def clpView (s : State) (o : Nat) : Nat :=
  match o with
  | 0x00 => clpStat s
  | 0x08 => clpLoad s
  | _ => match arr o 0x400 0x10 4 with
    | some (h, 0) => (chead s h).head
    | some (h, 4) => (chead s h).tail
    | some _ => rget (clpBase + o) s
    | none => match arr o 0x100 0x20 16 with
      | some (k, 0x10) => heldFrames s k
      | _ => rget (clpBase + o) s

/-- The codec (R449). -/
def vcuView (s : State) (o : Nat) : Nat :=
  match o with
  | 0x00 => s.vcu.last + boolNat s.vcu.current.isSome * 64
  | 0x08 => meterReg (meterAt (s.now / secPs) 6000000000 s.vcu.load)
  | _ => match arr o 0x1000 0x1000 4 with
    | some (l, x) => match arr x 0x100 8 64 with
      | some (c, 0) => if (vout s c).link = l then (vctx s c).head else 0
      | some (c, 4) => if (vout s c).link = l then (vctx s c).tail else 0
      | some _ => 0
      | none => rget (vcuBase + o) s
    | none => rget (vcuBase + o) s

/-- Tombac (R486). -/
def tbcView (s : State) (o : Nat) : Nat :=
  match o with
  | 0x00 => tbcStat s
  | 0x08 => meterReg (meterAt (s.now / secPs) (50000000 * 2059200) s.tbc.load)
  | _ => match arr o 0x1000 0x1000 4 with
    | some (l, x) => match arr x 0x100 8 4 with
      | some (h, 0) => if (tbcHeadCfg s h).link = l then (thead s h).head else 0
      | some (h, 4) => if (tbcHeadCfg s h).link = l then (thead s h).tail else 0
      | some _ => 0
      | none => rget (tbcBase + o) s
    | none => rget (tbcBase + o) s

/-- The event router (R503). -/
def evrView (s : State) (o : Nat) : Nat := if o = 0 then evrStat s else rget (evrBase + o) s

/-- The DRAM controller (R547). -/
def dmcView (s : State) (o : Nat) : Nat :=
  match o with
  | 0x00 => dmcStat s
  | 0x08 => dmcMask s
  | _ => match arr o 0x100 0x10 12 with
    | some (c, x) =>
      if ! present 12 c s then 0 else if x = 8 then dmcTemp s c else if x = 0xC then dmcTrain s c else rget (dmcBase + o) s
    | none => rget (dmcBase + o) s

/-- DMA (R548). -/
def dmaView (s : State) (o : Nat) : Nat :=
  match o with
  | 0x00 => dmaBusy s 0
  | 0x04 => dmaBusy s 32
  | 0x08 => dmaHalt s 0
  | 0x0C => dmaHalt s 32
  | _ => match arr o 0x100 0x10 64 with
    | some (c, 0) => dmaStat s c
    | _ => rget (dmaBase + o) s

/-- The reset controller (R587). -/
def rcpView (s : State) (o : Nat) : Nat :=
  match o with
  | 0x00 => clkStat s
  | 0x20 => heldMask s 0 32
  | 0x24 => heldMask s 32 12
  | 0x28 => isoMask s 0 32
  | 0x2C => isoMask s 32 12
  | _ => rget (rcpBase + o) s

/-- The stores (R617). -/
def nvsView (s : State) (o : Nat) : Nat :=
  match o with
  | 0x00 => nvsStat s
  | 0x08 => nvsFw s
  | 0x0C => s.nvs.runVer
  | 0x10 => nvsSecver s
  | _ => rget (nvsBase + o) s

/-- The monitors (R649). -/
def monView (s : State) (o : Nat) : Nat :=
  match o with
  | 0x00 => monStat s
  | 0x08 => monTj s
  | 0x0C => monPower s
  | 0x10 => monPlan s
  | 0x20 => monVolt s 0
  | 0x24 => monVolt s 1
  | 0x28 => monVolt s 2
  | 0x30 => monMargin s
  | 0x34 => monAge s
  | _ => match arr o 0x100 4 24 with
    | some (n, _) => monTemp s n
    | none => rget (monBase + o) s

/-- The wrapper of the block that holds an address, none for a block without one (R27, R581). -/
def addrWrap (a : Nat) : Option Nat :=
  match a / 0x10000 with
  | 0x20 => some 36
  | 0x30 => some 37
  | 0x40 => some 38
  | 0x50 => some 39
  | 0x60 => some 40
  | 0xA0 => some 32
  | 0xC0 => some 33
  | 0xE0 => some 34
  | 0xF0 => some 35
  | 0x110 => match arr (a % 0x10000) 0x100 0x20 16 with | some (k, _) => some (16 + k) | none => none
  | 0x130 => some 42
  | 0x150 => some 41
  | 0x160 => some 43
  | b => if 0x80 ≤ b ∧ b < 0x90 then some (b - 0x80) else none

def shut (s : State) (a : Nat) : Bool := match addrWrap a with | some w => wrapClosed w s | none => false

/-- What a read of an address returns (R5, R24, R28, R582). -/
def regView (s : State) (a : Nat) : Nat :=
  let o := a % 0x10000
  if shut s a ∨ a % 4 ≠ 0 then 0 else
  (match a / 0x10000 with
  | 0x00 => devView s o
  | 0x10 => rcpView s o
  | 0x20 => evrView s o
  | 0x30 => tmuView s o
  | 0x40 => posView s o
  | 0x50 => mrkView s o
  | 0x60 => dmaView s o
  | 0xA0 => fepView s o
  | 0xC0 => clpView s o
  | 0xE0 => vcuView s o
  | 0xF0 => tbcView s o
  | 0x100 => dmcView s o
  | 0x110 => elxView s o
  | 0x120 => monView s o
  | 0x130 => lncView s o
  | 0x150 => resView s o
  | 0x160 => nvsView s o
  | b => if 0x80 ≤ b ∧ b < 0x90 ∧ present 16 (b - 0x80) s then cptView s (b - 0x80) o else 0) % 2 ^ 32

/-! ## Writes -/

/-- A write to a per-link register acts only through that link (R107, R339). -/
def onLink (l : Nat) (f : State → State) (w : RegWr) (s : State) : State := if w.via = l then f s else s

def devWrite (o : Nat) (w : RegWr) (s : State) : State :=
  match o with
  | 0x14 => ownClaimGo (w.rw % 2048 + (w.ones / 2 ^ 31 % 2) * 2 ^ 31) s
  | 0x20 => w1cTo rstCause 14 w s
  | _ =>
    match arr o 0x1000 0x1000 4 with
    | none => s
    | some (l, x) =>
      onLink l (fun s =>
        match arr x 0x100 8 64 with
        | some (n, 0) => submitTail l n w.rw s
        | some (n, 4) => doneHead l n w.rw s
        | some _ => s
        | none => match x with
          | 0x00 => if wrAllowed w s then rput o (w.rw / 4096 * 4096) s else s
          | 0x04 => if wrAllowed w s then rput o w.rw s else s
          | 0x08 => if wrAllowed w s then adminSize l w.rw s else s
          | 0x10 => w1cTo o 6 w s
          | 0x14 => rput o (w.rw % 64) s
          | _ => s) w s

def cptCntClear (n : Nat) (s : State) : State := rclear (cptBase n + 0x40) (cptBase n + 0x6C) s

def cptWrite (n o : Nat) (w : RegWr) (s : State) : State :=
  match o with
  | 0x04 => w1cTo (cptBase n + 4) 8 w s
  | 0x80 => clearIf (cptCntClear n) w s
  | _ => s

/-- A pending-bits register or a head of a per-link array: `pend` registers of 32 bits at 0x1000 and 0x1004, `head` at 0x1100. -/
def linkArray (base o n bits_ : Nat) (head : Nat → Nat → Nat → State → State) (w : RegWr) (s : State) : State :=
  match arr o 0x1000 0x1000 4 with
  | none => s
  | some (l, x) => onLink l (fun s =>
      if x = 0 ∨ (x = 4 ∧ bits_ = 32) then w1cTo (base + o) bits_ w s
      else match arr x 0x100 8 n with
        | some (i, 0) => head l i (w.rw % 2 ^ 24) s
        | _ => s) w s

/-- GO of EVR_SW_FIRE (R502). -/
def evrWrite (o : Nat) (w : RegWr) (s : State) : State :=
  match o with
  | 0x04 => w1cTo (evrBase + 4) 4 w s
  | 0x08 => if wrAllowed w s then swFire w.ones s else s
  | 0x80 => clearIf evrCntClear w s
  | _ =>
    if (arr o 0x100 4 8).isSome ∨ (arr o 0x140 4 8).isSome then w1cTo (evrBase + o) 32 w s
    else if (arr o 0x120 4 8).isSome then rput (evrBase + o) w.rw s
    else s

def dmaWrite (o : Nat) (w : RegWr) (s : State) : State :=
  match o with
  | 0x10 => w1cTo (dmaBase + 0x10) 3 w s
  | 0x14 => if wrAllowed w s then doorbell w.ones s else s
  | 0x80 => clearIf dmaCntClear w s
  | _ => linkArray dmaBase o 0 32 (fun _ _ _ s => s) w s

def rcpWrite (o : Nat) (w : RegWr) (s : State) : State :=
  match o with
  | 0x04 => w1cTo (rcpBase + 4) 16 w s
  | 0x08 => if wrAllowed w s then rput (rcpBase + 8) (w.rw % 32) s else s
  | 0x0C => if wrAllowed w s then swResetReg (bits w.ones 9 8) w.ones s else s
  | 0x80 => clearIf rcpCntClear w s
  | _ => s

/-- A write of an address, on a block whose wrapper is open (R5, R23, R28). -/
def regAct (a : Nat) (w : RegWr) (s : State) : State :=
  let o := a % 0x10000
  match a / 0x10000 with
  | 0x00 => devWrite o w s
  | 0x10 => rcpWrite o w s
  | 0x20 => evrWrite o w s
  | 0x30 => if o = 4 then w1cTo a 5 w s else match arr o 0x1000 0x100 4 with
    | some (l, 0) => onLink l (fun s => if bit w.ones 0 then tmuSnapGo l s else s) w s
    | _ => s
  | 0x40 => if (arr o 0x10 4 4).isSome then w1cTo a 7 w s else match arr o 0x1000 0x100 4 with
    | some (l, 0) => onLink l (fun s => if bit w.ones 0 then posSnapGo l s else s) w s
    | _ => s
  | 0x50 => if o = 4 then w1cTo a 7 w s else if o = 0x80 then clearIf mrkCntClear w s else s
  | 0x60 => dmaWrite o w s
  | 0xA0 => if o = 4 then w1cTo a 7 w s else if o = 0x80 then clearIf fepCntClear w s else s
  | 0xC0 => if o = 4 then w1cTo a 6 w s else if o = 0x80 then clearIf clpCntClear w s else match arr o 0x400 0x10 4 with
    | some (h, 0) => match tabGet s.cfg.rings h with
      | some r => onLink r.link (clpHostHead h (w.rw % 4096)) w s
      | none => clpHostHead h (w.rw % 4096) s
    | _ => s
  | 0xE0 => if o = 4 then w1cTo a 6 w s else if o = 0x80 then clearIf vcuCntClear w s else linkArray vcuBase o 64 32 vcuHostHead w s
  | 0xF0 => if o = 4 then w1cTo a 3 w s else if o = 0x80 then clearIf tbcCntClear w s else linkArray tbcBase o 4 4 tbcHostHead w s
  | 0x100 => if o = 4 then w1cTo a 6 w s else if o = 0x80 then clearIf dmcCntClear w s else s
  | 0x110 => if o = 4 then w1cTo a 4 w s else if o = 0x80 then clearIf elxCntClear w s else s
  | 0x120 => if o = 4 then w1cTo a 10 w s else if o = 0x80 then clearIf monCntClear w s else s
  | 0x150 => if o = 0 then w1cTo a 5 w s else linkArray resBase o 64 32 mirHeadWrite w s
  | 0x160 => if o = 4 then w1cTo a 5 w s else if o = 0x80 then clearIf (rput (nvsBase + 0x40) 0) w s else s
  | b => if 0x80 ≤ b ∧ b < 0x90 ∧ present 16 (b - 0x80) s then cptWrite (b - 0x80) o w s else s

/-- A write of an address; one to a closed block has no effect and is counted (R582). -/
def regWrite (a : Nat) (w : RegWr) (s : State) : State :=
  if a % 4 ≠ 0 then s else if shut s a then isoErr s else regAct a w s

/-- A write of the host through BAR0 of link `via`. -/
def barWrite (via a v : Nat) (s : State) : State := regWrite a ⟨false, via, v % 2 ^ 32, v % 2 ^ 32⟩ s

/-! ## The register window (R651) -/

/-- REG_READ; a read of a closed block is counted (R582), though no register read has a side effect (R24, R651; log 196). -/
def regReadCmd (p : PRegRead) : Cmd := mkRegRead p
  (fun _ p s =>
    let as := (List.range p.count).map fun i => p.addr + 4 * i
    let s' := as.foldl (fun s a => if shut s a then isoErr s else s) s
    .ok s' (as.map fun a => u32 (regView s a)))
  (fun p _ => if 0x4000000 < p.addr + 4 * p.count then some (eParam, []) else none)

def regWriteCmd (p : PRegWrite) : Cmd := mkRegWrite p fun _ p s =>
  let old := regView s p.addr
  let rw := (old - (old &&& p.mask)) + (p.value &&& p.mask)
  let s := regWrite p.addr ⟨true, p.link, rw, p.value &&& p.mask⟩ s
  .ok s [u32 (regView s p.addr)]

end Sys2Proof.Machine
end

