-- ==== Sys2Proof/Machine/Boot.lean ====
section
/-! DEFINITION. Sys2Proof/Machine/Boot.lean: the boot ROM, the installation of a staged image, the choice of a slot, recovery, and the
end of the boot (R594, R595, R599, R603 to R608, R614, R615, R619). -/

namespace Sys2Proof.Machine

/-! ## The slot state at a start (R606 to R608) -/

/-- Changes the slot state record and writes both its copies. -/
def bootSlot (f : SlotSt → SlotSt) (s : State) : State := bootWrite recSlot (setSlotImg f s)

/-- The copy of the staged image into the slot that is not ACTIVE; a copy that fails leaves free bytes there (R607). -/
def copyStaged (copyOk : Bool) (s : State) : State :=
  let other := 1 - s.nvs.slotImg.active % 2
  let s := emit (.flash (fwSlotAt other) (ceilDiv (stagedImage s).length 65536 * 65536) (stagedImage s)) s
  if copyOk then setSlotImage other (stagedImage s) s
  else
    let b := takeBytes (stagedImage s).length s
    setSlotImage other b.1 b.2

/-- Step 3 of R603: a staged image is installed (R607). -/
def installStaged (copyOk : Bool) (s : State) : State :=
  let x := s.nvs.slotImg
  if x.staged ≠ 1 then s
  else if 3 ≤ x.tries then bootSlot (fun x => { x with staged := 0, result := 3 }) s
  else
    let s := bootSlot (fun x => { x with tries := x.tries + 1 }) s
    let k := stagedCheck s
    if k ≠ 0 then bootSlot (fun x => { x with staged := 0, result := 2, check := k }) s
    else
      let s := copyStaged copyOk s
      let other := 1 - x.active % 2
      if imgCheck s (slotImage s other) ≠ 0 then s
      else
        let s := bootSlot (fun y => { y with active := other, previous := x.active, trial := 1, staged := 0, tries := 0, result := 1, check := 0 }) s
        setNvs (fun v => { v with tell := some (0, 1) }) s

/-- Step 4 of R603: the slot to boot, none where neither slot passes R602 (R605, R608). -/
def chooseSlot (s : State) : Option Nat × State :=
  let x := s.nvs.slotImg
  let ok : State → Nat → Bool := fun s k => imgCheck s (slotImage s k) == 0
  let s :=
    if x.trial = 2 then
      setNvs (fun v => { v with tell := some (2, 4) }) (bootSlot (fun y => { y with active := y.previous, trial := 0, result := 4 }) s)
    else if x.trial = 1 then
      let s := if x.result = 7 then setNvs (fun v => { v with tell := some (2, 7) }) s else s
      bootSlot (fun y => { y with trial := 2 }) s
    else if ! ok s (x.active % 2) ∧ ok s (1 - x.active % 2) then
      let k := imgCheck s (slotImage s (x.active % 2))
      bootSlot (fun y => { y with active := 1 - y.active % 2, trial := 0, result := 5, check := k }) s
    else s
  let a := s.nvs.slotImg.active % 2
  if ok s a then (some a, s) else if ok s (1 - a) then (some (1 - a), s) else (none, s)

/-! ## The records that the firmware reads (R599, R614, R615) -/

/-- The settings record, or what an absent one stands for (R615). -/
def readSettings (s : State) : State :=
  let r := readRecord recSet s
  setNvs (fun v => { v with set := match r.1 with | some (.settings x) => x | _ => {} }) r.2

/-- The user calibration store: head calibrations in force, coefficients that a bring-up starts from, trims (R613, R614). -/
def readCal (s : State) : State :=
  let r := readRecord recCal s
  let xs := match r.1 with | some (.cal xs) => xs | _ => []
  let heads := xs.filter fun x => x.typ == 0x11
  let coefs := xs.filter fun x => x.typ == 0x12
  let s := setMrk (fun m => { m with cal := heads.foldl (fun t x => tabPut t x.inst x.bytes) m.cal }) r.2
  let s := { s with lnk := { s.lnk with stored := (coefs.map fun x => (x.inst / 16, x.inst % 16 / 4 + 1)).eraseDups } }
  setNvs (fun v => { v with cal := xs, trim := match calFind xs 0x13 0 with | some t => trimEntries t.bytes | none => [] }) s

/-- One configuration slot. -/
def readCfg (s : State) (k : Nat) : State :=
  let r := readRecord (recCfg k) s
  setNvs (fun v => { v with cfgs := match r.1 with | some (.cfg c b) => tabPut v.cfgs k (c, b) | _ => tabDel v.cfgs k }) r.2

/-- The slot state record; an absent one stands for ACTIVE = A and zeros (R606). -/
def readSlot (s : State) : State :=
  let r := readRecord recSlot s
  setNvs (fun v => { v with slotImg := match r.1 with | some (.slot x) => x | _ => {} }) r.2

/-- Step 7 of R603 (R50, R588, R594, R613 to R615). -/
def readStores (factoryOk : Bool) (s : State) : State :=
  let s := (List.range 8).foldl readCfg (readCal (readSettings s))
  let s := match s.nvs.set.rcpCfg with | some v => rput (rcpBase + 0x08) v s | none => s
  let s := if factoryOk then s else rset (nvsBase + 4) 4 (setNvs (fun v => { v with factoryBad := true }) s)
  setDev (fun d => { d with net := s.nvs.set.net }) s

/-! ## The boot (R603 to R605) -/

/-- No usable slot or flash: recovery (R605). -/
def enterRecovery (s : State) : State :=
  let s := readSettings s
  let s := setDev (fun d => { d with net := s.nvs.set.net }) s
  faultEntry 1 unitDev 0 (setNvs (fun v => { v with recovery := true, boot := 4 }) s)

/-- Steps 4 to 7: the firmware of slot k starts. -/
def startFirmware (k : Nat) (factoryOk : Bool) (s : State) : State :=
  let b := slotImage s k
  let trial := s.nvs.slotImg.trial == 2 && s.nvs.slotImg.active % 2 == k
  let s := setNvs (fun v => { v with running := k, runVer := imgVer b, runSec := imgSec b, trial := trial, hostOk := false, boot := 7 }) s
  let s := readStores factoryOk (rfield (rcpBase + 0x10) 0 16 500 s)
  setNvs (fun v => { v with trialEnd := s.now + v.set.window * secPs }) s

/-- Management core 0 starts the boot ROM: steps 1 to 7. `flash` is the size in MiB that discovery finds, none where it finds no usable
flash (R595); `refclk` says whether PCIE_REFCLK shows edges (R678), `factoryOk` says whether a factory calibration copy is valid (R594), `copyOk` whether an install's copy succeeds. -/
def bootRomStart (flash : Option Nat) (factoryOk copyOk refclk : Bool) (s : State) : State :=
  match s.rcp.rst with
  | some r =>
    if ! r.released then s
    else
      let s := rput (rcpBase + 0x48) (min 0xFFFFF ((s.now - r.freeAt) / us)) (setRcp (fun c => { c with rst := none, gate := false, sris := ! refclk }) s)
      let s := rfield (rcpBase + 0x10) 0 16 2000 (setNvs (fun v => { v with boot := 1 }) s)
      let s := emit (.pin pinFlashRst 0 true) (emit (.pin pinFlashRst 0 false) s)
      match flash with
      | none => enterRecovery s
      | some mib =>
        if mib < 32 then enterRecovery s
        else
          let s := setNvs (fun v => { v with found := true, sizeMib := mib }) s
          let c := chooseSlot (installStaged copyOk (readSlot s))
          match c.1 with
          | none => enterRecovery c.2
          | some k => startFirmware k factoryOk c.2
  | none => s

/-- Step 8 of R603: DRAM is initialised and trained, or leaves self-refresh (R507, R514, R516, R533). The planner forms a plan (R628). -/
def dramReady (fs : List DramFind) (s : State) : State :=
  if s.dev.state ≠ .boot ∨ s.nvs.boot ≠ 7 then s
  else
    let r := if s.dmc.retained then (true, dramExit s) else dramInit fs s
    if r.1 then startPlan (setNvs (fun v => { v with boot := 8 }) r.2) else faultEntry 2 unitDmc 0 r.2

/-- CONFIG_LOAD of the autoload slot and CONFIG_COMMIT (R615): the status where one of them failed, and the state. -/
def autoload (s : State) : Option Nat × State :=
  if 8 ≤ s.nvs.set.autoload then (none, s)
  else match loadSlot s.nvs.set.autoload s with
    | none => (some eFormat, s)
    | some s =>
      if s.nvs.set.autocommit ≠ 1 then (none, s)
      else match commitJudge s with
        | some r => (some r.1, s)
        | none => (none, setState .configured stOk (setDev (fun d => { d with admitKhz := s.mon.engKhz }) s))

/-- Steps 9 and 10 of R603: `crcOk` says that the ENGINE and CODEC sections' CRCs match (R604). The plan has been formed (R628). -/
def bootComplete (crcOk : Bool) (s : State) : State :=
  if s.dev.state ≠ .boot ∨ s.nvs.boot ≠ 8 ∨ s.mon.planning then s
  else if ! crcOk then faultEntry 2 unitDev 0 s
  else
    let s := rfield (rcpBase + 0x10) 16 1 0 (setRcp (fun c => { c with starting := false }) s)
    let s := setState .standby stOk (setNvs (fun v => { v with boot := 10 }) s)
    let s := match s.nvs.tell with
      | some (kind, result) => fwNotify kind result stOk s.nvs.runVer (setNvs (fun v => { v with tell := none }) s)
      | none => s
    let r := autoload s
    match r.1 with
    | some st => fwNotify 3 0 st r.2.nvs.runVer r.2
    | none => r.2

/-- A host link has trained (R603). -/
def linkTrained (l : Nat) (s : State) : State :=
  if 4 ≤ l ∨ s.rcp.rst.isSome ∨ s.dev.trained.contains l then s
  else setDev (fun d => { d with trained := d.trained ++ [l] }) s

end Sys2Proof.Machine
end

