-- ==== Sys2Proof/Machine/Packets.lean ====
section
/-! DEFINITION. Sys2Proof/Machine/Packets.lean: the command sequencer: transports, the check order, sequence numbers, the apply-at queue
and the judgement and execution of a command (R54 to R57, R62, R65 to R68, R70 to R75, R77, R83 to R93, R98 to R101, R106, R113, R582,
R605, R682). -/

namespace Sys2Proof.Machine

/-! ## Packets -/

/-- A command packet as it reaches the sequencer: its header, its opcode, and the command of a defined opcode. `raw` gives the judgement
of MAGIC, IP fragmentation and CRC where the row does not carry the packet's parameters. -/
structure Pack where
  h : Hdr
  op : Nat
  cmd : Option Cmd
  raw : Option (Bool × Bool)

def cmdPack (h : Hdr) (c : Cmd) : Pack := ⟨h, c.opcode, some c, none⟩

/-- A packet of no row of its own: discarded before any opcode applies, or with an opcode that is not defined (R56, R75). -/
def rawPack (h : Hdr) (op magic : Nat) (frag crcOk : Bool) : Pack := ⟨h, op, none, some (magic != 0x4B44 || frag, crcOk)⟩

/-- The defined opcodes (the command tables of the chapters). -/
def opcodes : List Nat :=
  [0x0001, 0x0002, 0x0003, 0x0004, 0x0005, 0x0006, 0x0007, 0x0008, 0x0009, 0x000A, 0x000B, 0x000C, 0x0100, 0x0101, 0x0102, 0x0103, 0x0104, 0x0105, 0x0106, 0x0107, 0x0108, 0x0109, 0x010A, 0x010B] ++
  [0x010C, 0x010D, 0x010E, 0x0201, 0x0202, 0x0203, 0x0204, 0x0205, 0x0206, 0x0207, 0x0208, 0x0209, 0x020A, 0x020B, 0x020C, 0x020D, 0x020E, 0x020F, 0x0210, 0x0301, 0x0302, 0x0303, 0x0304, 0x0305] ++
  [0x0306, 0x0307, 0x0308, 0x0309, 0x030A, 0x030B, 0x030C, 0x0401, 0x0402, 0x0403, 0x0404, 0x0405, 0x0406, 0x0407, 0x0408, 0x0409, 0x040A, 0x040B, 0x040C, 0x0501, 0x0502, 0x0503, 0x0504, 0x0505] ++
  [0x0506, 0x0507, 0x0508, 0x0509, 0x050A, 0x0601, 0x0602, 0x0603, 0x0604, 0x0605, 0x0606, 0x0607, 0x0608, 0x0609, 0x060A, 0x060B, 0x060C, 0x0701, 0x0702, 0x0703, 0x0704, 0x0705, 0x0706, 0x0707] ++
  [0x0708, 0x0709, 0x0801, 0x0802, 0x0803, 0x0804, 0x0805, 0x0806, 0x0807, 0x0808, 0x0809, 0x080A, 0x0901, 0x0902, 0x0903, 0x0904, 0x0905, 0x0906, 0x0907, 0x0908, 0x0909, 0x090A, 0x090B, 0x090C] ++
  [0x090D, 0x090E, 0x090F, 0x0910, 0x0911, 0x0912, 0x0913, 0x0914, 0x0A01, 0x0A02, 0x0A03, 0x0A04, 0x0A05, 0x0A06, 0x0A07, 0x0A08, 0x0A09, 0x0A0A, 0x0A0B, 0x0A0C, 0x0A0D, 0x0A0E, 0x0A0F, 0x0B01] ++
  [0x0B02, 0x0B03, 0x0B04, 0x0B05, 0x0B06, 0x0B07, 0x0B08, 0x0B09, 0x0B0A, 0x0C01, 0x0C02, 0x0C03, 0x0C04, 0x0C05, 0x0C06, 0x0C07, 0x0C08, 0x0C09, 0x0C0A, 0x0C0B, 0x0C0C, 0x0C0D, 0x0D01, 0x0D02] ++
  [0x0D03, 0x0D04, 0x0D05, 0x0D06, 0x0D07, 0x0D08, 0x0D09, 0x0E01, 0x0E02, 0x0E03, 0x0E04, 0x0E05, 0x0E06, 0x0E07, 0x0E10, 0x0E11, 0x0E12, 0x0E13, 0x0E14, 0x0E15, 0x0E16, 0x0E17, 0x0F01, 0x0F02] ++
  [0x0F03, 0x0F04, 0x0F05, 0x0F06, 0x0F07, 0x0F08, 0x0F09, 0x0F0A, 0x0F0B, 0x1001, 0x1002, 0x1003, 0x1004, 0x1005, 0x1006, 0x1007, 0x1008, 0x1009, 0x100A, 0x100B, 0x100C, 0x100D, 0x100E, 0x100F] ++
  [0x1010, 0x1011, 0x1101, 0x1102, 0x1103, 0x1104]

/-- The command packet that a row carries; none for a register write or an event. -/
def packetOf : Instr → Option Pack
  | .sessionOpen h p => some (cmdPack h (sessionOpen p))
  | .sessionClose h => some (cmdPack h sessionClose)
  | .heartbeat h => some (cmdPack h heartbeat)
  | .claim h p => some (cmdPack h (claim p))
  | .release h => some (cmdPack h release)
  | .transfer h p => some (cmdPack h (transferCmd p))
  | .ownerQuery h => some (cmdPack h ownerQuery)
  | .sessionList h p => some (cmdPack h (sessionList p))
  | .queueCreate h p => some (cmdPack h (queueCreate p))
  | .queueDelete h p => some (cmdPack h (queueDelete p))
  | .identify h => some (cmdPack h identify)
  | .notifySubscribe h p => some (cmdPack h (notifySubscribe p))
  | .stateQuery h => some (cmdPack h stateQuery)
  | .configCommit h => some (cmdPack h configCommit)
  | .configClear h => some (cmdPack h configClear)
  | .configSave h p => some (cmdPack h (configSave p))
  | .configLoad h p => some (cmdPack h (configLoad p))
  | .configCheck h => some (cmdPack h configCheck)
  | .arm h => some (cmdPack h arm)
  | .disarm h => some (cmdPack h disarm)
  | .start h => some (cmdPack h start)
  | .stop h p => some (cmdPack h (stop p))
  | .faultClear h => some (cmdPack h faultClear)
  | .sleep h => some (cmdPack h sleep)
  | .applyCancel h p => some (cmdPack h (applyCancel p))
  | .applyList h p => some (cmdPack h (applyList p))
  | .netConfig h p => some (cmdPack h (netConfig p))
  | .portOpen h p => some (cmdPack h (portOpen p))
  | .portClose h p => some (cmdPack h (portClose p))
  | .streamSet h p => some (cmdPack h (streamSet p))
  | .portProbe h p => some (cmdPack h (portProbe p))
  | .portStatus h p => some (cmdPack h (portStatus p))
  | .portCounters h p => some (cmdPack h (portCounters p))
  | .portCountersClear h p => some (cmdPack h (portCountersClear p))
  | .lanePower h p => some (cmdPack h (lanePower p))
  | .headRegWrite h p => some (cmdPack h (headRegWrite p))
  | .headRegRead h p => some (cmdPack h (headRegRead p))
  | .calRun h p => some (cmdPack h (calRun p))
  | .calPolicy h p => some (cmdPack h (calPolicy p))
  | .eyeScan h p => some (cmdPack h (eyeScan p))
  | .latencyMeasure h p => some (cmdPack h (latencyMeasure p))
  | .latencyTrim h p => some (cmdPack h (latencyTrim p))
  | .exposureDelay h p => some (cmdPack h (exposureDelay p))
  | .feGeometry h p => some (cmdPack h (feGeometry p))
  | .feStreamMap h p => some (cmdPack h (feStreamMap p))
  | .feSeam h p => some (cmdPack h (feSeam p))
  | .feKernel h p => some (cmdPack h (feKernel p))
  | .feCoefLoad h p => some (cmdPack h (feCoefLoad p))
  | .feBankSelect h p => some (cmdPack h (feBankSelect p))
  | .feShading h p => some (cmdPack h (feShading p))
  | .feSettingLatency h p => some (cmdPack h (feSettingLatency p))
  | .feMetaKey h p => some (cmdPack h (feMetaKey p))
  | .feStatus h p => some (cmdPack h (feStatus p))
  | .feCapture h p => some (cmdPack h (feCapture p))
  | .feCountersClear h => some (cmdPack h feCountersClear)
  | .encConfig h p => some (cmdPack h (encConfig p))
  | .observerSet h p => some (cmdPack h (observerSet p))
  | .posOrigin h p => some (cmdPack h (posOrigin p))
  | .ltgConfig h p => some (cmdPack h (ltgConfig p))
  | .ltgEnable h p => some (cmdPack h (ltgEnable p))
  | .cmpConfig h p => some (cmdPack h (cmpConfig p))
  | .cmpListLoad h p => some (cmdPack h (cmpListLoad p))
  | .cmpEnable h p => some (cmdPack h (cmpEnable p))
  | .latchConfig h p => some (cmdPack h (latchConfig p))
  | .latchRead h p => some (cmdPack h (latchRead p))
  | .posStatus h p => some (cmdPack h (posStatus p))
  | .posCountersClear h => some (cmdPack h posCountersClear)
  | .timeSource h p => some (cmdPack h (timeSource p))
  | .timeSet h p => some (cmdPack h (timeSet p))
  | .timeRelearn h => some (cmdPack h timeRelearn)
  | .timeStatus h => some (cmdPack h timeStatus)
  | .ptpConfig h p => some (cmdPack h (ptpConfig p))
  | .ppsConfig h p => some (cmdPack h (ppsConfig p))
  | .ttrConfig h p => some (cmdPack h (ttrConfig p))
  | .tcpConfig h p => some (cmdPack h (tcpConfig p))
  | .tcpRead h p => some (cmdPack h (tcpRead p))
  | .timeRead h => some (cmdPack h timeRead)
  | .graphNode h p => some (cmdPack h (graphNode p))
  | .graphClear h p => some (cmdPack h (graphClear p))
  | .gradeRules h p => some (cmdPack h (gradeRules p))
  | .markTable h p => some (cmdPack h (markTable p))
  | .graphSelect h p => some (cmdPack h (graphSelect p))
  | .graphParam h p => some (cmdPack h (graphParam p))
  | .verifyGraph h p => some (cmdPack h (verifyGraph p))
  | .graphBudget h p => some (cmdPack h (graphBudget p))
  | .graphCost h p => some (cmdPack h (graphCost p))
  | .elxStatus h p => some (cmdPack h (elxStatus p))
  | .elxCountersClear h => some (cmdPack h elxCountersClear)
  | .elxGating h p => some (cmdPack h (elxGating p))
  | .modelStage h p => some (cmdPack h (modelStage p))
  | .modelWrite h p => some (cmdPack h (modelWrite p))
  | .modelCommit h p => some (cmdPack h (modelCommit p))
  | .modelAbort h p => some (cmdPack h (modelAbort p))
  | .modelUnload h p => some (cmdPack h (modelUnload p))
  | .modelSwap h p => some (cmdPack h (modelSwap p))
  | .modelList h p => some (cmdPack h (modelList p))
  | .modelInfo h p => some (cmdPack h (modelInfo p))
  | .modelTest h p => some (cmdPack h (modelTest p))
  | .resultQueueConfig h p => some (cmdPack h (resultQueueConfig p))
  | .tilePoolConfig h p => some (cmdPack h (tilePoolConfig p))
  | .resultSubscribe h p => some (cmdPack h (resultSubscribe p))
  | .resultUnsubscribe h p => some (cmdPack h (resultUnsubscribe p))
  | .resultRead h p => some (cmdPack h (resultRead p))
  | .resultAdvance h p => some (cmdPack h (resultAdvance p))
  | .resultStatus h p => some (cmdPack h (resultStatus p))
  | .tileInfo h p => some (cmdPack h (tileInfo p))
  | .tileFetch h p => some (cmdPack h (tileFetch p))
  | .resCountersClear h => some (cmdPack h resCountersClear)
  | .mrkHeadConfig h p => some (cmdPack h (mrkHeadConfig p))
  | .mrkRemapLoad h p => some (cmdPack h (mrkRemapLoad p))
  | .mrkPreheat h p => some (cmdPack h (mrkPreheat p))
  | .mrkThermal h p => some (cmdPack h (mrkThermal p))
  | .mrkStyle h p => some (cmdPack h (mrkStyle p))
  | .mrkLineMode h p => some (cmdPack h (mrkLineMode p))
  | .mrkHeadMode h p => some (cmdPack h (mrkHeadMode p))
  | .mrkOverlap h p => some (cmdPack h (mrkOverlap p))
  | .mrkServicePattern h p => some (cmdPack h (mrkServicePattern p))
  | .mrkServiceFire h p => some (cmdPack h (mrkServiceFire p))
  | .mrkVerifyGeometry h p => some (cmdPack h (mrkVerifyGeometry p))
  | .mrkTestPrint h p => some (cmdPack h (mrkTestPrint p))
  | .mrkDotRead h p => some (cmdPack h (mrkDotRead p))
  | .mrkCalRead h p => some (cmdPack h (mrkCalRead p))
  | .mrkCalSet h p => some (cmdPack h (mrkCalSet p))
  | .mrkCalAccept h p => some (cmdPack h (mrkCalAccept p))
  | .mrkCalSave h p => some (cmdPack h (mrkCalSave p))
  | .mrkStatus h p => some (cmdPack h (mrkStatus p))
  | .mrkMissRead h p => some (cmdPack h (mrkMissRead p))
  | .mrkCountersClear h => some (cmdPack h mrkCountersClear)
  | .areaStream h p => some (cmdPack h (areaStream p))
  | .clpBlack h p => some (cmdPack h (clpBlack p))
  | .clpDefectLoad h p => some (cmdPack h (clpDefectLoad p))
  | .clpColour h p => some (cmdPack h (clpColour p))
  | .clpLutLoad h p => some (cmdPack h (clpLutLoad p))
  | .clpBankSelect h p => some (cmdPack h (clpBankSelect p))
  | .headConfig h p => some (cmdPack h (headConfig p))
  | .headKernel h p => some (cmdPack h (headKernel p))
  | .headCurve h p => some (cmdPack h (headCurve p))
  | .st2110Config h p => some (cmdPack h (st2110Config p))
  | .st2110Sdp h p => some (cmdPack h (st2110Sdp p))
  | .hostRing h p => some (cmdPack h (hostRing p))
  | .liveView h p => some (cmdPack h (liveView p))
  | .clpStatus h p => some (cmdPack h (clpStatus p))
  | .clpCountersClear h => some (cmdPack h clpCountersClear)
  | .vcuContext h p => some (cmdPack h (vcuContext p))
  | .vcuCoding h p => some (cmdPack h (vcuCoding p))
  | .vcuRate h p => some (cmdPack h (vcuRate p))
  | .vcuOutput h p => some (cmdPack h (vcuOutput p))
  | .vcuForceIrap h p => some (cmdPack h (vcuForceIrap p))
  | .vcuEncSubmit h p => some (cmdPack h (vcuEncSubmit p))
  | .vcuDecWrite h p => some (cmdPack h (vcuDecWrite p))
  | .vcuRead h p => some (cmdPack h (vcuRead p))
  | .vcuStatus h p => some (cmdPack h (vcuStatus p))
  | .vcuCountersClear h => some (cmdPack h vcuCountersClear)
  | .tbcTileCoding h p => some (cmdPack h (tbcTileCoding p))
  | .tbcHeadOutput h p => some (cmdPack h (tbcHeadOutput p))
  | .tbcHistory h p => some (cmdPack h (tbcHistory p))
  | .tbcPoolConfig h p => some (cmdPack h (tbcPoolConfig p))
  | .tbcBufWrite h p => some (cmdPack h (tbcBufWrite p))
  | .tbcBufRead h p => some (cmdPack h (tbcBufRead p))
  | .tbcJobSubmit h p => some (cmdPack h (tbcJobSubmit p))
  | .tbcJobStatus h p => some (cmdPack h (tbcJobStatus p))
  | .tbcJobCancel h p => some (cmdPack h (tbcJobCancel p))
  | .tbcRead h p => some (cmdPack h (tbcRead p))
  | .tbcHistoryFind h p => some (cmdPack h (tbcHistoryFind p))
  | .tbcStatus h => some (cmdPack h tbcStatus)
  | .tbcCountersClear h => some (cmdPack h tbcCountersClear)
  | .evrChannel h p => some (cmdPack h (evrChannel p))
  | .evrEnable h p => some (cmdPack h (evrEnable p))
  | .evrTaskMode h p => some (cmdPack h (evrTaskMode p))
  | .evrDivider h p => some (cmdPack h (evrDivider p))
  | .evrFire h p => some (cmdPack h (evrFire p))
  | .evrStatus h p => some (cmdPack h (evrStatus p))
  | .evrTaskStatus h p => some (cmdPack h (evrTaskStatus p))
  | .evrTaskClear h p => some (cmdPack h (evrTaskClear p))
  | .evrCountersClear h => some (cmdPack h evrCountersClear)
  | .dmcLayout h p => some (cmdPack h (dmcLayout p))
  | .dmcPolicy h p => some (cmdPack h (dmcPolicy p))
  | .dmcUserRegion h p => some (cmdPack h (dmcUserRegion p))
  | .dmcRetrain h p => some (cmdPack h (dmcRetrain p))
  | .dmcStatus h p => some (cmdPack h (dmcStatus p))
  | .dmcEccLog h p => some (cmdPack h (dmcEccLog p))
  | .dmcCountersClear h => some (cmdPack h dmcCountersClear)
  | .dmaChannel h p => some (cmdPack h (dmaChannel p))
  | .dmaStart h p => some (cmdPack h (dmaStartCmd p))
  | .dmaResume h p => some (cmdPack h (dmaResume p))
  | .dmaAbort h p => some (cmdPack h (dmaAbort p))
  | .dmaStatus h p => some (cmdPack h (dmaStatus p))
  | .dmaBufWrite h p => some (cmdPack h (dmaBufWrite p))
  | .dmaBufRead h p => some (cmdPack h (dmaBufRead p))
  | .dmaCountersClear h => some (cmdPack h dmaCountersClear)
  | .envelopeSet h p => some (cmdPack h (envelopeSet p))
  | .planRun h => some (cmdPack h planRun)
  | .monStatus h => some (cmdPack h monStatus)
  | .thermalConfig h p => some (cmdPack h (thermalConfig p))
  | .marginConfig h p => some (cmdPack h (marginConfig p))
  | .telemetryConfig h p => some (cmdPack h (telemetryConfig p))
  | .telemetryRead h p => some (cmdPack h (telemetryReadCmd p))
  | .calStatus h p => some (cmdPack h (calStatus p))
  | .faultPolicy h p => some (cmdPack h (faultPolicy p))
  | .errlogRead h p => some (cmdPack h (errlogRead p))
  | .monCountersClear h => some (cmdPack h monCountersClear)
  | .fwStageBegin h p => some (cmdPack h (fwStageBegin p))
  | .fwStageWrite h p => some (cmdPack h (fwStageWrite p))
  | .fwStageEnd h => some (cmdPack h fwStageEnd)
  | .fwStageAbort h => some (cmdPack h fwStageAbort)
  | .fwStatus h => some (cmdPack h fwStatus)
  | .fwConfirm h => some (cmdPack h fwConfirm)
  | .fwPolicy h p => some (cmdPack h (fwPolicy p))
  | .fwRollback h => some (cmdPack h fwRollback)
  | .efuseRead h p => some (cmdPack h (efuseRead p))
  | .efuseSecverAdvance h => some (cmdPack h efuseSecverAdvance)
  | .efuseKeyRevoke h p => some (cmdPack h (efuseKeyRevoke p))
  | .calWrite h p => some (cmdPack h (calWrite p))
  | .calRead h p => some (cmdPack h (calRead p))
  | .calList h p => some (cmdPack h (calList p))
  | .calErase h p => some (cmdPack h (calErase p))
  | .settingsSave h p => some (cmdPack h (settingsSave p))
  | .storeStatus h => some (cmdPack h storeStatus)
  | .regRead h p => some (cmdPack h (regReadCmd p))
  | .regWrite h p => some (cmdPack h (regWriteCmd p))
  | .diagReset h p => some (cmdPack h (diagReset p))
  | .diagInject h p => some (cmdPack h (diagInject p))
  | .registerWrite _ _ _ _ => none
  | .ownClaimGo _ _ _ => none
  | .hqSubmitTailWrite _ _ _ _ _ => none
  | .hqDoneHeadWrite _ _ _ _ _ => none
  | .hqAdminSizeWrite _ _ _ _ => none
  | .cntClear _ _ _ => none
  | .fepCntClear _ _ => none
  | .elxCntClear _ _ => none
  | .mrkCntClear _ _ => none
  | .clpCntClear _ _ => none
  | .vcuCntClear _ _ => none
  | .tbcCntClear _ _ => none
  | .evrCntClear _ _ => none
  | .dmaCntClear _ _ => none
  | .dmcCntClear _ _ => none
  | .rcpCntClear _ _ => none
  | .monCntClear _ _ => none
  | .nvsCntClear _ _ => none
  | .tmuSnapGo _ _ _ => none
  | .tmuSnapComplete _ _ => none
  | .posSnapGo _ _ _ => none
  | .resMirHeadWrite _ _ _ _ _ => none
  | .clpHostHeadWrite _ _ _ _ => none
  | .vcuHostHeadWrite _ _ _ _ _ => none
  | .tbcHostHeadWrite _ _ _ _ _ => none
  | .evrSwFire _ _ => none
  | .dmaDoorbell _ _ => none
  | .swBlockReset _ _ => none
  | .swSystemReset _ _ => none
  | .swChipReset _ _ => none
  | .sequenceHoldTimeout _ => none
  | .sessionIdleTimeout _ => none
  | .leaseEnd _ => none
  | .sessionOpenKeepEnd _ => none
  | .applyAtDue _ => none
  | .drainComplete _ => none
  | .drainLimit _ => none
  | .faultHoldExpiry _ => none
  | .line _ _ => none
  | .frameStart _ _ => none
  | .frameEnd _ _ => none
  | .metadata _ _ => none
  | .regEcho _ _ => none
  | .echo _ _ _ _ _ => none
  | .laneAck _ _ _ _ _ _ => none
  | .feCaptureTimeout _ _ => none
  | .portUp _ _ _ => none
  | .bringupTimeout _ _ _ => none
  | .linkDown _ _ _ => none
  | .bringupRetry _ _ => none
  | .regEchoTimeout _ _ => none
  | .echoTimeout _ _ => none
  | .timeMessageDue _ _ => none
  | .qualityUpdate _ _ _ => none
  | .recalPeriod _ _ _ => none
  | .calCandidateReady _ _ _ _ _ => none
  | .coefCommit _ _ _ => none
  | .coefRevertCheck _ _ _ => none
  | .provisionalRemeasure _ _ _ _ _ => none
  | .eyeScanDone _ _ _ => none
  | .laneStandbyTime _ _ => none
  | .laneDormantTime _ _ => none
  | .encoderEdge _ _ _ _ => none
  | .zEdge _ _ => none
  | .serialSample _ _ => none
  | .serialFrame _ _ _ => none
  | .axisFaultExit _ _ => none
  | .observerUpdate _ _ => none
  | .motionStop _ _ => none
  | .tick _ _ _ _ => none
  | .exposureLatch _ _ => none
  | .matchEv _ _ _ _ => none
  | .cmpPulseEnd _ _ => none
  | .latchInputEdge _ _ _ => none
  | .ptpMessage _ _ => none
  | .ptpTxDue _ _ => none
  | .ppsInEdge _ => none
  | .sourceLoss _ => none
  | .ppsOutEdge _ _ => none
  | .fire _ _ => none
  | .tioCapture _ _ _ => none
  | .webLineArrival _ _ _ => none
  | .lineAnalysed _ _ _ _ => none
  | .classifyDone _ _ _ => none
  | .recordWritten _ => none
  | .clusterGate _ _ => none
  | .clusterHang _ _ => none
  | .markDecision _ => none
  | .fireInstant _ _ _ _ => none
  | .preheatStart _ _ _ => none
  | .markFetchDone _ _ _ _ => none
  | .ldackChange _ _ => none
  | .revreqRelease _ => none
  | .stopTimeout _ => none
  | .slowreqRelease _ => none
  | .headTempRead _ _ _ _ => none
  | .enSettleEnd _ _ => none
  | .serviceFireTick _ _ => none
  | .clpFrameDone _ _ _ => none
  | .liveViewFrame _ _ => none
  | .st2110PacketDue _ _ => none
  | .vcuSliceDone _ _ _ _ _ => none
  | .tbcLineDone _ _ => none
  | .pendingDelivery _ _ => none
  | .dmaTransferDone _ _ _ _ _ => none
  | .dmaRetryWait _ _ => none
  | .descriptorComplete _ _ => none
  | .fenceDone _ _ _ => none
  | .patrolScrub _ _ => none
  | .refreshDue _ _ => none
  | .dimmTempRead _ _ _ => none
  | .spdHubTimeout _ _ => none
  | .neighbourRefresh _ _ => none
  | .dqsDriftRead _ _ _ => none
  | .retrainSlice _ _ => none
  | .retrainComplete _ _ _ _ => none
  | .thermalSample _ _ => none
  | .throttleEscalate _ => none
  | .throttleRestore _ => none
  | .ageingMeasure _ _ => none
  | .marginGuard _ _ => none
  | .droopEvent _ _ => none
  | .powerEstimate _ _ => none
  | .planFormed _ _ => none
  | .avsCommand _ _ => none
  | .telemetryPoll _ _ => none
  | .pmbAlert _ _ => none
  | .sensorCrossCheck _ => none
  | .thermalTrip _ => none
  | .thermalTripEnd _ => none
  | .vbatPowerOn _ => none
  | .mainPowerOn _ _ => none
  | .brownout _ _ => none
  | .backupSwitchover _ _ => none
  | .rstN _ _ => none
  | .watchdogExpiry _ => none
  | .pcieReset _ _ _ => none
  | .debugReset _ _ _ _ _ => none
  | .forcedRelease _ => none
  | .refLost _ => none
  | .pllUnlock _ _ => none
  | .clockMonitorBad _ _ => none
  | .clockMonitorGood _ _ => none
  | .forwardedClockLoss _ _ => none
  | .xtalQualify _ => none
  | .xtalFail _ => none
  | .deferralEnd _ => none
  | .resetRelease _ => none
  | .blockReset _ _ => none
  | .blockRelease _ _ => none
  | .wrapperOpen _ _ => none
  | .sleepWake _ => none
  | .bootRomStart _ _ _ _ => none
  | .dramReady _ _ => none
  | .bootComplete _ _ => none
  | .trialConfirm _ _ _ => none
  | .confirmationWindowEnd _ => none
  | .recoveryReset _ => none
  | .nvsWriteComplete _ _ _ => none
  | .efusePulse _ _ => none
  | .opcodeNotDefined h op magic frag crcOk => some (rawPack h op magic frag crcOk)
  | .pcieLinkTrained _ _ => none
  | .ddrAlert _ _ _ _ => none
  | .coalescingIntervalEnd _ _ _ => none
  | .mainPulseEnd _ _ => none
  | .tioPulseEnd _ _ => none
  | .diagResetAssert _ => none
  | .flashReady _ _ => none

/-- Header bytes 0 to 27 of a command packet (R65). -/
def pktHead (p : Pack) : List Nat :=
  leBytes 2 0x4B44 ++ [p.h.version % 256, p.h.flags % 256] ++ leBytes 2 p.op ++ leBytes 2 p.h.session ++ leBytes 4 p.h.seq ++
    leBytes 4 p.h.tag ++ leBytes 4 p.h.paramLen ++ leBytes 8 p.h.rest

/-- The parameter area as the row's operands spell it (R68, R87). -/
def areaBytes (c : Cmd) (h : Hdr) (s : State) : List Nat :=
  (match h.ats with | some b => blkBytes b | none => []) ++ (c.flds s).flatMap fldBytes

/-- Bytes cut or filled with zeros to a length. -/
def fitBytes (n : Nat) (bs : List Nat) : List Nat := bs.take n ++ List.replicate (n - bs.length) 0

/-- The parameter area as received: PARAM_LEN bytes, those that `gaps` names as it says. -/
def areaGot (c : Cmd) (h : Hdr) (s : State) : List Nat :=
  h.gaps.foldl (fun bs e => bs.set e.1 e.2) (fitBytes h.paramLen (areaBytes c h s))

/-- CRC matches (R67). -/
def crcGood (p : Pack) (s : State) : Bool :=
  match p.raw, p.cmd with
  | some r, _ => r.2
  | none, some c => crc32c (pktHead p ++ areaGot c p.h s) == p.h.crc
  | none, none => true

/-! ## Transports (R56, R57, R59, R62, R113, R605) -/

/-- The length of the packet as received (R59). -/
def recvLen (h : Hdr) : Nat := match h.via with | .pcie _ _ e => pktLen e | .udp .. => h.recvLen

/-- Whether an interface carries commands: the management port and PCIe from step 6 of the boot, Ethernet from step 10 (R113, R603);
in recovery the management port and pair 0 of link 0 (R605). -/
def ifaceUp (s : State) (via : Via) : Bool :=
  match via with
  | .pcie l p _ => decide (6 ≤ s.nvs.boot) || (s.nvs.recovery && l == 0 && p == 0)
  | .udp n v6 _ _ =>
    (if n = 2 then decide (6 ≤ s.nvs.boot) || s.nvs.recovery else decide (n < 2) && decide (10 ≤ s.nvs.boot)) &&
      (! v6 || match tabGet s.dev.net n with | some c => bit c.flags 1 | none => false)

/-- The packet reaches the sequencer: a datagram, or the submission entry that the device fetches next (R62). -/
def fetch (via : Via) (s : State) : Option State :=
  if s.rcp.rst.isSome ∨ s.dev.asleep ∨ ! ifaceUp s via then none
  else match via with
    | .udp .. => some s
    | .pcie l p _ =>
      match qpair s l p with
      | none => none
      | some q =>
        if q.closing ∨ q.sqHead = q.sqTail ∨ q.entries ≤ q.used then none
        else some (setDev (fun d => { d with pairs := tabPut d.pairs (pairKey l p) { q with sqHead := (q.sqHead + 1) % q.entries } }) s)

/-! ## Checks 1 to 5 (R71 to R73, R75, R106) -/

/-- Whom a packet answers before it is judged further. -/
def rawTicket (p : Pack) : Ticket :=
  { session := p.h.session, seq := p.h.seq, tag := p.h.tag, op := p.op, via := p.h.via, silent := bit p.h.flags 2, adj := 0, queued := false, late := false }

/-- The first failing check of steps 2 and 3 and of the size (R57, R75). -/
def earlyFault (p : Pack) (s : State) : Option Nat :=
  if p.h.version ≠ 1 then some eVersion
  else if p.h.paramLen % 4 ≠ 0 ∨ p.h.paramLen + 32 ≠ recvLen p.h then some eLength
  else if ! crcGood p s then some eCrc
  else if maxPacket s p.h.via < recvLen p.h then some eSize
  else none

/-- Re-sends a retained reply (R71). -/
def resend (via : Via) (silent : Bool) (r : Reply) (s : State) : State := if silent ∧ r.status = stOk then s else sendReply via r s

/-- A command consumes its number: the idle timeout and the owner's lease restart, and its reply is awaited (R72, R97, R100). -/
def consume (sid seq : Nat) (s : State) : State :=
  let s := setSess sid (fun x => { x with seq := seq, last := s.now, kept := ((seq, none) :: x.kept.filter fun e => e.1 != seq).take 16 }) s
  if s.dev.owner = some sid then setDev (fun d => { d with leaseEnd := s.now + d.lease * ms }) s else s

/-- The sequence number that a session expects next. -/
def expected (x : Sess) : Nat := (x.seq + 1) % 2 ^ 32

/-- SESSION and SEQUENCE of an ordinary command (R71 to R73). The session where the command is to be judged further. A duplicate of a held
command, and one whose reply is still awaited, get no answer (log 19). -/
def sequence (i : Instr) (p : Pack) (s : State) : Option Nat × State :=
  match sess s p.h.session with
  | none => (none, refuseRaw (rawTicket p) eSession [] s)
  | some x =>
    let d := (p.h.seq + 2 ^ 32 - x.seq) % 2 ^ 32
    if d = 1 then (some p.h.session, consume p.h.session p.h.seq s)
    else if 2 ≤ d ∧ d ≤ 16 then
      (none, if x.held.any fun e => e.2.2.seq == p.h.seq then s
        else setSess p.h.session (fun x => { x with held := x.held ++ [(s.now + 100 * ms, i, rawTicket p)] }) s)
    else if d = 0 ∨ 2 ^ 32 - 15 ≤ d then
      match x.kept.find? fun e => e.1 == p.h.seq with
      | some (_, some r) => (none, resend p.h.via (bit p.h.flags 2) r s)
      | some (_, none) => (none, s)
      | none => (none, refuseRaw (rawTicket p) eSequence [u32 (expected x)] s)
    else (none, refuseRaw (rawTicket p) eSequence [u32 (expected x)] s)

/-- SESSION_OPEN: SESSION 0xFFFF, and E_SESSION for any other (log 199); the replay of R106, also of a SILENT one,
whose original was sent no reply (log 242); SEQUENCE 0 (R70). -/
def openSequence (p : Pack) (s : State) : Option Nat × State :=
  if p.h.session ≠ 0xFFFF then (none, refuseRaw (rawTicket p) eSession [] s)
  else match s.dev.opens.find? fun k => sameSource k.via p.h.via && k.tag == p.h.tag && decide (s.now < k.upTo) with
    | some k => (none, sendReply p.h.via k.r s)
    | none =>
      if p.h.seq ≠ 0 then (none, refuseRaw (rawTicket p) eSequence [u32 0] s)
      else (some ((freeSess s).getD 2048), s)

/-- Checks 1 to 5 of R75. A packet of a defined opcode comes as its own row. The session on which the command goes on to check 6, and the state. -/
def intake (i : Instr) (p : Pack) (s : State) : Option Nat × State :=
  let other : Bool := match p.raw with | some r => ! r.1 && opcodes.contains p.op | none => false
  if other then (none, s) else
  match fetch p.h.via s with
  | none => (none, s)
  | some s =>
    if (match p.raw with | some r => r.1 | none => false) then (none, s)
    else match earlyFault p s with
      | some st => (none, refuseRaw (rawTicket p) st [] s)
      | none => if p.op = 1 then openSequence p s else sequence i p s

/-! ## Checks 6 to 12 (R75 to R78, R86 to R89, R98, R582, R605, R682) -/

/-- The apply-at block of an AT command whose key is not NOW. -/
def keyOf (c : Cmd) (h : Hdr) : Option AtBlk :=
  match h.ats with
  | some b => if c.ats ∧ bit h.flags 1 ∧ b.key ≠ 0 then some b else none
  | none => none

/-- The class of a command as it stands: GRAPH_PARAM is C or S by its parameter (R78, R259). -/
def cmdClass (c : Cmd) (v : Vals) (s : State) : Cls :=
  if c.cls = .p then
    match tabGet s.cfg.graph.nodes (vN v 0 * 32 + vN v 1) with
    | some x => if isLive x.kernel (vN v 2) then .s else .c
    | none => .c
  else c.cls

/-- Commands that R682 names beside the classes. -/
def armOps : List Nat := [0x0101, 0x0102, 0x0103, 0x0104, 0x0106, 0x0107, 0x0108, 0x010B]

/-- E_BUSY between the acceptance of ARM and its reply (R682). -/
def armHolds (c : Cmd) (s : State) : Bool :=
  s.dev.arming.isSome &&
    (c.cls == .c || c.cls == .s || c.cls == .t || c.cls == .p || (c.opcode / 256 == 2 && c.cls != .r) || armOps.contains c.opcode)

/-- What recovery answers (R605). -/
def recoveryOps : List Nat := [0x0001, 0x0002, 0x0003, 0x000B, 0x0004, 0x0005, 0x1005, 0x1009, 0x1001, 0x1002, 0x1003, 0x1004]

/-- Check 8: a command is legal by its column, and a keyed one in every running state as well (R75, R88, R89, R605). -/
def legalNow (c : Cmd) (h : Hdr) (s : State) : Bool :=
  if s.nvs.recovery then recoveryOps.contains c.opcode
  else c.legal.contains s.dev.state || ((keyOf c h).isSome && runningState s.dev.state)

/-- The first absent instance that a field names. -/
def absentOf (r : Rule) (x : Int) : Nat :=
  match r with
  | .stream => x.toNat / 8
  | .chanMask => ((List.range 12).find? fun i => decide (6 ≤ i) && bit x.toNat i).getD 6
  | .mheadMask => ((List.range 16).find? fun i => decide (8 ≤ i) && bit x.toNat i).getD 8
  | _ => x.toNat

def fldAbsent (s : State) (f : Fld) : Option Nat :=
  let rs : List Rule := match f.rule with
    | .list rs => rs
    | r => List.replicate f.xs.length r
  match f.rule with
  | .named n _ => if s.dev.ha then n else none
  | _ => ((rs.zip f.xs).find? fun e => elemAbsent s e.1 e.2).map fun e => absentOf e.1 e.2

/-- The first absent instance that a command names (R4, R75). -/
def firstAbsent (c : Cmd) (h : Hdr) (s : State) : Option Nat :=
  let blk := match h.ats with
    | some b => if (b.key = 1 ∨ b.key = 2) ∧ b.source < 128 ∧ ! present 16 (b.source / 8) s then some (b.source / 8) else none
    | none => none
  match blk with
  | some n => some n
  | none => (c.flds s).findSome? (fldAbsent s)

/-- An apply-at block that is well formed (R87). -/
def blkOk (b : AtBlk) : Bool :=
  b.rsv1 == 0 && b.rsv2 == 0 &&
    match b.key with
    | 0 => b.source == 0 && b.value == 0
    | 1 => decide (b.source < 128)
    | 2 => decide (b.source < 128)
    | 3 => decide (b.source < 4)
    | 4 => b.source == 0
    | _ => false

/-- Check 10 on the whole packet: flags (REPLY and NOTIFY among them, log 199), block, fields, reserved bytes and the length of the area. -/
def packetBad (c : Cmd) (h : Hdr) (s : State) : Bool :=
  let blk : Bool := match h.ats with
    | some b => ! c.ats || ! bit h.flags 1 || ! blkOk b
    | none => bit h.flags 1
  h.flags &&& 0xF9 != 0 || blk || (c.flds s).any fldBad || h.rest != 0 || areaGot c h s != areaBytes c h s

/-- The wrappers of the blocks that a command's action needs (R581, R582). -/
def needsWraps (c : Cmd) (v : Vals) : List Nat :=
  match c.opcode / 256 with
  | 2 => if c.opcode = 0x020C ∨ c.opcode = 0x0210 then [] else if c.opcode = 0x020B ∨ c.opcode = 0x020D then [vN v 0 % 16, 42] else [vN v 0 % 16]
  | 3 => [32]
  | 4 => [38]
  | 5 => [37]
  | 8 => [41]
  | 9 => if c.opcode = 0x0911 then [39, 43] else [39]
  | 0xA => [33]
  | 0xB => [34]
  | 0xC => [35]
  | 0xD => [36]
  | 0xE => if c.opcode < 0x0E10 then [] else [40]
  | 0xF => if c.opcode = 0x0F01 ∨ c.opcode = 0x0F09 then [43] else []
  | 0x10 => [43]
  | 1 => if c.opcode = 0x0103 ∨ c.opcode = 0x0104 ∨ c.opcode = 0x010E then [43] else []
  | _ => []

def blockShut (c : Cmd) (v : Vals) (s : State) : Bool := (needsWraps c v).any fun w => wrapClosed w s

/-- What the checks of a command come to. -/
inductive Verdict where
  | refuse (status : Nat) (ps : List RV)
  | queue (b : AtBlk) (vals : Vals) (adj : Nat)
  | run (vals : Vals) (adj : Nat)

/-- What a keyed command would be refused for if it acted now, of the checks that apply at its acceptance (R75, R88; log 202). -/
def keyedFault (c : Cmd) (tk : Ticket) (vals : Vals) (s : State) : Option (Nat × List RV) :=
  match c.act tk vals s with
  | .no st ps => if [eState, eAbsent, eParam, eBudget].contains st then some (st, ps) else none
  | _ => none

/-- Checks 7 to 12. In BOOT every command that is not answered there is refused with E_STATE, whoever owns the device (R113). -/
def judge (c : Cmd) (p : Pack) (sid : Nat) (s : State) : Verdict :=
  if s.dev.state = .boot ∧ ! c.legal.contains .boot then .refuse eState []
  else if c.owner ∧ s.dev.owner ≠ some sid then .refuse eOwner []
  else if armHolds c s then .refuse eBusy []
  else if ! legalNow c p.h s then .refuse eState []
  else match firstAbsent c p.h s with
    | some n => .refuse eAbsent [u32 n]
    | none =>
      if packetBad c p.h s then .refuse eParam []
      else
        let vals := (c.flds s).map clampFld
        let adj := adjusted 0 (c.flds s)
        if blockShut c vals s then .refuse eBusy []
        else match c.pre vals s with
          | some (st, ps) => .refuse st ps
          | none =>
            match keyOf c p.h with
            | none => .run vals adj
            | some b => match keyedFault c { rawTicket p with session := sid } vals s with
              | some (st, ps) => .refuse st ps
              | none => if 1024 ≤ s.dev.queue.length then .refuse eQueueFull [] else .queue b vals adj

/-! ## Execution (R55, R57, R72, R77, R82, R83, R106) -/

def setVia (sid : Nat) (via : Via) (s : State) : State := setSess sid (fun x => { x with via := via }) s

/-- A class C command accepted in CONFIGURED returns the device to STANDBY (R77). -/
def afterClass (cls : Cls) (s : State) : State := if cls = .c ∧ s.dev.state = .configured then setState .standby stOk s else s

/-- The kept reply of a SESSION_OPEN (R106). -/
def rememberOpen (tk : Ticket) (s : State) : State :=
  match sess s tk.session with
  | some x => match x.kept with
    | (0, some r) :: _ => setDev (fun d => { d with opens := d.opens ++ [⟨tk.via, tk.tag, s.now + 10 * secPs, r⟩] }) s
    | _ => s
  | none => s

/-- The session and tag of the command that acts, or none (R74). -/
def setCause (c : Option (Nat × Nat)) (s : State) : State := setDev (fun d => { d with cause := c }) s

/-- The state in which an accepted command acts: its route is the session's, unless it comes from the apply-at queue (R55, R64), and what
it causes echoes its tag (R74). -/
def acting (tk : Ticket) (s : State) : State := setCause (some (tk.session, tk.tag)) (if tk.queued then s else setVia tk.session tk.via s)

/-- A command is carried out and answered; a reply too large for its transport is E_SIZE, with no side effect (R57). -/
def perform (c : Cmd) (tk : Ticket) (vals : Vals) (s : State) : State :=
  let cls := cmdClass c vals s
  match c.act tk vals (acting tk s) with
  | .no st ps => answer { tk with adj := 0, session := if c.opcode = 1 then 0xFFFF else tk.session } st ps s
  | .later s' => setCause none (afterClass cls s')
  | .ok s' ps =>
    if ! tk.queued ∧ maxPacket s tk.via < 32 + (rvBytes ps).length then answer { tk with adj := 0 } eSize [] s
    else
      let s' := setCause none (answer tk stOk ps (afterClass cls s'))
      if c.opcode = 1 then rememberOpen tk s' else s'

/-- Whether the key of a queued command has been reached (R90). -/
def keyReached (s : State) (b : AtBlk) : Bool :=
  match b.key with
  | 1 => match tabGet (port s (b.source / 8)).seen (b.source % 8) with | some n => decide (toUnsigned 64 b.value ≤ n) | none => false
  | 2 => match tabGet (port s (b.source / 8)).frames (b.source % 8) with | some n => decide (toUnsigned 64 b.value ≤ n) | none => false
  | 3 => (axis s b.source).state == 1 && decide (toSigned 64 (toUnsigned 64 b.value) ≤ mdNow s b.source)
  | 4 => decide (toUnsigned 64 b.value ≤ tmuNs s)
  | _ => false

/-- A key that had passed before the command arrived (R90). -/
def keyPassed (s : State) (b : AtBlk) : Bool := if b.key = 4 then decide (toUnsigned 64 b.value < tmuNs s) else keyReached s b

/-- A command is put into the apply-at queue (R88). -/
def enqueue (i : Instr) (tk : Ticket) (b : AtBlk) (vals : Vals) (adj : Nat) (s : State) : State :=
  let late := keyPassed s b
  let pos := if b.key = 3 then some (toSigned 64 (toUnsigned 64 b.value)) else none
  let q : Queued := { i := i, tk := { tk with adj := adj, queued := true, late := late, pos := pos, ord := s.dev.order + 1 }, late := late, blk := b, vals := vals }
  let s := setVia tk.session tk.via (setDev (fun d => { d with queue := d.queue ++ [q], order := d.order + 1 }) s)
  answer { tk with adj := adj } stQueued [] s

/-- A command that has passed the first five checks is judged and carried out. -/
def serve (i : Instr) (p : Pack) (sid : Nat) (s : State) : State :=
  let tk := { rawTicket p with session := sid }
  let refused : Ticket := if p.op = 1 then rawTicket p else tk
  match p.cmd with
  | none => answer refused eOpcode [] s
  | some c =>
    match judge c p sid s with
    | .refuse st ps => answer refused st ps s
    | .queue b vals adj => enqueue i tk b vals adj s
    | .run vals adj => perform c { tk with adj := adj } vals s

/-- Held commands that now follow in order are executed in turn (R71): each takes its place in sequencer order as it is released, and is judged then, by
the ownership of that instant too (R54, R101; log 240). -/
def drainHeld : Nat → Nat → State → State
  | 0, _, s => s
  | k + 1, sid, s =>
    match sess s sid with
    | none => s
    | some x =>
      match x.held.find? fun e => e.2.2.seq == expected x with
      | none => s
      | some (_, i, tk) =>
        let s := setSess sid (fun x => { x with held := x.held.filter fun e => e.2.2.seq != tk.seq }) s
        match packetOf i with
        | none => s
        | some p => drainHeld k sid (serve i p sid (consume sid tk.seq s))

/-- A command packet arrives (R54). -/
def receive (i : Instr) (p : Pack) (s : State) : State :=
  match intake i p s with
  | (none, s) => s
  | (some sid, s) => drainHeld 16 sid (serve i p sid s)

/-! ## The apply-at queue (R90 to R92) -/

/-- A queued command has come due and is taken from the queue: it is applied or discarded (R91). -/
def applyOne (q : Queued) (s : State) : State :=
  match packetOf q.i with
  | none => s
  | some p =>
    match p.cmd with
    | none => s
    | some c =>
      let own := c.legal.contains s.dev.state
      if ! (own || (runningState s.dev.state && c.opcode != 0x0108 && c.opcode != 0x0109)) then answer { q.tk with adj := 0 } eState [] s
      else if blockShut c q.vals s then answer { q.tk with adj := 0 } eBusy [] s
      else perform c q.tk q.vals s

/-- Applies the queued commands that `due` picks, in sequencer order (R92). -/
def applyQueued (due : State → Queued → Bool) : Nat → State → State
  | 0, s => s
  | k + 1, s =>
    match s.dev.queue.findIdx? (due s) with
    | none => s
    | some j =>
      match s.dev.queue[j]? with
      | none => s
      | some q => applyQueued due k (applyOne q (setDev (fun d => { d with queue := d.queue.eraseIdx j }) s))

/-- Whether a queued command is due now: POSITION only as the axis moves forward (R90). -/
def isDue (s : State) (q : Queued) : Bool :=
  q.late || (keyReached s q.blk && (q.blk.key != 3 || decide (0 < (axis s q.blk.source).de)))

def applyAtDue (s : State) : State := applyQueued isDue s.dev.queue.length s

/-- The start of a line or frame of a stream whose index is at or above VALUE (R90). -/
def applyAtIndex (key stream index : Nat) (s : State) : State :=
  applyQueued (fun _ q => q.blk.key == key && q.blk.source == stream && decide (toUnsigned 64 q.blk.value ≤ index)) s.dev.queue.length s

/-! ## What lapses with time (R71, R97, R101, R106) -/

/-- Held commands of a session whose 100 ms have ended are refused with E_SEQUENCE (R71, R73). -/
def holdExpire (overN : Nat → Bool) (s : State) (e : Nat × Sess) : State :=
  let gone := e.2.held.filter fun x => overN x.1
  let s := if gone.isEmpty then s else setSess e.1 (fun x => { x with held := x.held.filter fun y => ! overN y.1 }) s
  gone.foldl (fun s x => refuseRaw x.2.2 eSequence [u32 (expected e.2)] s) s

def sequenceHoldTimeout (s : State) : State := s.dev.sessions.foldl (holdExpire fun t => decide (t ≤ s.now)) s

/-- The head register accesses and echoes of a port whose time is past have ended with E_DEVICE (R138, R165). -/
def portLapse (s : State) (n : Nat) : State :=
  let s := match (port s n).acc with | some a => if a.deadline < s.now then regEchoTimeout n s else s | none => s
  match (port s n).echo with | some e => if e.deadline < s.now then echoTimeout n s else s | none => s

def portsLapse (s : State) : State := (List.range 16).foldl portLapse s

/-- What has lapsed before the present instant. -/
def lapse (s : State) : State :=
  let s := portsLapse (neighboursDue (deferLapse s))
  let s := s.dev.sessions.foldl (holdExpire fun t => decide (t < s.now)) s
  let closing : Bool := match s.dev.owner with
    | some o => match sess s o with | some x => decide (x.last + x.idle * secPs ≤ s.dev.leaseEnd) | none => false
    | none => false
  let s := if closing then idleClose true s else s
  let s := if s.dev.owner.isSome ∧ s.dev.leaseEnd < s.now then vacate 3 s else s
  forgetOpens (idleClose true s)

end Sys2Proof.Machine
end

