-- ==== Sys2Proof/Machine/Arrive.lean ====
section
/-! DEFINITION. Sys2Proof/Machine/Arrive.lean: how every row of the table runs: the block runs up to the row's instant, the row has its
effect, and what follows from it at once is carried out (log 1). -/

namespace Sys2Proof.Machine

/-- The block runs up to instant `t`, and what has lapsed by then lapses. -/
def arrive (t : Nat) (s : State) : State := lapse (advance t s)

/-- What follows at once from any change: web lines that can be entered, head enables and the drive requests, an ARM that can be judged,
the end of a drain's analysis, frames whose first row can be processed, idle codec and compression engines, a plan that is no longer held, the flash's next write, and the levels
of FAULT_N and THERM_N. -/
def settle (s : State) : State :=
  let s := enterLines s
  let s := if wrapClosed 39 s then s else markFinish s
  let s := drainFinish (armJudge s)
  let s := if wrapClosed 33 s then s else startFrames s
  let s := if s.tbc.busy ≠ 0 ∨ wrapClosed 35 s then s else tbcPick s
  let s := if wrapClosed 34 s then s else vcuRun s
  judgeThermN (judgeFaultN (nvsKick (releaseHeldPlan s)))

/-- What holds after every row: the block stands at the row's instant, or where it stood if that had passed (log 1); no row changes the
ordering code, which the factory writes (R2, R589), nor the commands that wait. -/
def conclude (t : Nat) (old new : State) : State :=
  { new with now := max t old.now, dev := { new.dev with ha := old.dev.ha }, pending := old.pending }

/-- A row of the table: the block runs up to its instant, it has its effect, and what follows at once is carried out. -/
def happen (t : Nat) (f : State → State) (s : State) : Host.Outcome State Fault Refusal := .next (conclude t s (settle (f (arrive t s))))

/-- The fast domains run: REF and PLL_SYS are there, no reset of System reach or wider has been entered, and the device is not in SLEEP (R49, R552, R571,
R573). -/
def awake (s : State) : Bool := ! s.dev.asleep && s.rcp.ref && bit s.rcp.lock 0 && match s.rcp.rst with | some r => r.entered == 0 | none => true

/-- An effect that needs the fast domains. -/
def fast (f : State → State) (s : State) : State := if awake s then f s else s

/-- An effect of the blocks behind wrappers, none of which is closed (R582). -/
def within (ws : List Nat) (f : State → State) (s : State) : State := if awake s ∧ ! ws.any (fun w => wrapClosed w s) then f s else s

/-- A row that is a command packet. -/
def packet (i : Instr) (p : Pack) (s : State) : Host.Outcome State Fault Refusal := happen p.h.t (receive i p) s

/-- A register write of the host through BAR0 of link `via`; the PCIe links are down from the assertion of a reset (R574), and in SLEEP the write is held
until the device has left it (R49; log 26). -/
def hostWrite (via a v : Nat) (s : State) : State :=
  if s.rcp.rst.isSome then s
  else if s.dev.asleep then { s with dev := { s.dev with posted := s.dev.posted ++ [(via, a, v)] } }
  else barWrite via a v s

/-- The device leaves SLEEP, and the writes held by the PCIe links reach it (R49). -/
def wakeUp (s : State) : State :=
  let held := s.dev.posted
  let s := sleepWake s
  held.foldl (fun s e => barWrite e.1 e.2.1 e.2.2 s) { s with dev := { s.dev with posted := [] } }

/-- A LINE packet passes its checks and starts a line of its stream (R90, R131). -/
def startsLine (k : Pkt) (s : State) : Bool :=
  ! pktBad 1 65536 k && (streamOf s k.port (k.stream % 8)).isSome

/-- The LINE row: commands keyed to this line are applied first; while the front end is isolated its line is lost (R90, R582, R584). -/
def lineRow (k : Pkt) (s : State) : State :=
  let s := if ! wrapClosed 32 s ∧ startsLine k s then applyAtIndex 1 (k.port * 8 + k.stream % 8) k.index s else s
  lineIn k s

/-- The FRAME_START row: commands keyed to this frame are applied first (R90). -/
def frameRow (k : Pkt) (s : State) : State :=
  let s := if ! pktBad 2 12 k then applyAtIndex 2 (k.port * 8 + k.stream % 8) k.index s else s
  frameStartIn k s

/-- A DRAM read met poisoned data: it is an uncorrectable error (R519, R646). -/
def withPoison (bad : Bool) (f : State → State) (s : State) : State := f (if bad then poisonRead s else s)

/-- A bring-up or recalibration measured again (R528, R625): 0 a port's lane, any other a DRAM channel. -/
def remeasure (kind unit lane qf : Nat) (s : State) : State := if kind = 0 then provisionalRemeasure unit lane qf s else dramRemeasure unit qf s

/-- A write of RCP_SW_RESET with the reach of the row (R561, R587). -/
def resetRow (reach value : Nat) (s : State) : State := if bits value 9 8 = reach then hostWrite 0 (rcpBase + 0x0C) value s else s

/-- The backup domain runs from VBAT or from VDD_AON (R666). -/
def backupSwitch (on : Bool) (s : State) : State := setRcp (fun r => { r with onVbat := on }) s

end Sys2Proof.Machine
end

