-- ==== Sys2Proof/Machine/ExecArray.lean ====
section
/-! DEFINITION. Sys2Proof/Machine/ExecArray.lean: the meanings of the engine array and the result writer. -/

namespace Sys2Proof.Machine

/-- WEB_LINE_ARRIVAL (R255): A web line reaches a cluster's backlog or is skipped when full. -/
def execWebLineArrival (t : Nat) (cluster : Nat) (verify : Bool) (s : State) : Host.Outcome State Fault Refusal := happen t (within [16 + cluster] (webLineArrival cluster verify)) s

/-- LINE_ANALYSED (R271): A cluster finishes analysing a web line, closing and merging components. -/
def execLineAnalysed (t : Nat) (cluster : Nat) (verify : Bool) (poison : ElxPoison) (s : State) : Host.Outcome State Fault Refusal := happen t (within [16 + cluster] (withPoison (poison.line || poison.tiles || ! poison.comps.isEmpty) (analysedLine cluster verify poison))) s

/-- CLASSIFY_DONE (R279): A model finishes classifying a tile and the record and mark decision follow. -/
def execClassifyDone (t : Nat) (cluster : Nat) (poison : Bool) (s : State) : Host.Outcome State Fault Refusal := happen t (within [16 + cluster] (withPoison poison (classifyDone cluster poison))) s

/-- RECORD_WRITTEN (R321): The result writer writes a record into its queue ring and mirrors. -/
def execRecordWritten (t : Nat) (s : State) : Host.Outcome State Fault Refusal := happen t (within [41] recordWritten) s

/-- CLUSTER_GATE (R47): A cluster with no strip for its idle time is gated. -/
def execClusterGate (t : Nat) (cluster : Nat) (s : State) : Host.Outcome State Fault Refusal := happen t (within [16 + cluster] (clusterGate cluster)) s

/-- CLUSTER_HANG (R645): A cluster hung 10 ms with lines waiting is Block reset. -/
def execClusterHang (t : Nat) (cluster : Nat) (s : State) : Host.Outcome State Fault Refusal := happen t (within [16 + cluster] (clusterHang cluster)) s

/-- COALESCING_INTERVAL_END (R332): A mirror's coalescing interval ends and the pending MSI-X vector 65 signal for records written meanwhile is sent. -/
def execCoalescingIntervalEnd (t : Nat) (link : Nat) (queue : Nat) (s : State) : Host.Outcome State Fault Refusal := happen t (within [41] (coalesceEnd link queue)) s

end Sys2Proof.Machine
end

