-- ==== Sys2Proof/Machine/ExecBoot.lean ====
section
/-! DEFINITION. Sys2Proof/Machine/ExecBoot.lean: the meanings of boot, flash and eFuse. -/

namespace Sys2Proof.Machine

/-- BOOT_ROM_START (R603): Management core 0 starts the boot ROM, chooses and checks a slot and starts firmware. -/
def execBootRomStart (t : Nat) (flash : Option Nat) (factoryOk : Bool) (found : RomFinds) (s : State) : Host.Outcome State Fault Refusal :=
  happen t (bootRomStart flash factoryOk found.copyOk found.refclk) s

/-- DRAM_READY (R514): DRAM initialisation and training or self-refresh exit complete during boot. -/
def execDramReady (t : Nat) (fs : List DramFind) (s : State) : Host.Outcome State Fault Refusal := happen t (fast (dramReady fs)) s

/-- BOOT_COMPLETE (R603): Engines and codecs are loaded, ports come up and the device reaches STANDBY. -/
def execBootComplete (t : Nat) (crcOk : Bool) (s : State) : Host.Outcome State Fault Refusal := happen t (fast (bootComplete crcOk)) s

/-- TRIAL_CONFIRM (R609): A trial firmware's confirmation conditions hold and CONFIRMED is written. -/
def execTrialConfirm (t : Nat) (perst : Nat) (mgmt : Bool) (s : State) : Host.Outcome State Fault Refusal := happen t (fast (trialConfirm perst mgmt)) s

/-- CONFIRMATION_WINDOW_END (R610): The window ends unconfirmed and a Chip reset returns to the previous slot. -/
def execConfirmationWindowEnd (t : Nat) (s : State) : Host.Outcome State Fault Refusal := happen t (fast confirmationWindowEnd) s

/-- RECOVERY_RESET (R605): 100 ms after a successful FW_STAGE_END in recovery a Chip reset is asserted. -/
def execRecoveryReset (t : Nat) (s : State) : Host.Outcome State Fault Refusal := happen t (fast recoveryReset) s

/-- NVS_WRITE_COMPLETE (R598): A two-copy flash record write finishes or fails and the next queued write starts. -/
def execNvsWriteComplete (t : Nat) (ok : Bool) (second : Bool) (s : State) : Host.Outcome State Fault Refusal := happen t (fast (nvsWriteComplete ok second)) s

/-- EFUSE_PULSE (R591): An eFuse program pulse ends and the bit is read back. -/
def execEfusePulse (t : Nat) (ok : Bool) (s : State) : Host.Outcome State Fault Refusal := happen t (fast (efusePulse ok)) s

/-- PCIE_LINK_TRAINED (R603): A PCIe host link finishes training and becomes usable for queue pairs and confirmation. -/
def execPcieLinkTrained (t : Nat) (l : Nat) (s : State) : Host.Outcome State Fault Refusal := happen t (fast (linkTrained l)) s

/-- FLASH_READY (R606): The flash finishes erasing or programming staging sectors, and FW_STAGE_BEGIN or FW_STAGE_WRITE replies. -/
def execFlashReady (t : Nat) (ok : Bool) (s : State) : Host.Outcome State Fault Refusal := happen t (fast (flashReady ok)) s

end Sys2Proof.Machine
end

