-- ==== Sys2Proof/Machine/ExecColour.lean ====
section
/-! DEFINITION. Sys2Proof/Machine/ExecColour.lean: the meanings of the commands of area capture and colour (family 0x0A). -/

namespace Sys2Proof.Machine

/-- AREA_STREAM (R394): Binds a colour context to an area stream with size, rate, role and backlog. -/
def execAreaStream (h : Hdr) (p : PAreaStream) (s : State) : Host.Outcome State Fault Refusal := packet (.areaStream h p) (cmdPack h (areaStream p)) s

/-- CLP_BLACK (R416): Writes black levels into a context's inactive bank. -/
def execClpBlack (h : Hdr) (p : PClpBlack) (s : State) : Host.Outcome State Fault Refusal := packet (.clpBlack h p) (cmdPack h (clpBlack p)) s

/-- CLP_DEFECT_LOAD (R416): Writes defect list entries into a context's inactive bank. -/
def execClpDefectLoad (h : Hdr) (p : PClpDefectLoad) (s : State) : Host.Outcome State Fault Refusal := packet (.clpDefectLoad h p) (cmdPack h (clpDefectLoad p)) s

/-- CLP_COLOUR (R416): Writes white balance, matrix and LUT slot into a context's inactive bank. -/
def execClpColour (h : Hdr) (p : PClpColour) (s : State) : Host.Outcome State Fault Refusal := packet (.clpColour h p) (cmdPack h (clpColour p)) s

/-- CLP_LUT_LOAD (R416): Loads entries of a 3D LUT slot not in use. -/
def execClpLutLoad (h : Hdr) (p : PClpLutLoad) (s : State) : Host.Outcome State Fault Refusal := packet (.clpLutLoad h p) (cmdPack h (clpLutLoad p)) s

/-- CLP_BANK_SELECT (R416): Switches a context's colour bank at a frame boundary. -/
def execClpBankSelect (h : Hdr) (p : PClpBankSelect) (s : State) : Host.Outcome State Fault Refusal := packet (.clpBankSelect h p) (cmdPack h (clpBankSelect p)) s

/-- HEAD_CONFIG (R404): Configures an output head's source, tap, crop, scale, format and destination. -/
def execHeadConfig (h : Hdr) (p : PHeadConfig) (s : State) : Host.Outcome State Fault Refusal := packet (.headConfig h p) (cmdPack h (headConfig p)) s

/-- HEAD_KERNEL (R405): Loads a head's scaler table for one axis. -/
def execHeadKernel (h : Hdr) (p : PHeadKernel) (s : State) : Host.Outcome State Fault Refusal := packet (.headKernel h p) (cmdPack h (headKernel p)) s

/-- HEAD_CURVE (R406): Loads or presets a head's curves, applied from a frame. -/
def execHeadCurve (h : Hdr) (p : PHeadCurve) (s : State) : Host.Outcome State Fault Refusal := packet (.headCurve h p) (cmdPack h (headCurve p)) s

/-- ST2110_CONFIG (R412): Configures an ST 2110-20 sender's addressing. -/
def execSt2110Config (h : Hdr) (p : PSt2110Config) (s : State) : Host.Outcome State Fault Refusal := packet (.st2110Config h p) (cmdPack h (st2110Config p)) s

/-- ST2110_SDP (R421): Returns a sender's SDP text. -/
def execSt2110Sdp (h : Hdr) (p : PSt2110Sdp) (s : State) : Host.Outcome State Fault Refusal := packet (.st2110Sdp h p) (cmdPack h (st2110Sdp p)) s

/-- HOST_RING (R414): Sets a head's host ring. -/
def execHostRing (h : Hdr) (p : PHostRing) (s : State) : Host.Outcome State Fault Refusal := packet (.hostRing h p) (cmdPack h (hostRing p)) s

/-- LIVE_VIEW (R418): Configures the live view context's planes, decimation, height, rate and role. -/
def execLiveView (h : Hdr) (p : PLiveView) (s : State) : Host.Outcome State Fault Refusal := packet (.liveView h p) (cmdPack h (liveView p)) s

/-- CLP_STATUS (R421): Returns a context's role, rate, backlog, counters and bank. -/
def execClpStatus (h : Hdr) (p : PClpStatus) (s : State) : Host.Outcome State Fault Refusal := packet (.clpStatus h p) (cmdPack h (clpStatus p)) s

/-- CLP_COUNTERS_CLEAR (R421): Sets the colour pipeline counters to 0. -/
def execClpCountersClear (h : Hdr) (s : State) : Host.Outcome State Fault Refusal := packet (.clpCountersClear h) (cmdPack h clpCountersClear) s

end Sys2Proof.Machine
end

