-- ==== Sys2Proof/Machine/ExecDiag.lean ====
section
/-! DEFINITION. Sys2Proof/Machine/ExecDiag.lean: the meanings of the commands of diagnostics and the register window (family 0x11). -/

namespace Sys2Proof.Machine

/-- REG_READ (R651): Reads registers through the register window. -/
def execRegRead (h : Hdr) (p : PRegRead) (s : State) : Host.Outcome State Fault Refusal := packet (.regRead h p) (cmdPack h (regReadCmd p)) s

/-- REG_WRITE (R651): Writes a register through the window with the owner's rights. -/
def execRegWrite (h : Hdr) (p : PRegWrite) (s : State) : Host.Outcome State Fault Refusal := packet (.regWrite h p) (cmdPack h (regWriteCmd p)) s

/-- DIAG_RESET (R652): Asserts a Block, System or Chip reset 10 ms after the reply. -/
def execDiagReset (h : Hdr) (p : PDiagReset) (s : State) : Host.Outcome State Fault Refusal := packet (.diagReset h p) (cmdPack h (diagReset p)) s

/-- DIAG_INJECT (R652): Corrupts check bits of a DRAM unit or the next SRAM word of a block. -/
def execDiagInject (h : Hdr) (p : PDiagInject) (s : State) : Host.Outcome State Fault Refusal := packet (.diagInject h p) (cmdPack h (diagInject p)) s

end Sys2Proof.Machine
end

