-- ==== Sys2Proof/Machine/ExecDram.lean ====
section
/-! DEFINITION. Sys2Proof/Machine/ExecDram.lean: the meanings of the commands of DRAM and DMA (family 0x0E). -/

namespace Sys2Proof.Machine

/-- DMC_LAYOUT (R512): Records grain, degraded mask and maximum rate for the next start that does not keep DRAM. -/
def execDmcLayout (h : Hdr) (p : PDmcLayout) (s : State) : Host.Outcome State Fault Refusal := packet (.dmcLayout h p) (cmdPack h (dmcLayout p)) s

/-- DMC_POLICY (R549): Sets DRAM retraining, row protection, scrub, ECC and scheduling parameters. -/
def execDmcPolicy (h : Hdr) (p : PDmcPolicy) (s : State) : Host.Outcome State Fault Refusal := packet (.dmcPolicy h p) (cmdPack h (dmcPolicy p)) s

/-- DMC_USER_REGION (R546): Sets the user buffer size. -/
def execDmcUserRegion (h : Hdr) (p : PDmcUserRegion) (s : State) : Host.Outcome State Fault Refusal := packet (.dmcUserRegion h p) (cmdPack h (dmcUserRegion p)) s

/-- DMC_RETRAIN (R527): Requests retraining of a DRAM channel. -/
def execDmcRetrain (h : Hdr) (p : PDmcRetrain) (s : State) : Host.Outcome State Fault Refusal := packet (.dmcRetrain h p) (cmdPack h (dmcRetrain p)) s

/-- DMC_STATUS (R549): Returns a DRAM channel's state, counters and DIMM organisation. -/
def execDmcStatus (h : Hdr) (p : PDmcStatus) (s : State) : Host.Outcome State Fault Refusal := packet (.dmcStatus h p) (cmdPack h (dmcStatus p)) s

/-- DMC_ECC_LOG (R522): Returns entries of the DRAM error log. -/
def execDmcEccLog (h : Hdr) (p : PDmcEccLog) (s : State) : Host.Outcome State Fault Refusal := packet (.dmcEccLog h p) (cmdPack h (dmcEccLog p)) s

/-- DMC_COUNTERS_CLEAR (R549): Sets the DRAM counters to 0. -/
def execDmcCountersClear (h : Hdr) (s : State) : Host.Outcome State Fault Refusal := packet (.dmcCountersClear h) (cmdPack h dmcCountersClear) s

/-- DMA_CHANNEL (R549): Sets an idle DMA channel's descriptor space, first address and interrupt link. -/
def execDmaChannel (h : Hdr) (p : PDmaChannel) (s : State) : Host.Outcome State Fault Refusal := packet (.dmaChannel h p) (cmdPack h (dmaChannel p)) s

/-- DMA_START (R538): Starts a DMA channel or releases its waiting descriptor. -/
def execDmaStart (h : Hdr) (p : PDmaStart) (s : State) : Host.Outcome State Fault Refusal := packet (.dmaStart h p) (cmdPack h (dmaStartCmd p)) s

/-- DMA_RESUME (R544): Re-runs a halted descriptor from its first byte. -/
def execDmaResume (h : Hdr) (p : PDmaResume) (s : State) : Host.Outcome State Fault Refusal := packet (.dmaResume h p) (cmdPack h (dmaResume p)) s

/-- DMA_ABORT (R544): Ends a DMA chain and returns the channel to IDLE. -/
def execDmaAbort (h : Hdr) (p : PDmaAbort) (s : State) : Host.Outcome State Fault Refusal := packet (.dmaAbort h p) (cmdPack h (dmaAbort p)) s

/-- DMA_STATUS (R549): Returns a DMA channel's state and counters. -/
def execDmaStatus (h : Hdr) (p : PDmaStatus) (s : State) : Host.Outcome State Fault Refusal := packet (.dmaStatus h p) (cmdPack h (dmaStatus p)) s

/-- DMA_BUF_WRITE (R546): Writes bytes into the user buffer. -/
def execDmaBufWrite (h : Hdr) (p : PDmaBufWrite) (s : State) : Host.Outcome State Fault Refusal := packet (.dmaBufWrite h p) (cmdPack h (dmaBufWrite p)) s

/-- DMA_BUF_READ (R546): Reads bytes from the user buffer. -/
def execDmaBufRead (h : Hdr) (p : PDmaBufRead) (s : State) : Host.Outcome State Fault Refusal := packet (.dmaBufRead h p) (cmdPack h (dmaBufRead p)) s

/-- DMA_COUNTERS_CLEAR (R549): Sets the DMA counters to 0. -/
def execDmaCountersClear (h : Hdr) (s : State) : Host.Outcome State Fault Refusal := packet (.dmaCountersClear h) (cmdPack h dmaCountersClear) s

end Sys2Proof.Machine
end

