-- ==== Sys2Proof/Machine/ExecEvents.lean ====
section
/-! DEFINITION. Sys2Proof/Machine/ExecEvents.lean: the meanings of the commands of the event router (family 0x0D). -/

namespace Sys2Proof.Machine

/-- EVR_CHANNEL (R500): Configures an event channel's source, fork list and bits, refusing loops. -/
def execEvrChannel (h : Hdr) (p : PEvrChannel) (s : State) : Host.Outcome State Fault Refusal := packet (.evrChannel h p) (cmdPack h (evrChannel p)) s

/-- EVR_ENABLE (R491): Enables or disables an event channel. -/
def execEvrEnable (h : Hdr) (p : PEvrEnable) (s : State) : Host.Outcome State Fault Refusal := packet (.evrEnable h p) (cmdPack h (evrEnable p)) s

/-- EVR_TASK_MODE (R496): Sets a task input to native or AK-6420 mode. -/
def execEvrTaskMode (h : Hdr) (p : PEvrTaskMode) (s : State) : Host.Outcome State Fault Refusal := packet (.evrTaskMode h p) (cmdPack h (evrTaskMode p)) s

/-- EVR_DIVIDER (R493): Sets a divider's divisor. -/
def execEvrDivider (h : Hdr) (p : PEvrDivider) (s : State) : Host.Outcome State Fault Refusal := packet (.evrDivider h p) (cmdPack h (evrDivider p)) s

/-- EVR_FIRE (R502): Publishes a software event on a channel. -/
def execEvrFire (h : Hdr) (p : PEvrFire) (s : State) : Host.Outcome State Fault Refusal := packet (.evrFire h p) (cmdPack h (evrFire p)) s

/-- EVR_STATUS (R505): Returns channel settings and counts. -/
def execEvrStatus (h : Hdr) (p : PEvrStatus) (s : State) : Host.Outcome State Fault Refusal := packet (.evrStatus h p) (cmdPack h (evrStatus p)) s

/-- EVR_TASK_STATUS (R505): Returns a task input's mode, busy, pending and counters. -/
def execEvrTaskStatus (h : Hdr) (p : PEvrTaskStatus) (s : State) : Host.Outcome State Fault Refusal := packet (.evrTaskStatus h p) (cmdPack h (evrTaskStatus p)) s

/-- EVR_TASK_CLEAR (R497): Clears a task input's OVR flag. -/
def execEvrTaskClear (h : Hdr) (p : PEvrTaskClear) (s : State) : Host.Outcome State Fault Refusal := packet (.evrTaskClear h p) (cmdPack h (evrTaskClear p)) s

/-- EVR_COUNTERS_CLEAR (R505): Sets the event router counters to 0. -/
def execEvrCountersClear (h : Hdr) (s : State) : Host.Outcome State Fault Refusal := packet (.evrCountersClear h) (cmdPack h evrCountersClear) s

end Sys2Proof.Machine
end

