-- ==== Sys2Proof/Machine/ExecFiring.lean ====
section
/-! DEFINITION. Sys2Proof/Machine/ExecFiring.lean: the meanings of the marking heads. -/

namespace Sys2Proof.Machine

/-- MARK_DECISION (R359): A mark decision reaches the marking unit and is rasterised or listed pending. -/
def execMarkDecision (t : Nat) (s : State) : Host.Outcome State Fault Refusal := happen t (within [39] (markDecision)) s

/-- FIRE_INSTANT (R353): The web axis reaches a head's fire instant and it is fired, dropped, skipped or held. -/
def execFireInstant (t : Nat) (head : Nat) (j : Int) (fwd : Bool) (s : State) : Host.Outcome State Fault Refusal := happen t (within [39] (fireInstant head j fwd)) s

/-- PREHEAT_START (R356): The position reaches q_j − PRE_ADV and the pre-heat train begins. -/
def execPreheatStart (t : Nat) (head : Nat) (j : Int) (s : State) : Host.Outcome State Fault Refusal := happen t (within [39] (preheatStart head j)) s

/-- MARK_FETCH_DONE (R368): Ring lines fetched by DMA enter a head's buffer. -/
def execMarkFetchDone (t : Nat) (head : Nat) (count : Nat) (poison : List Int) (s : State) : Host.Outcome State Fault Refusal := happen t (within [39, 40] (withPoison (! poison.isEmpty) (markFetchDone head count poison))) s

/-- LDACK_CHANGE (R371): The line controller's LDACK input changes. -/
def execLdackChange (t : Nat) (level : Bool) (s : State) : Host.Outcome State Fault Refusal := happen t (within [39] (ldackChange level)) s

/-- REVREQ_RELEASE (R371): The position falls to q_jr − REV_MARGIN and REVREQ is deasserted. -/
def execRevreqRelease (t : Nat) (s : State) : Host.Outcome State Fault Refusal := happen t (within [39] (revreqRelease)) s

/-- STOP_TIMEOUT (R372): LDACK did not rise within STOP_TIMEOUT; requests are dropped. -/
def execStopTimeout (t : Nat) (s : State) : Host.Outcome State Fault Refusal := happen t (within [39] (stopTimeout)) s

/-- SLOWREQ_RELEASE (R373): SLOWREQ is deasserted 10 ms after no cause holds. -/
def execSlowreqRelease (t : Nat) (s : State) : Host.Outcome State Fault Refusal := happen t (within [39] (slowreqRelease)) s

/-- HEAD_TEMP_READ (R348): A head temperature read completes and limits are judged. -/
def execHeadTempRead (t : Nat) (head : Nat) (ok : Bool) (word : Nat) (s : State) : Host.Outcome State Fault Refusal := happen t (within [39] (headTempRead head ok word)) s

/-- EN_SETTLE_END (R346): EN_SETTLE after HEAD_EN rises expires and firing may begin. -/
def execEnSettleEnd (t : Nat) (head : Nat) (s : State) : Host.Outcome State Fault Refusal := happen t (within [39] (enSettleEnd head)) s

/-- SERVICE_FIRE_TICK (R355): A FIXED-paced service fire instant comes due. -/
def execServiceFireTick (t : Nat) (head : Nat) (s : State) : Host.Outcome State Fault Refusal := happen t (within [39] (serviceFireTick head)) s

/-- MAIN_PULSE_END (R345): A head's main pulse of width W_MAIN ends, MH_FIRE falls and the next shift may start. -/
def execMainPulseEnd (t : Nat) (head : Nat) (s : State) : Host.Outcome State Fault Refusal := happen t (within [39] (mainPulseEnd head)) s

end Sys2Proof.Machine
end

