-- ==== Sys2Proof/Machine/ExecFrontEnd.lean ====
section
/-! DEFINITION. Sys2Proof/Machine/ExecFrontEnd.lean: the meanings of the commands of front end and stitching (family 0x03). -/

namespace Sys2Proof.Machine

/-- FE_GEOMETRY (R202): Declares web width, pitches, planes, bands, f_max and stitch settings, granting f_max. -/
def execFeGeometry (h : Hdr) (p : PFeGeometry) (s : State) : Host.Outcome State Fault Refusal := packet (.feGeometry h p) (cmdPack h (feGeometry p)) s

/-- FE_STREAM_MAP (R193): Maps a stream into a plane with its MD offset, span and cubic x-map. -/
def execFeStreamMap (h : Hdr) (p : PFeStreamMap) (s : State) : Host.Outcome State Fault Refusal := packet (.feStreamMap h p) (cmdPack h (feStreamMap p)) s

/-- FE_SEAM (R196): Defines a seam between two streams of a plane. -/
def execFeSeam (h : Hdr) (p : PFeSeam) (s : State) : Host.Outcome State Fault Refusal := packet (.feSeam h p) (cmdPack h (feSeam p)) s

/-- FE_KERNEL (R195): Loads the resampling kernel table or restores the default. -/
def execFeKernel (h : Hdr) (p : PFeKernel) (s : State) : Host.Outcome State Fault Refusal := packet (.feKernel h p) (cmdPack h (feKernel p)) s

/-- FE_COEF_LOAD (R182): Writes offsets, gains or defect codes into a stream's inactive bank. -/
def execFeCoefLoad (h : Hdr) (p : PFeCoefLoad) (s : State) : Host.Outcome State Fault Refusal := packet (.feCoefLoad h p) (cmdPack h (feCoefLoad p)) s

/-- FE_BANK_SELECT (R182): Switches streams of a port to a coefficient bank, at once or at a key. -/
def execFeBankSelect (h : Hdr) (p : PFeBankSelect) (s : State) : Host.Outcome State Fault Refusal := packet (.feBankSelect h p) (cmdPack h (feBankSelect p)) s

/-- FE_SHADING (R181): Sets a stream's shading mode and tracker settings and discards the window in progress. -/
def execFeShading (h : Hdr) (p : PFeShading) (s : State) : Host.Outcome State Fault Refusal := packet (.feShading h p) (cmdPack h (feShading p)) s

/-- FE_SETTING_LATENCY (R183): Sets a setting-latency entry of a port. -/
def execFeSettingLatency (h : Hdr) (p : PFeSettingLatency) (s : State) : Host.Outcome State Fault Refusal := packet (.feSettingLatency h p) (cmdPack h (feSettingLatency p)) s

/-- FE_META_KEY (R184): Sets a port's metadata key. -/
def execFeMetaKey (h : Hdr) (p : PFeMetaKey) (s : State) : Host.Outcome State Fault Refusal := packet (.feMetaKey h p) (cmdPack h (feMetaKey p)) s

/-- FE_STATUS (R170): Returns lane load, f_lane, spill and bank and shading state of a port. -/
def execFeStatus (h : Hdr) (p : PFeStatus) (s : State) : Host.Outcome State Fault Refusal := packet (.feStatus h p) (cmdPack h (feStatus p)) s

/-- FE_CAPTURE (R206): Starts a capture of a stream's next line at a stage, or returns bytes of the last one. -/
def execFeCapture (h : Hdr) (p : PFeCapture) (s : State) : Host.Outcome State Fault Refusal := packet (.feCapture h p) (cmdPack h (feCapture p)) s

/-- FE_COUNTERS_CLEAR (R204): Sets the front-end counters to 0. -/
def execFeCountersClear (h : Hdr) (s : State) : Host.Outcome State Fault Refusal := packet (.feCountersClear h) (cmdPack h feCountersClear) s

end Sys2Proof.Machine
end

