-- ==== Sys2Proof/Machine/ExecGraph.lean ====
section
/-! DEFINITION. Sys2Proof/Machine/ExecGraph.lean: the meanings of the commands of the analysis graph (family 0x06). -/

namespace Sys2Proof.Machine

/-- GRAPH_NODE (R256): Writes a node of a graph slot. -/
def execGraphNode (h : Hdr) (p : PGraphNode) (s : State) : Host.Outcome State Fault Refusal := packet (.graphNode h p) (cmdPack h (graphNode p)) s

/-- GRAPH_CLEAR (R256): Empties a graph slot. -/
def execGraphClear (h : Hdr) (p : PGraphClear) (s : State) : Host.Outcome State Fault Refusal := packet (.graphClear h p) (cmdPack h (graphClear p)) s

/-- GRADE_RULES (R276): Writes grading rules of a slot, taking effect at one web line on every band. -/
def execGradeRules (h : Hdr) (p : PGradeRules) (s : State) : Host.Outcome State Fault Refusal := packet (.gradeRules h p) (cmdPack h (gradeRules p)) s

/-- MARK_TABLE (R281): Writes mark table entries of a slot. -/
def execMarkTable (h : Hdr) (p : PMarkTable) (s : State) : Host.Outcome State Fault Refusal := packet (.markTable h p) (cmdPack h (markTable p)) s

/-- GRAPH_SELECT (R258): Selects the web graph slot, restarting the graph at the next strip boundary. -/
def execGraphSelect (h : Hdr) (p : PGraphSelect) (s : State) : Host.Outcome State Fault Refusal := packet (.graphSelect h p) (cmdPack h (graphSelect p)) s

/-- GRAPH_PARAM (R259): Changes a node parameter, only live ones while running. -/
def execGraphParam (h : Hdr) (p : PGraphParam) (s : State) : Host.Outcome State Fault Refusal := packet (.graphParam h p) (cmdPack h (graphParam p)) s

/-- VERIFY_GRAPH (R256): Names the verification graph slot, cluster and port. -/
def execVerifyGraph (h : Hdr) (p : PVerifyGraph) (s : State) : Host.Outcome State Fault Refusal := packet (.verifyGraph h p) (cmdPack h (verifyGraph p)) s

/-- GRAPH_BUDGET (R284): Declares a slot's record rate per band and BACKLOG_MAX. -/
def execGraphBudget (h : Hdr) (p : PGraphBudget) (s : State) : Host.Outcome State Fault Refusal := packet (.graphBudget h p) (cmdPack h (graphBudget p)) s

/-- GRAPH_COST (R284): Returns the cost estimator's figures for a slot. -/
def execGraphCost (h : Hdr) (p : PGraphCost) (s : State) : Host.Outcome State Fault Refusal := packet (.graphCost h p) (cmdPack h (graphCost p)) s

/-- ELX_STATUS (R288): Returns a cluster's last line, load, skips, LMU and backlog figures. -/
def execElxStatus (h : Hdr) (p : PElxStatus) (s : State) : Host.Outcome State Fault Refusal := packet (.elxStatus h p) (cmdPack h (elxStatus p)) s

/-- ELX_COUNTERS_CLEAR (R288): Sets the ELX and LMU counters to 0. -/
def execElxCountersClear (h : Hdr) (s : State) : Host.Outcome State Fault Refusal := packet (.elxCountersClear h) (cmdPack h elxCountersClear) s

/-- ELX_GATING (R47): Sets the cluster idle time before gating. -/
def execElxGating (h : Hdr) (p : PElxGating) (s : State) : Host.Outcome State Fault Refusal := packet (.elxGating h p) (cmdPack h (elxGating p)) s

end Sys2Proof.Machine
end

