-- ==== Sys2Proof/Machine/ExecHealth.lean ====
section
/-! DEFINITION. Sys2Proof/Machine/ExecHealth.lean: the meanings of the commands of health, calibration and margins (family 0x0F). -/

namespace Sys2Proof.Machine

/-- ENVELOPE_SET (R50): Sets and stores the envelope, goal and power limit, forming a new plan. -/
def execEnvelopeSet (h : Hdr) (p : PEnvelopeSet) (s : State) : Host.Outcome State Fault Refusal := packet (.envelopeSet h p) (cmdPack h (envelopeSet p)) s

/-- PLAN_RUN (R628): Forms and applies a new margin plan. -/
def execPlanRun (h : Hdr) (s : State) : Host.Outcome State Fault Refusal := packet (.planRun h) (cmdPack h planRun) s

/-- MON_STATUS (R650): Returns monitor, plan and sensor figures. -/
def execMonStatus (h : Hdr) (s : State) : Host.Outcome State Fault Refusal := packet (.monStatus h) (cmdPack h monStatus) s

/-- THERMAL_CONFIG (R638): Sets T_warn and T_throttle. -/
def execThermalConfig (h : Hdr) (p : PThermalConfig) (s : State) : Host.Outcome State Fault Refusal := packet (.thermalConfig h p) (cmdPack h (thermalConfig p)) s

/-- MARGIN_CONFIG (R632): Sets DROOP_MV and DROOP_LIMIT. -/
def execMarginConfig (h : Hdr) (p : PMarginConfig) (s : State) : Host.Outcome State Fault Refusal := packet (.marginConfig h p) (cmdPack h (marginConfig p)) s

/-- TELEMETRY_CONFIG (R634): Sets the PMBus regulator addresses and rails. -/
def execTelemetryConfig (h : Hdr) (p : PTelemetryConfig) (s : State) : Host.Outcome State Fault Refusal := packet (.telemetryConfig h p) (cmdPack h (telemetryConfig p)) s

/-- TELEMETRY_READ (R634): Returns a regulator's telemetry. -/
def execTelemetryRead (h : Hdr) (p : PTelemetryRead) (s : State) : Host.Outcome State Fault Refusal := packet (.telemetryRead h p) (cmdPack h (telemetryReadCmd p)) s

/-- CAL_STATUS (R635): Returns a calibration item's run record. -/
def execCalStatus (h : Hdr) (p : PCalStatus) (s : State) : Host.Outcome State Fault Refusal := packet (.calStatus h p) (cmdPack h (calStatus p)) s

/-- FAULT_POLICY (R641): Sets and stores FAULT_HOLD. -/
def execFaultPolicy (h : Hdr) (p : PFaultPolicy) (s : State) : Host.Outcome State Fault Refusal := packet (.faultPolicy h p) (cmdPack h (faultPolicy p)) s

/-- ERRLOG_READ (R648): Returns entries of the main or backup error log. -/
def execErrlogRead (h : Hdr) (p : PErrlogRead) (s : State) : Host.Outcome State Fault Refusal := packet (.errlogRead h p) (cmdPack h (errlogRead p)) s

/-- MON_COUNTERS_CLEAR (R650): Sets the monitor counters to 0. -/
def execMonCountersClear (h : Hdr) (s : State) : Host.Outcome State Fault Refusal := packet (.monCountersClear h) (cmdPack h monCountersClear) s

end Sys2Proof.Machine
end

