-- ==== Sys2Proof/Machine/ExecLapses.lean ====
section
/-! DEFINITION. Sys2Proof/Machine/ExecLapses.lean: the meanings of what time ends: sessions, leases, held and queued commands, and the drain. -/

namespace Sys2Proof.Machine

/-- SEQUENCE_HOLD_TIMEOUT (R71): A held command whose missing predecessors did not arrive in 100 ms is refused with E_SEQUENCE. -/
def execSequenceHoldTimeout (t : Nat) (s : State) : Host.Outcome State Fault Refusal := happen t (fast sequenceHoldTimeout) s

/-- SESSION_IDLE_TIMEOUT (R97): A session with no consumed command within its idle timeout closes. -/
def execSessionIdleTimeout (t : Nat) (s : State) : Host.Outcome State Fault Refusal := happen t (fast (idleClose false)) s

/-- LEASE_END (R101): The owner's lease ends and ownership becomes vacant. -/
def execLeaseEnd (t : Nat) (s : State) : Host.Outcome State Fault Refusal := happen t (fast leaseEndEff) s

/-- SESSION_OPEN_KEEP_END (R106): The kept SESSION_OPEN reply is forgotten after 10 s. -/
def execSessionOpenKeepEnd (t : Nat) (s : State) : Host.Outcome State Fault Refusal := happen t (fast forgetOpens) s

/-- APPLY_AT_DUE (R91): A queued command comes due at its key and is applied or discarded. -/
def execApplyAtDue (t : Nat) (s : State) : Host.Outcome State Fault Refusal := happen t (fast applyAtDue) s

/-- DRAIN_COMPLETE (R79): The drain completes and the device returns from DRAINING to ARMED. -/
def execDrainComplete (t : Nat) (s : State) : Host.Outcome State Fault Refusal := happen t (fast drainComplete) s

/-- DRAIN_LIMIT (R79): The drain limit expires and every remaining component is closed TRUNCATED. -/
def execDrainLimit (t : Nat) (s : State) : Host.Outcome State Fault Refusal := happen t (fast drainLimit) s

/-- OPCODE_NOT_DEFINED (R75): A command packet arrives whose OPCODE is not defined, or which is discarded before any opcode applies (bad MAGIC, IP fragments), and is refused with E_OPCODE or dropped. -/
def execOpcodeNotDefined (h : Hdr) (op magic : Nat) (frag crcOk : Bool) (s : State) : Host.Outcome State Fault Refusal :=
  packet (.opcodeNotDefined h op magic frag crcOk) (rawPack h op magic frag crcOk) s

end Sys2Proof.Machine
end

