-- ==== Sys2Proof/Machine/ExecLinks.lean ====
section
/-! DEFINITION. Sys2Proof/Machine/ExecLinks.lean: the meanings of what arrives on the camera ports and their timers. -/

namespace Sys2Proof.Machine

/-- LINE (R132): A LINE packet of a stream arrives whole and is ordered, corrected, registered and stitched. -/
def execLine (t : Nat) (pk : Pkt) (s : State) : Host.Outcome State Fault Refusal := happen t (within [pk.port] (packetIn 1 lineRow pk)) s

/-- FRAME_START (R391): A FRAME_START packet arrives and begins a frame of its context. -/
def execFrameStart (t : Nat) (pk : Pkt) (s : State) : Host.Outcome State Fault Refusal := happen t (within [pk.port] (packetIn 2 frameRow pk)) s

/-- FRAME_END (R391): A FRAME_END packet arrives and ends its frame, repairing missing rows. -/
def execFrameEnd (t : Nat) (pk : Pkt) (s : State) : Host.Outcome State Fault Refusal := happen t (within [pk.port] (packetIn 3 frameEndIn pk)) s

/-- METADATA (R184): A METADATA packet arrives and may switch a bank through a metadata key. -/
def execMetadata (t : Nat) (pk : Pkt) (s : State) : Host.Outcome State Fault Refusal := happen t (within [pk.port] (packetIn 4 metadataIn pk)) s

/-- REG_ECHO (R138): A head's REG_ECHO packet arrives and answers a register access. -/
def execRegEcho (t : Nat) (pk : Pkt) (s : State) : Host.Outcome State Fault Refusal := happen t (within [pk.port] (packetIn 5 regEcho pk)) s

/-- ECHO (R684): A head's ECHO arrives; after 16 the device forms D. -/
def execEcho (t : Nat) (port : Nat) (tag : Nat) (turn : Nat) (rx : EchoRx) (s : State) : Host.Outcome State Fault Refusal := happen t (within [port] (ctrlIn port 0x41 (leBytes 2 tag ++ leBytes 4 turn) rx.crc (echoIn port tag turn rx.rtt))) s

/-- LANE_ACK (R145): A head acknowledges a lane state change. -/
def execLaneAck (t : Nat) (port : Nat) (state : Nat) (rate : Nat) (fec : Nat) (rx : AckRx) (s : State) : Host.Outcome State Fault Refusal := happen t (within [port] (ctrlIn port 0x51 [state, rate, fec, rx.lanes] rx.crc (laneAck port state rate fec rx.lanes))) s

/-- FE_CAPTURE_TIMEOUT (R206): No line completes within 1 s of a capture and it is refused. -/
def execFeCaptureTimeout (t : Nat) (stream : Nat) (s : State) : Host.Outcome State Fault Refusal := happen t (within [32] (feCaptureTimeout stream)) s

/-- PORT_UP (R149): A port's bring-up completes and the port becomes UP. -/
def execPortUp (t : Nat) (port : Nat) (b : BringUp) (s : State) : Host.Outcome State Fault Refusal := happen t (within [port] (portUp port b)) s

/-- BRINGUP_TIMEOUT (R150): A port is not UP within 200 ms and ARM or PORT_PROBE is refused. -/
def execBringupTimeout (t : Nat) (port : Nat) (skew : Bool) (s : State) : Host.Outcome State Fault Refusal := happen t (within [port] (bringupTimeout port skew)) s

/-- LINK_DOWN (R151): An UP port loses marker lock or its forwarded clock and enters DOWN. -/
def execLinkDown (t : Nat) (port : Nat) (why : LinkLoss) (s : State) : Host.Outcome State Fault Refusal := happen t (within [port] (linkDown port why.clock why.heard)) s

/-- BRINGUP_RETRY (R151): Every 100 ms a DOWN port retries bring-up with stored coefficients. -/
def execBringupRetry (t : Nat) (port : Nat) (s : State) : Host.Outcome State Fault Refusal := happen t (within [port] (bringupRetry port)) s

/-- REG_ECHO_TIMEOUT (R138): No REG_ECHO within 1 ms and the command fails with E_DEVICE. -/
def execRegEchoTimeout (t : Nat) (port : Nat) (s : State) : Host.Outcome State Fault Refusal := happen t (within [port] (regEchoTimeout port)) s

/-- ECHO_TIMEOUT (R685): No ECHO within 1 ms and LATENCY_MEASURE fails. -/
def execEchoTimeout (t : Nat) (port : Nat) (s : State) : Host.Outcome State Fault Refusal := happen t (within [port] (echoTimeout port)) s

/-- TIME_MESSAGE_DUE (R137): A back-channel TIME message is sent at least once per millisecond. -/
def execTimeMessageDue (t : Nat) (port : Nat) (s : State) : Host.Outcome State Fault Refusal := happen t (within [port] (timeMessageDue port)) s

/-- QUALITY_UPDATE (R153): Each second the lane quality figures are updated and recalibration triggers judged. -/
def execQualityUpdate (t : Nat) (port : Nat) (q : List LaneQ) (s : State) : Host.Outcome State Fault Refusal := happen t (within [port] (qualityUpdate port q)) s

/-- RECAL_PERIOD (R155): A lane's recalibration period elapses. -/
def execRecalPeriod (t : Nat) (port : Nat) (lane : Nat) (s : State) : Host.Outcome State Fault Refusal := happen t (within [port, 42] (recalPeriod port lane)) s

/-- CAL_CANDIDATE_READY (R157): Shadow adaptation finishes and a commit marker is chosen or the candidate dropped. -/
def execCalCandidateReady (t : Nat) (port : Nat) (mseq : Nat) (pred : List Nat) (coefs : List (List Int)) (s : State) : Host.Outcome State Fault Refusal := happen t (within [port, 42] (calCandidate port mseq pred coefs)) s

/-- COEF_COMMIT (R157): At the chosen marker all affected lanes switch coefficients together. -/
def execCoefCommit (t : Nat) (port : Nat) (corrected : Nat) (s : State) : Host.Outcome State Fault Refusal := happen t (within [port] (coefCommitSaved port corrected)) s

/-- COEF_REVERT_CHECK (R157): 50 ms after a commit QF is compared and the commit may be reverted. -/
def execCoefRevertCheck (t : Nat) (port : Nat) (qf : Nat) (s : State) : Host.Outcome State Fault Refusal := happen t (within [port] (coefRevertCheck port qf)) s

/-- PROVISIONAL_REMEASURE (R625): A provisional calibration's quality is re-measured within 50 ms. -/
def execProvisionalRemeasure (t : Nat) (kind : Nat) (unit : Nat) (lane : Nat) (qf : Nat) (s : State) : Host.Outcome State Fault Refusal := happen t (fast (remeasure kind unit lane qf)) s

/-- EYE_SCAN_DONE (R165): An eye scan completes and the offset-0 reply is sent. -/
def execEyeScanDone (t : Nat) (port : Nat) (points : List Nat) (s : State) : Host.Outcome State Fault Refusal := happen t (within [port, 42] (eyeScanDone port points)) s

/-- LANE_STANDBY_TIME (R147): No trigger for the standby time moves a port to STANDBY. -/
def execLaneStandbyTime (t : Nat) (port : Nat) (s : State) : Host.Outcome State Fault Refusal := happen t (within [port] (laneStandbyTime port)) s

/-- LANE_DORMANT_TIME (R147): No trigger for the dormant time moves a port to DORMANT. -/
def execLaneDormantTime (t : Nat) (port : Nat) (s : State) : Host.Outcome State Fault Refusal := happen t (within [port] (laneDormantTime port)) s

end Sys2Proof.Machine
end

