-- ==== Sys2Proof/Machine/ExecMarking.lean ====
section
/-! DEFINITION. Sys2Proof/Machine/ExecMarking.lean: the meanings of the commands of marking (family 0x09). -/

namespace Sys2Proof.Machine

/-- MRK_HEAD_CONFIG (R349): Configures a marking head's geometry, pacing and bus timing. -/
def execMrkHeadConfig (h : Hdr) (p : PMrkHeadConfig) (s : State) : Host.Outcome State Fault Refusal := packet (.mrkHeadConfig h p) (cmdPack h (mrkHeadConfig p)) s

/-- MRK_REMAP_LOAD (R350): Loads remapping entries of a head. -/
def execMrkRemapLoad (h : Hdr) (p : PMrkRemapLoad) (s : State) : Host.Outcome State Fault Refusal := packet (.mrkRemapLoad h p) (cmdPack h (mrkRemapLoad p)) s

/-- MRK_PREHEAT (R356): Sets a head's pre-heat pulses and temperature scaling. -/
def execMrkPreheat (h : Hdr) (p : PMrkPreheat) (s : State) : Host.Outcome State Fault Refusal := packet (.mrkPreheat h p) (cmdPack h (mrkPreheat p)) s

/-- MRK_THERMAL (R374): Sets a head's temperature limit, hysteresis and sensing. -/
def execMrkThermal (h : Hdr) (p : PMrkThermal) (s : State) : Host.Outcome State Fault Refusal := packet (.mrkThermal h p) (cmdPack h (mrkThermal p)) s

/-- MRK_STYLE (R359): Sets mark dimensions and K_MAX. -/
def execMrkStyle (h : Hdr) (p : PMrkStyle) (s : State) : Host.Outcome State Fault Refusal := packet (.mrkStyle h p) (cmdPack h (mrkStyle p)) s

/-- MRK_LINE_MODE (R369): Sets CONTINUOUS or STOPPABLE mode with watermarks and timeouts. -/
def execMrkLineMode (h : Hdr) (p : PMrkLineMode) (s : State) : Host.Outcome State Fault Refusal := packet (.mrkLineMode h p) (cmdPack h (mrkLineMode p)) s

/-- MRK_HEAD_MODE (R346): Sets a head to OFF, PRODUCTION or SERVICE. -/
def execMrkHeadMode (h : Hdr) (p : PMrkHeadMode) (s : State) : Host.Outcome State Fault Refusal := packet (.mrkHeadMode h p) (cmdPack h (mrkHeadMode p)) s

/-- MRK_OVERLAP (R365): Names a head's overlap neighbour and nozzle offset. -/
def execMrkOverlap (h : Hdr) (p : PMrkOverlap) (s : State) : Host.Outcome State Fault Refusal := packet (.mrkOverlap h p) (cmdPack h (mrkOverlap p)) s

/-- MRK_SERVICE_PATTERN (R355): Loads a head's service bitmap. -/
def execMrkServicePattern (h : Hdr) (p : PMrkServicePattern) (s : State) : Host.Outcome State Fault Refusal := packet (.mrkServicePattern h p) (cmdPack h (mrkServicePattern p)) s

/-- MRK_SERVICE_FIRE (R355): Starts FIXED-paced firing of a head in SERVICE. -/
def execMrkServiceFire (h : Hdr) (p : PMrkServiceFire) (s : State) : Host.Outcome State Fault Refusal := packet (.mrkServiceFire h p) (cmdPack h (mrkServiceFire p)) s

/-- MRK_VERIFY_GEOMETRY (R380): Sets a verification stream's CD map and MD offset. -/
def execMrkVerifyGeometry (h : Hdr) (p : PMrkVerifyGeometry) (s : State) : Host.Outcome State Fault Refusal := packet (.mrkVerifyGeometry h p) (cmdPack h (mrkVerifyGeometry p)) s

/-- MRK_TEST_PRINT (R381): Rasterises a STAIR test pattern on a PRODUCTION head. -/
def execMrkTestPrint (h : Hdr) (p : PMrkTestPrint) (s : State) : Host.Outcome State Fault Refusal := packet (.mrkTestPrint h p) (cmdPack h (mrkTestPrint p)) s

/-- MRK_DOT_READ (R384): Returns per-nozzle dot measurements. -/
def execMrkDotRead (h : Hdr) (p : PMrkDotRead) (s : State) : Host.Outcome State Fault Refusal := packet (.mrkDotRead h p) (cmdPack h (mrkDotRead p)) s

/-- MRK_CAL_READ (R385): Returns the calibration block in force or proposed. -/
def execMrkCalRead (h : Hdr) (p : PMrkCalRead) (s : State) : Host.Outcome State Fault Refusal := packet (.mrkCalRead h p) (cmdPack h (mrkCalRead p)) s

/-- MRK_CAL_SET (R386): Puts a supplied head calibration block in force. -/
def execMrkCalSet (h : Hdr) (p : PMrkCalSet) (s : State) : Host.Outcome State Fault Refusal := packet (.mrkCalSet h p) (cmdPack h (mrkCalSet p)) s

/-- MRK_CAL_ACCEPT (R386): Puts the proposed calibration of a head in force. -/
def execMrkCalAccept (h : Hdr) (p : PMrkCalAccept) (s : State) : Host.Outcome State Fault Refusal := packet (.mrkCalAccept h p) (cmdPack h (mrkCalAccept p)) s

/-- MRK_CAL_SAVE (R612): Stores head calibrations in the user calibration store. -/
def execMrkCalSave (h : Hdr) (p : PMrkCalSave) (s : State) : Host.Outcome State Fault Refusal := packet (.mrkCalSave h p) (cmdPack h (mrkCalSave p)) s

/-- MRK_STATUS (R388): Returns a head's state, level, FIRE_HWM and counters. -/
def execMrkStatus (h : Hdr) (p : PMrkStatus) (s : State) : Host.Outcome State Fault Refusal := packet (.mrkStatus h p) (cmdPack h (mrkStatus p)) s

/-- MRK_MISS_READ (R389): Returns missed-span log entries still held. -/
def execMrkMissRead (h : Hdr) (p : PMrkMissRead) (s : State) : Host.Outcome State Fault Refusal := packet (.mrkMissRead h p) (cmdPack h (mrkMissRead p)) s

/-- MRK_COUNTERS_CLEAR (R388): Sets the marking counters to 0. -/
def execMrkCountersClear (h : Hdr) (s : State) : Host.Outcome State Fault Refusal := packet (.mrkCountersClear h) (cmdPack h mrkCountersClear) s

end Sys2Proof.Machine
end

