-- ==== Sys2Proof/Machine/ExecMedia.lean ====
section
/-! DEFINITION. Sys2Proof/Machine/ExecMedia.lean: the meanings of colour, video and Tombac. -/

namespace Sys2Proof.Machine

/-- CLP_FRAME_DONE (R404): The colour pipeline completes a frame and hands it to its heads. -/
def execClpFrameDone (t : Nat) (ctx : Nat) (poison : Bool) (s : State) : Host.Outcome State Fault Refusal := happen t (within [33] (withPoison poison (clpFrameDone ctx poison))) s

/-- LIVE_VIEW_FRAME (R419): Every 1/F the live view begins a frame of its latest lines. -/
def execLiveViewFrame (t : Nat) (ctx : Nat) (s : State) : Host.Outcome State Fault Refusal := happen t (within [33] (liveViewFrame ctx)) s

/-- ST2110_PACKET_DUE (R412): A paced ST 2110-20 packet is sent. -/
def execSt2110PacketDue (t : Nat) (sender : Nat) (s : State) : Host.Outcome State Fault Refusal := happen t (within [33] (st2110PacketDue sender)) s

/-- VCU_SLICE_DONE (R430): The codec completes a slice, writes its chunk and switches context. -/
def execVcuSliceDone (t : Nat) (ctx : Nat) (e : EncSlice) (d : DecSlice) (poison : Bool) (s : State) : Host.Outcome State Fault Refusal := happen t (within [34] (withPoison poison (vcuSliceDone ctx e d poison))) s

/-- TBC_LINE_DONE (R453): The Tombac engine completes a line and passes to the highest ready source. -/
def execTbcLineDone (t : Nat) (bad : Bool) (s : State) : Host.Outcome State Fault Refusal := happen t (within [35] (tbcLine bad)) s

end Sys2Proof.Machine
end

