-- ==== Sys2Proof/Machine/ExecMemory.lean ====
section
/-! DEFINITION. Sys2Proof/Machine/ExecMemory.lean: the meanings of the event router, DMA and DRAM. -/

namespace Sys2Proof.Machine

/-- PENDING_DELIVERY (R496): A pending event is delivered when its task input stops being busy. -/
def execPendingDelivery (t : Nat) (task : Nat) (s : State) : Host.Outcome State Fault Refusal := happen t (within [36] (pendingDelivery task)) s

/-- DMA_TRANSFER_DONE (R540): A DMA read or write request completes or fails. -/
def execDmaTransferDone (t : Nat) (c : Nat) (ok : Bool) (n : Nat) (m : DmaMoved) (s : State) : Host.Outcome State Fault Refusal :=
  happen t (within [40] (dmaTransfer c ok n m.data m.acts)) s

/-- DMA_RETRY_WAIT (R541): A retry wait expires and the failing request is reissued. -/
def execDmaRetryWait (t : Nat) (c : Nat) (s : State) : Host.Outcome State Fault Refusal := happen t (within [40] (dmaRetryWait c)) s

/-- DESCRIPTOR_COMPLETE (R542): A descriptor's last write leaves the engine and write-back, event and interrupt follow. -/
def execDescriptorComplete (t : Nat) (c : Nat) (s : State) : Host.Outcome State Fault Refusal := happen t (within [40] (descriptorComplete c)) s

/-- FENCE_DONE (R543): A fence read completes and the descriptor completes. -/
def execFenceDone (t : Nat) (c : Nat) (ok : Bool) (s : State) : Host.Outcome State Fault Refusal := happen t (within [40] (fenceDone c ok)) s

/-- PATROL_SCRUB (R521): The patrol scrub reads the next locations. -/
def execPatrolScrub (t : Nat) (es : List EccFound) (s : State) : Host.Outcome State Fault Refusal := happen t (fast (patrolScrub es)) s

/-- REFRESH_DUE (R523): A same-bank refresh interval expires. -/
def execRefreshDue (t : Nat) (c : Nat) (s : State) : Host.Outcome State Fault Refusal := happen t (fast (refreshDue c)) s

/-- DIMM_TEMP_READ (R523): Every 32 ms DIMM temperatures are read and refresh and retraining judged. -/
def execDimmTempRead (t : Nat) (c : Nat) (temps : List Int) (s : State) : Host.Outcome State Fault Refusal := happen t (fast (dimmTempRead c temps)) s

/-- SPD_HUB_TIMEOUT (R515): An SPD hub silent for 1 s fails its channel. -/
def execSpdHubTimeout (t : Nat) (c : Nat) (s : State) : Host.Outcome State Fault Refusal := happen t (fast (spdHubTimeout c)) s

/-- NEIGHBOUR_REFRESH (R524): A scheduled neighbour refresh of an activated row is issued. -/
def execNeighbourRefresh (t : Nat) (c : Nat) (s : State) : Host.Outcome State Fault Refusal := happen t (fast (neighbourRefresh c)) s

/-- DQS_DRIFT_READ (R527): Every 100 ms DQS oscillators are read and read delays adjusted. -/
def execDqsDriftRead (t : Nat) (c : Nat) (drift : Int) (s : State) : Host.Outcome State Fault Refusal := happen t (fast (dqsDriftRead c drift)) s

/-- RETRAIN_SLICE (R527): A retraining slice runs on a channel. -/
def execRetrainSlice (t : Nat) (c : Nat) (s : State) : Host.Outcome State Fault Refusal := happen t (fast (retrainSlice c)) s

/-- RETRAIN_COMPLETE (R527): A retraining completes and new delays are adopted or old ones kept. -/
def execRetrainComplete (t : Nat) (c : Nat) (qf : Nat) (temp : Nat) (s : State) : Host.Outcome State Fault Refusal := happen t (fast (retrainComplete c qf temp)) s

/-- DDR_ALERT (R515): DDR_ALERT_N reports a command/address parity error, which is retried and may fail the channel. -/
def execDdrAlert (t : Nat) (c : Nat) (addr : Nat) (persists : Bool) (s : State) : Host.Outcome State Fault Refusal := happen t (fast (ddrAlert c addr persists)) s

end Sys2Proof.Machine
end

