-- ==== Sys2Proof/Machine/ExecModels.lean ====
section
/-! DEFINITION. Sys2Proof/Machine/ExecModels.lean: the meanings of the commands of models (family 0x07). -/

namespace Sys2Proof.Machine

/-- MODEL_STAGE (R306): Reserves staging space for a model ID and length. -/
def execModelStage (h : Hdr) (p : PModelStage) (s : State) : Host.Outcome State Fault Refusal := packet (.modelStage h p) (cmdPack h (modelStage p)) s

/-- MODEL_WRITE (R306): Writes a piece of a staged package. -/
def execModelWrite (h : Hdr) (p : PModelWrite) (s : State) : Host.Outcome State Fault Refusal := packet (.modelWrite h p) (cmdPack h (modelWrite p)) s

/-- MODEL_COMMIT (R307): Checks a staged package and loads it, computing its cost. -/
def execModelCommit (h : Hdr) (p : PModelCommit) (s : State) : Host.Outcome State Fault Refusal := packet (.modelCommit h p) (cmdPack h (modelCommit p)) s

/-- MODEL_ABORT (R306): Discards a staging. -/
def execModelAbort (h : Hdr) (p : PModelAbort) (s : State) : Host.Outcome State Fault Refusal := packet (.modelAbort h p) (cmdPack h (modelAbort p)) s

/-- MODEL_UNLOAD (R314): Removes a loaded model that nothing names. -/
def execModelUnload (h : Hdr) (p : PModelUnload) (s : State) : Host.Outcome State Fault Refusal := packet (.modelUnload h p) (cmdPack h (modelUnload p)) s

/-- MODEL_SWAP (R312): Replaces a model ID in every CLASSIFY node, re-judging the budget. -/
def execModelSwap (h : Hdr) (p : PModelSwap) (s : State) : Host.Outcome State Fault Refusal := packet (.modelSwap h p) (cmdPack h (modelSwap p)) s

/-- MODEL_LIST (R315): Returns loaded and staging models. -/
def execModelList (h : Hdr) (p : PModelList) (s : State) : Host.Outcome State Fault Refusal := packet (.modelList h p) (cmdPack h (modelList p)) s

/-- MODEL_INFO (R315): Returns a model's header, cost and tiles classified. -/
def execModelInfo (h : Hdr) (p : PModelInfo) (s : State) : Host.Outcome State Fault Refusal := packet (.modelInfo h p) (cmdPack h (modelInfo p)) s

/-- MODEL_TEST (R316): Runs a model on a supplied tile on a management core. -/
def execModelTest (h : Hdr) (p : PModelTest) (s : State) : Host.Outcome State Fault Refusal := packet (.modelTest h p) (cmdPack h (modelTest p)) s

end Sys2Proof.Machine
end

