-- ==== Sys2Proof/Machine/ExecMonitor.lean ====
section
/-! DEFINITION. Sys2Proof/Machine/ExecMonitor.lean: the meanings of monitors, margins and faults. -/

namespace Sys2Proof.Machine

/-- FAULT_HOLD_EXPIRY (R641): The AON domain asserts the automatic reset after FAULT_HOLD. -/
def execFaultHoldExpiry (t : Nat) (s : State) : Host.Outcome State Fault Refusal := happen t (fast (faultHoldExpiry)) s

/-- THERMAL_SAMPLE (R639): Thermal sensors are read every 100 µs and warning and throttling judged. -/
def execThermalSample (t : Nat) (temps : List Int) (s : State) : Host.Outcome State Fault Refusal := happen t (fast (thermalSample temps)) s

/-- THROTTLE_ESCALATE (R639): A sensor 4 °C above T_throttle for 10 ms sets the divider to 4. -/
def execThrottleEscalate (t : Nat) (s : State) : Host.Outcome State Fault Refusal := happen t (fast (throttleEscalate)) s

/-- THROTTLE_RESTORE (R639): Sensors below T_throttle − 3 °C for 100 ms restore a divider stage. -/
def execThrottleRestore (t : Nat) (s : State) : Host.Outcome State Fault Refusal := happen t (fast (throttleRestore)) s

/-- AGEING_MEASURE (R622): Every 600 s ageing pairs are measured and AGE_IDX may rise. -/
def execAgeingMeasure (t : Nat) (shifts : List Nat) (s : State) : Host.Outcome State Fault Refusal := happen t (fast (ageingMeasure shifts)) s

/-- MARGIN_GUARD (R631): Every 1 ms the margin guard checks WM and raises rails or divides. -/
def execMarginGuard (t : Nat) (tmm : List Int) (s : State) : Host.Outcome State Fault Refusal := happen t (fast (marginGuard tmm)) s

/-- DROOP_EVENT (R632): A droop detector records an excursion and may raise its rail. -/
def execDroopEvent (t : Nat) (rail : Nat) (s : State) : Host.Outcome State Fault Refusal := happen t (fast (droopEvent rail)) s

/-- POWER_ESTIMATE (R624): Every 1 ms P_est is formed and the load class judged. -/
def execPowerEstimate (t : Nat) (p : Nat) (s : State) : Host.Outcome State Fault Refusal := happen t (fast (powerEstimate p)) s

/-- PLAN_FORMED (R630): The margin planner finishes a plan and applies or holds it. -/
def execPlanFormed (t : Nat) (f : PlanScan) (s : State) : Host.Outcome State Fault Refusal := happen t (fast (planFormed f)) s

/-- AVS_COMMAND (R629): The next AVSBus setpoint command to a rail completes and is read back. -/
def execAvsCommand (t : Nat) (ok : Bool) (s : State) : Host.Outcome State Fault Refusal := happen t (fast (avsCommand ok)) s

/-- TELEMETRY_POLL (R634): Every 10 ms regulators are read over PMBus. -/
def execTelemetryPoll (t : Nat) (r : List (Nat × Nat × Int × Nat)) (s : State) : Host.Outcome State Fault Refusal := happen t (fast (telemetryRead r)) s

/-- PMB_ALERT (R634): PMB_ALERT_N asserts and the regulators are read at once. -/
def execPmbAlert (t : Nat) (r : List (Nat × Nat × Int × Nat)) (s : State) : Host.Outcome State Fault Refusal := happen t (fast (telemetryRead r)) s

/-- SENSOR_CROSS_CHECK (R637): Every 60 s sensors are cross-checked and a bad one marked. -/
def execSensorCrossCheck (t : Nat) (s : State) : Host.Outcome State Fault Refusal := happen t (fast (sensorCrossCheck)) s

/-- THERMAL_TRIP (R640): A trip comparator trips and asserts the THERM_TRIP reset source. -/
def execThermalTrip (t : Nat) (s : State) : Host.Outcome State Fault Refusal := happen t thermalTrip s

/-- THERMAL_TRIP_END (R640): All comparators below 95 °C for 10 ms release the trip source. -/
def execThermalTripEnd (t : Nat) (s : State) : Host.Outcome State Fault Refusal := happen t thermalTripEnd s

/-- DIAG_RESET_ASSERT (R652): 10 ms after a DIAG_RESET reply the requested Block, System or Chip reset is asserted. -/
def execDiagResetAssert (t : Nat) (s : State) : Host.Outcome State Fault Refusal := happen t (fast (diagResetAssert)) s

end Sys2Proof.Machine
end

