-- ==== Sys2Proof/Machine/ExecMotion.lean ====
section
/-! DEFINITION. Sys2Proof/Machine/ExecMotion.lean: the meanings of encoders, line triggers, compare channels, latches and time. -/

namespace Sys2Proof.Machine

/-- ENCODER_EDGE (R208): An accepted quadrature transition moves the axis count. -/
def execEncoderEdge (t : Nat) (axis : Nat) (a : Bool) (b : Bool) (s : State) : Host.Outcome State Fault Refusal := happen t (within [38] (encoderEdge' axis a b)) s

/-- Z_EDGE (R209): A rising Z edge is checked against N_z and may set an origin or latch; a falling one may capture a latch (R229). -/
def execZEdge (t : Nat) (z : ZChange) (s : State) : Host.Outcome State Fault Refusal := happen t (within [38] (zEdge z.axis z.rising)) s

/-- SERIAL_SAMPLE (R210): The sample period expires and a serial frame is read. -/
def execSerialSample (t : Nat) (axis : Nat) (s : State) : Host.Outcome State Fault Refusal := happen t (within [38] (serialSample axis)) s

/-- SERIAL_FRAME (R211): A serial frame completes and is accepted or discarded. -/
def execSerialFrame (t : Nat) (axis : Nat) (f : SerialFrame) (s : State) : Host.Outcome State Fault Refusal := happen t (within [38] (serialFrame' axis f)) s

/-- AXIS_FAULT_EXIT (R208): An axis in FAULT runs 10 ms without error and restarts with origin unset. -/
def execAxisFaultExit (t : Nat) (axis : Nat) (s : State) : Host.Outcome State Fault Refusal := happen t (within [38] (axisFaultExit axis)) s

/-- OBSERVER_UPDATE (R215): The tracking observer updates at 1 MHz. -/
def execObserverUpdate (t : Nat) (axis : Nat) (s : State) : Host.Outcome State Fault Refusal := happen t (within [38] (observerUpdate axis)) s

/-- MOTION_STOP (R218): An axis's count has stayed within START_DIST over STOP_TIME. -/
def execMotionStop (t : Nat) (axis : Nat) (s : State) : Host.Outcome State Fault Refusal := happen t (within [38] (motionStopEv axis)) s

/-- TICK (R219): The interpolated position reaches a generator boundary and triggers are sent. -/
def execTick (t : Nat) (gen : Nat) (n : Int) (fwd : Bool) (s : State) : Host.Outcome State Fault Refusal := happen t (within [38] (tickEff gen n fwd)) s

/-- EXPOSURE_LATCH (R222): At t_tick + E the position and time of the line are latched. -/
def execExposureLatch (t : Nat) (gen : Nat) (s : State) : Host.Outcome State Fault Refusal := happen t (within [38] (exposureLatch gen)) s

/-- MATCH (R226): An axis crosses a compare entry and the channel applies its action. -/
def execMatch (t : Nat) (ch : Nat) (k : Nat) (fwd : Bool) (s : State) : Host.Outcome State Fault Refusal := happen t (within [38] (matchEvEff ch k fwd)) s

/-- CMP_PULSE_END (R226): A compare channel's pulse timer ends. -/
def execCmpPulseEnd (t : Nat) (ch : Nat) (s : State) : Host.Outcome State Fault Refusal := happen t (within [38] (cmpPulseEnd ch)) s

/-- LATCH_INPUT_EDGE (R229): An edge on a PLAT ball captures its latch. -/
def execLatchInputEdge (t : Nat) (latch : Nat) (rising : Bool) (s : State) : Host.Outcome State Fault Refusal := happen t (within [38] (latchInputEdge latch rising)) s

/-- PTP_MESSAGE (R237): A PTP message arrives, is stamped and may yield an offset measurement. -/
def execPtpMessage (t : Nat) (m : PtpMsg) (s : State) : Host.Outcome State Fault Refusal := happen t (within [37] (ptpMessage m)) s

/-- PTP_TX_DUE (R237): A PTP message interval expires and the port sends its message. -/
def execPtpTxDue (t : Nat) (kind : Nat) (s : State) : Host.Outcome State Fault Refusal := happen t (within [37] (ptpTxDue kind)) s

/-- PPS_IN_EDGE (R240): A PPS_IN edge steps the counter once or supplies an offset measurement. -/
def execPpsInEdge (t : Nat) (s : State) : Host.Outcome State Fault Refusal := happen t (within [37] (ppsInEdge)) s

/-- SOURCE_LOSS (R236): No valid source for 3 s or PPS for 1.5 s puts the unit in HOLDOVER. -/
def execSourceLoss (t : Nat) (s : State) : Host.Outcome State Fault Refusal := happen t (within [37] (sourceLoss)) s

/-- PPS_OUT_EDGE (R241): PPS_OUT rises at each second plus offset and falls after its width. -/
def execPpsOutEdge (t : Nat) (rise : Bool) (s : State) : Host.Outcome State Fault Refusal := happen t (within [37] (ppsOutEdge rise)) s

/-- FIRE (R242): A time trigger fires at its time and may drive a pulse. -/
def execFire (t : Nat) (k : Nat) (s : State) : Host.Outcome State Fault Refusal := happen t (within [37] (ttrDue k)) s

/-- TIO_CAPTURE (R244): An edge on a TIO input is captured in TCP's FIFO. -/
def execTioCapture (t : Nat) (k : Nat) (rising : Bool) (s : State) : Host.Outcome State Fault Refusal := happen t (within [37] (tioCapture k rising)) s

/-- TIO_PULSE_END (R242): A time trigger's output pulse on TIO[k] ends and the ball returns low. -/
def execTioPulseEnd (t : Nat) (k : Nat) (s : State) : Host.Outcome State Fault Refusal := happen t (within [37] (tioPulseEnd k)) s

end Sys2Proof.Machine
end

