-- ==== Sys2Proof/Machine/ExecPorts.lean ====
section
/-! DEFINITION. Sys2Proof/Machine/ExecPorts.lean: the meanings of the commands of camera ports (family 0x02). -/

namespace Sys2Proof.Machine

/-- PORT_OPEN (R164): Opens a camera port with kind, rate, FEC and lane count, closing it first if it was UP. -/
def execPortOpen (h : Hdr) (p : PPortOpen) (s : State) : Host.Outcome State Fault Refusal := packet (.portOpen h p) (cmdPack h (portOpen p)) s

/-- PORT_CLOSE (R686): Closes a port and removes its streams. -/
def execPortClose (h : Hdr) (p : PPortClose) (s : State) : Host.Outcome State Fault Refusal := packet (.portClose h p) (cmdPack h (portClose p)) s

/-- STREAM_SET (R133): Sets a stream's width, format and trigger source, clamping to the port's width limit. -/
def execStreamSet (h : Hdr) (p : PStreamSet) (s : State) : Host.Outcome State Fault Refusal := packet (.streamSet h p) (cmdPack h (streamSet p)) s

/-- PORT_PROBE (R149): Brings a port up at rate 1 without FEC and reads the head's identity registers. -/
def execPortProbe (h : Hdr) (p : PPortProbe) (s : State) : Host.Outcome State Fault Refusal := packet (.portProbe h p) (cmdPack h (portProbe p)) s

/-- PORT_STATUS (R164): Returns a port's link and lane state, eyes, D and E. -/
def execPortStatus (h : Hdr) (p : PPortStatus) (s : State) : Host.Outcome State Fault Refusal := packet (.portStatus h p) (cmdPack h (portStatus p)) s

/-- PORT_COUNTERS (R164): Returns a port's counters. -/
def execPortCounters (h : Hdr) (p : PPortCounters) (s : State) : Host.Outcome State Fault Refusal := packet (.portCounters h p) (cmdPack h (portCounters p)) s

/-- PORT_COUNTERS_CLEAR (R164): Sets a port's counters to 0. -/
def execPortCountersClear (h : Hdr) (p : PPortCountersClear) (s : State) : Host.Outcome State Fault Refusal := packet (.portCountersClear h p) (cmdPack h (portCountersClear p)) s

/-- LANE_POWER (R147): Sets a port's lane power mode and AUTO times. -/
def execLanePower (h : Hdr) (p : PLanePower) (s : State) : Host.Outcome State Fault Refusal := packet (.lanePower h p) (cmdPack h (lanePower p)) s

/-- HEAD_REG_WRITE (R138): Writes a head register over the back-channel and replies with the echoed data. -/
def execHeadRegWrite (h : Hdr) (p : PHeadRegWrite) (s : State) : Host.Outcome State Fault Refusal := packet (.headRegWrite h p) (cmdPack h (headRegWrite p)) s

/-- HEAD_REG_READ (R138): Reads a head register over the back-channel. -/
def execHeadRegRead (h : Hdr) (p : PHeadRegRead) (s : State) : Host.Outcome State Fault Refusal := packet (.headRegRead h p) (cmdPack h (headRegRead p)) s

/-- CAL_RUN (R155): Requests recalibration of named lanes of a port. -/
def execCalRun (h : Hdr) (p : PCalRun) (s : State) : Host.Outcome State Fault Refusal := packet (.calRun h p) (cmdPack h (calRun p)) s

/-- CAL_POLICY (R155): Sets TDELTA, recalibration period and QF threshold. -/
def execCalPolicy (h : Hdr) (p : PCalPolicy) (s : State) : Host.Outcome State Fault Refusal := packet (.calPolicy h p) (cmdPack h (calPolicy p)) s

/-- EYE_SCAN (R165): Starts an eye scan of a lane or returns points of the last scan. -/
def execEyeScan (h : Hdr) (p : PEyeScan) (s : State) : Host.Outcome State Fault Refusal := packet (.eyeScan h p) (cmdPack h (eyeScan p)) s

/-- LATENCY_MEASURE (R684): Runs 16 echo round trips and adopts a new D when it fits E. -/
def execLatencyMeasure (h : Hdr) (p : PLatencyMeasure) (s : State) : Host.Outcome State Fault Refusal := packet (.latencyMeasure h p) (cmdPack h (latencyMeasure p)) s

/-- LATENCY_TRIM (R167): Sets a port's latency trim, clamped so D stays within E while running. -/
def execLatencyTrim (h : Hdr) (p : PLatencyTrim) (s : State) : Host.Outcome State Fault Refusal := packet (.latencyTrim h p) (cmdPack h (latencyTrim p)) s

/-- EXPOSURE_DELAY (R142): Sets the exposure delay E. -/
def execExposureDelay (h : Hdr) (p : PExposureDelay) (s : State) : Host.Outcome State Fault Refusal := packet (.exposureDelay h p) (cmdPack h (exposureDelay p)) s

end Sys2Proof.Machine
end

