-- ==== Sys2Proof/Machine/ExecPosition.lean ====
section
/-! DEFINITION. Sys2Proof/Machine/ExecPosition.lean: the meanings of the commands of position (family 0x04). -/

namespace Sys2Proof.Machine

/-- ENC_CONFIG (R688): Configures an encoder axis and starts, restarts or stops it. -/
def execEncConfig (h : Hdr) (p : PEncConfig) (s : State) : Host.Outcome State Fault Refusal := packet (.encConfig h p) (cmdPack h (encConfig p)) s

/-- OBSERVER_SET (R215): Sets an axis's observer bandwidth, hysteresis and motion thresholds. -/
def execObserverSet (h : Hdr) (p : PObserverSet) (s : State) : Host.Outcome State Fault Refusal := packet (.observerSet h p) (cmdPack h (observerSet p)) s

/-- POS_ORIGIN (R223): Sets an axis's MD origin now, at the next Z edge or at a latch capture. -/
def execPosOrigin (h : Hdr) (p : PPosOrigin) (s : State) : Host.Outcome State Fault Refusal := packet (.posOrigin h p) (cmdPack h (posOrigin p)) s

/-- LTG_CONFIG (R220): Configures a line-trigger generator and makes it forget fired boundaries. -/
def execLtgConfig (h : Hdr) (p : PLtgConfig) (s : State) : Host.Outcome State Fault Refusal := packet (.ltgConfig h p) (cmdPack h (ltgConfig p)) s

/-- LTG_ENABLE (R220): Enables or disables a line-trigger generator. -/
def execLtgEnable (h : Hdr) (p : PLtgEnable) (s : State) : Host.Outcome State Fault Refusal := packet (.ltgEnable h p) (cmdPack h (ltgEnable p)) s

/-- CMP_CONFIG (R227): Configures a compare channel in list or periodic mode. -/
def execCmpConfig (h : Hdr) (p : PCmpConfig) (s : State) : Host.Outcome State Fault Refusal := packet (.cmpConfig h p) (cmdPack h (cmpConfig p)) s

/-- CMP_LIST_LOAD (R225): Loads compare entries for a disabled channel. -/
def execCmpListLoad (h : Hdr) (p : PCmpListLoad) (s : State) : Host.Outcome State Fault Refusal := packet (.cmpListLoad h p) (cmdPack h (cmpListLoad p)) s

/-- CMP_ENABLE (R228): Enables or disables a compare channel, driving its output low on disable. -/
def execCmpEnable (h : Hdr) (p : PCmpEnable) (s : State) : Host.Outcome State Fault Refusal := packet (.cmpEnable h p) (cmdPack h (cmpEnable p)) s

/-- LATCH_CONFIG (R229): Sets a latch's axis, source and edge. -/
def execLatchConfig (h : Hdr) (p : PLatchConfig) (s : State) : Host.Outcome State Fault Refusal := packet (.latchConfig h p) (cmdPack h (latchConfig p)) s

/-- LATCH_READ (R230): Empties captures from a latch FIFO. -/
def execLatchRead (h : Hdr) (p : PLatchRead) (s : State) : Host.Outcome State Fault Refusal := packet (.latchRead h p) (cmdPack h (latchRead p)) s

/-- POS_STATUS (R250): Returns an axis's count, MD, speed, acceleration, state and counters. -/
def execPosStatus (h : Hdr) (p : PPosStatus) (s : State) : Host.Outcome State Fault Refusal := packet (.posStatus h p) (cmdPack h (posStatus p)) s

/-- POS_COUNTERS_CLEAR (R250): Sets the position counters to 0. -/
def execPosCountersClear (h : Hdr) (s : State) : Host.Outcome State Fault Refusal := packet (.posCountersClear h) (cmdPack h posCountersClear) s

end Sys2Proof.Machine
end

