-- ==== Sys2Proof/Machine/ExecRegs.lean ====
section
/-! DEFINITION. Sys2Proof/Machine/ExecRegs.lean: the meanings of register writes of the host through BAR0. -/

namespace Sys2Proof.Machine

/-- REGISTER_WRITE (R23): A BAR0 write to a register without behaviour of its own sets, clears or ignores fields by access type. -/
def execRegisterWrite (t : Nat) (link : Nat) (addr : Nat) (value : Nat) (s : State) : Host.Outcome State Fault Refusal := happen t (hostWrite link addr value) s

/-- OWN_CLAIM_GO (R104): Submits a CLAIM on behalf of a session through OWN_CLAIM. -/
def execOwnClaimGo (t : Nat) (link : Nat) (value : Nat) (s : State) : Host.Outcome State Fault Refusal := happen t (hostWrite link (devBase + 0x14) (value % 2048 + 2 ^ 31)) s

/-- HQ_SUBMIT_TAIL_WRITE (R62): Host doorbell that lets the device fetch submission entries of a pair. -/
def execHqSubmitTailWrite (t : Nat) (via : Nat) (link : Nat) (pair : Nat) (value : Nat) (s : State) : Host.Outcome State Fault Refusal := happen t (hostWrite via (devBase + 0x1100 + link * 0x1000 + pair * 8) value) s

/-- HQ_DONE_HEAD_WRITE (R62): Host releases completion slots of a pair. -/
def execHqDoneHeadWrite (t : Nat) (via : Nat) (link : Nat) (pair : Nat) (value : Nat) (s : State) : Host.Outcome State Fault Refusal := happen t (hostWrite via (devBase + 0x1104 + link * 0x1000 + pair * 8) value) s

/-- HQ_ADMIN_SIZE_WRITE (R109): Sets or disables pair 0's ring size, restarting the pair. -/
def execHqAdminSizeWrite (t : Nat) (via : Nat) (link : Nat) (value : Nat) (s : State) : Host.Outcome State Fault Refusal := happen t (hostWrite via (devBase + 0x1008 + link * 0x1000) value) s

/-- CNT_CLEAR (R162): Sets every counter of a camera port to 0. -/
def execCntClear (t : Nat) (port : Nat) (value : Nat) (s : State) : Host.Outcome State Fault Refusal := happen t (hostWrite 0 (cptBase port + 0x80) value) s

/-- FEP_CNT_CLEAR (R203): Sets every front-end counter to 0. -/
def execFepCntClear (t : Nat) (value : Nat) (s : State) : Host.Outcome State Fault Refusal := happen t (hostWrite 0 (fepBase + 0x80) value) s

/-- ELX_CNT_CLEAR (R287): Sets every ELX and LMU counter to 0. -/
def execElxCntClear (t : Nat) (value : Nat) (s : State) : Host.Outcome State Fault Refusal := happen t (hostWrite 0 (elxBase + 0x80) value) s

/-- MRK_CNT_CLEAR (R387): Sets every marking counter to 0. -/
def execMrkCntClear (t : Nat) (value : Nat) (s : State) : Host.Outcome State Fault Refusal := happen t (hostWrite 0 (mrkBase + 0x80) value) s

/-- CLP_CNT_CLEAR (R420): Sets every colour pipeline counter to 0. -/
def execClpCntClear (t : Nat) (value : Nat) (s : State) : Host.Outcome State Fault Refusal := happen t (hostWrite 0 (clpBase + 0x80) value) s

/-- VCU_CNT_CLEAR (R449): Sets every HEVC counter to 0. -/
def execVcuCntClear (t : Nat) (value : Nat) (s : State) : Host.Outcome State Fault Refusal := happen t (hostWrite 0 (vcuBase + 0x80) value) s

/-- TBC_CNT_CLEAR (R486): Sets every Tombac counter to 0. -/
def execTbcCntClear (t : Nat) (value : Nat) (s : State) : Host.Outcome State Fault Refusal := happen t (hostWrite 0 (tbcBase + 0x80) value) s

/-- EVR_CNT_CLEAR (R503): Sets every event router counter to 0. -/
def execEvrCntClear (t : Nat) (value : Nat) (s : State) : Host.Outcome State Fault Refusal := happen t (hostWrite 0 (evrBase + 0x80) value) s

/-- DMA_CNT_CLEAR (R548): Sets every DMA counter to 0. -/
def execDmaCntClear (t : Nat) (value : Nat) (s : State) : Host.Outcome State Fault Refusal := happen t (hostWrite 0 (dmaBase + 0x80) value) s

/-- DMC_CNT_CLEAR (R547): Sets every DRAM controller counter to 0. -/
def execDmcCntClear (t : Nat) (value : Nat) (s : State) : Host.Outcome State Fault Refusal := happen t (hostWrite 0 (dmcBase + 0x80) value) s

/-- RCP_CNT_CLEAR (R587): Sets every RCP counter to 0. -/
def execRcpCntClear (t : Nat) (value : Nat) (s : State) : Host.Outcome State Fault Refusal := happen t (hostWrite 0 (rcpBase + 0x80) value) s

/-- MON_CNT_CLEAR (R649): Sets every monitor counter to 0. -/
def execMonCntClear (t : Nat) (value : Nat) (s : State) : Host.Outcome State Fault Refusal := happen t (hostWrite 0 (monBase + 0x80) value) s

/-- NVS_CNT_CLEAR (R617): Sets NVS_WRITES to 0. -/
def execNvsCntClear (t : Nat) (value : Nat) (s : State) : Host.Outcome State Fault Refusal := happen t (hostWrite 0 (nvsBase + 0x80) value) s

/-- TMU_SNAP_GO (R247): Starts latching the TMU time into a link's snapshot. -/
def execTmuSnapGo (t : Nat) (link : Nat) (via : Nat) (s : State) : Host.Outcome State Fault Refusal := happen t (hostWrite via (tmuBase + 0x1000 + link * 0x100) 1) s

/-- TMU_SNAP_COMPLETE (R247): The TMU snapshot completes and VALID is set. -/
def execTmuSnapComplete (t : Nat) (link : Nat) (s : State) : Host.Outcome State Fault Refusal := happen t (within [37] (tmuSnapComplete link)) s

/-- POS_SNAP_GO (R248): Latches all four axes and the TMU time in one SYS cycle. -/
def execPosSnapGo (t : Nat) (link : Nat) (via : Nat) (s : State) : Host.Outcome State Fault Refusal := happen t (hostWrite via (posBase + 0x1000 + link * 0x100) 1) s

/-- RES_MIR_HEAD_WRITE (R332): Host releases mirrored result slots, moving the reader index. -/
def execResMirHeadWrite (t : Nat) (link : Nat) (queue : Nat) (value : Nat) (via : Nat) (s : State) : Host.Outcome State Fault Refusal := happen t (hostWrite via (resBase + 0x1100 + link * 0x1000 + queue * 8) value) s

/-- CLP_HOST_HEAD_WRITE (R415): Host releases slots of a colour head's host ring. -/
def execClpHostHeadWrite (t : Nat) (head : Nat) (value : Nat) (via : Nat) (s : State) : Host.Outcome State Fault Refusal := happen t (hostWrite via (clpBase + 0x400 + head * 0x10) value) s

/-- VCU_HOST_HEAD_WRITE (R443): Host releases room or slots of an HEVC host ring. -/
def execVcuHostHeadWrite (t : Nat) (link : Nat) (ctx : Nat) (value : Nat) (via : Nat) (s : State) : Host.Outcome State Fault Refusal := happen t (hostWrite via (vcuBase + 0x1100 + link * 0x1000 + ctx * 8) value) s

/-- TBC_HOST_HEAD_WRITE (R473): Host releases room of a Tombac head host ring. -/
def execTbcHostHeadWrite (t : Nat) (link : Nat) (head : Nat) (value : Nat) (via : Nat) (s : State) : Host.Outcome State Fault Refusal := happen t (hostWrite via (tbcBase + 0x1100 + link * 0x1000 + head * 8) value) s

/-- EVR_SW_FIRE (R502): Publishes a software event on a channel by register write. -/
def execEvrSwFire (t : Nat) (value : Nat) (s : State) : Host.Outcome State Fault Refusal := happen t (hostWrite 0 (evrBase + 0x08) value) s

/-- DMA_DOORBELL (R538): Starts a DMA channel by register write. -/
def execDmaDoorbell (t : Nat) (value : Nat) (s : State) : Host.Outcome State Fault Refusal := happen t (hostWrite 0 (dmaBase + 0x14) value) s

/-- SW_BLOCK_RESET (R561): RCP_SW_RESET with reach Block asserts a Block reset of a wrapper. -/
def execSwBlockReset (t : Nat) (value : Nat) (s : State) : Host.Outcome State Fault Refusal := happen t (resetRow 0 value) s

/-- SW_SYSTEM_RESET (R561): RCP_SW_RESET with reach System asserts a System reset, keeping DRAM if asked. -/
def execSwSystemReset (t : Nat) (value : Nat) (s : State) : Host.Outcome State Fault Refusal := happen t (resetRow 1 value) s

/-- SW_CHIP_RESET (R561): RCP_SW_RESET with reach Chip asserts a Chip reset. -/
def execSwChipReset (t : Nat) (value : Nat) (s : State) : Host.Outcome State Fault Refusal := happen t (resetRow 2 value) s

end Sys2Proof.Machine
end

