-- ==== Sys2Proof/Machine/ExecReset.lean ====
section
/-! DEFINITION. Sys2Proof/Machine/ExecReset.lean: the meanings of resets, clocks, power and wrappers. -/

namespace Sys2Proof.Machine

/-- VBAT_POWER_ON (R561): The backup domain powers on; a Full reset. -/
def execVbatPowerOn (t : Nat) (s : State) : Host.Outcome State Fault Refusal := happen t vbatPowerOn s

/-- MAIN_POWER_ON (R669): The supervisor asserts and releases the main power-on source. -/
def execMainPowerOn (t : Nat) (on : Bool) (s : State) : Host.Outcome State Fault Refusal := happen t (mainPowerOn on) s

/-- BROWNOUT (R669): A supervised rail below threshold for 1 µs asserts a Chip reset. -/
def execBrownout (t : Nat) (on : Bool) (s : State) : Host.Outcome State Fault Refusal := happen t (brownout on) s

/-- BACKUP_SWITCHOVER (R666): The backup domain switches between VDD_AON and VBAT. -/
def execBackupSwitchover (t : Nat) (on : Bool) (s : State) : Host.Outcome State Fault Refusal := happen t (backupSwitch on) s

/-- RST_N (R561): RST_N low asserts a Chip reset source. -/
def execRstN (t : Nat) (low : Bool) (s : State) : Host.Outcome State Fault Refusal := happen t (rstPin low) s

/-- WATCHDOG_EXPIRY (R563): The management watchdog expires and asserts a System or Chip reset. -/
def execWatchdogExpiry (t : Nat) (s : State) : Host.Outcome State Fault Refusal := happen t watchdogExpiry s

/-- PCIE_RESET (R562): PCIe hot reset, link down or PERST_N resets the link function or the device. -/
def execPcieReset (t : Nat) (l : Nat) (on : Bool) (s : State) : Host.Outcome State Fault Refusal := happen t (pcieReset l on) s

/-- DEBUG_RESET (R561): The test and debug port asserts or releases a reset. -/
def execDebugReset (t : Nat) (reach : Nat) (wrapper : Nat) (keep : Bool) (on : Bool) (s : State) : Host.Outcome State Fault Refusal := happen t (debugReset reach wrapper keep on) s

/-- FORCED_RELEASE (R580): The debug port forces a release before clocks are good, keeping wrappers closed. -/
def execForcedRelease (t : Nat) (s : State) : Host.Outcome State Fault Refusal := happen t forcedRelease s

/-- REF_LOST (R644): REF loss is detected and a Chip reset held with heads forced off. -/
def execRefLost (t : Nat) (s : State) : Host.Outcome State Fault Refusal := happen t refLost s

/-- PLL_UNLOCK (R559): A PLL loses lock and the reset of its row in R559 follows. -/
def execPllUnlock (t : Nat) (d : Nat) (s : State) : Host.Outcome State Fault Refusal := happen t (pllUnlock d) s

/-- CLOCK_MONITOR_BAD (R559): A domain monitor reports a cycle that is not good. -/
def execClockMonitorBad (t : Nat) (d : Nat) (s : State) : Host.Outcome State Fault Refusal := happen t (clockMonitorBad d) s

/-- CLOCK_MONITOR_GOOD (R557): A domain monitor reports its clock good after 64 good cycles. -/
def execClockMonitorGood (t : Nat) (d : Nat) (s : State) : Host.Outcome State Fault Refusal := happen t (clockMonitorGood d) s

/-- FORWARDED_CLOCK_LOSS (R553): A port's forwarded clock is lost and its domain moves to the substitute. -/
def execForwardedClockLoss (t : Nat) (port : Nat) (s : State) : Host.Outcome State Fault Refusal := happen t (forwardedClockLoss port) s

/-- XTAL_QUALIFY (R556): The crystal shows 64 good cycles and AON moves to it. -/
def execXtalQualify (t : Nat) (s : State) : Host.Outcome State Fault Refusal := happen t xtalQualify s

/-- XTAL_FAIL (R558): The crystal fails or does not qualify and AON runs on the RC. -/
def execXtalFail (t : Nat) (s : State) : Host.Outcome State Fault Refusal := happen t xtalFail s

/-- DEFERRAL_END (R570): The flash reports ready, the eFuse pulse ends or 5 ms pass, and reset entry continues. -/
def execDeferralEnd (t : Nat) (s : State) : Host.Outcome State Fault Refusal := happen t deferralEnd s

/-- RESET_RELEASE (R575): Every overlapping source is released and the release sequence of the widest reach runs. -/
def execResetRelease (t : Nat) (s : State) : Host.Outcome State Fault Refusal := happen t resetRelease s

/-- BLOCK_RESET (R584): A wrapper isolates its block and holds it in reset. -/
def execBlockReset (t : Nat) (w : Nat) (s : State) : Host.Outcome State Fault Refusal := happen t (blockResetRow w) s

/-- BLOCK_RELEASE (R578): A Block reset is released and the block restores its configuration. -/
def execBlockRelease (t : Nat) (w : Nat) (s : State) : Host.Outcome State Fault Refusal := happen t (blockRelease w) s

/-- WRAPPER_OPEN (R578): The block's restore completes and its wrapper opens. -/
def execWrapperOpen (t : Nat) (w : Nat) (s : State) : Host.Outcome State Fault Refusal := happen t (wrapperOpen w) s

/-- SLEEP_WAKE (R49): A wake cause ends SLEEP and the device returns to STANDBY. -/
def execSleepWake (t : Nat) (s : State) : Host.Outcome State Fault Refusal := happen t wakeUp s

end Sys2Proof.Machine
end

