-- ==== Sys2Proof/Machine/ExecResults.lean ====
section
/-! DEFINITION. Sys2Proof/Machine/ExecResults.lean: the meanings of the commands of results and tiles (family 0x08). -/

namespace Sys2Proof.Machine

/-- RESULT_QUEUE_CONFIG (R322): Sets a result queue's size, policy and extra feature, emptying it. -/
def execResultQueueConfig (h : Hdr) (p : PResultQueueConfig) (s : State) : Host.Outcome State Fault Refusal := packet (.resultQueueConfig h p) (cmdPack h (resultQueueConfig p)) s

/-- TILE_POOL_CONFIG (R334): Sets the tile pool size, reusing every tile. -/
def execTilePoolConfig (h : Hdr) (p : PTilePoolConfig) (s : State) : Host.Outcome State Fault Refusal := packet (.tilePoolConfig h p) (cmdPack h (tilePoolConfig p)) s

/-- RESULT_SUBSCRIBE (R327): Creates a subscription to a queue in PULL, PUSH_HOST or PUSH_UDP mode. -/
def execResultSubscribe (h : Hdr) (p : PResultSubscribe) (s : State) : Host.Outcome State Fault Refusal := packet (.resultSubscribe h p) (cmdPack h (resultSubscribe p)) s

/-- RESULT_UNSUBSCRIBE (R327): Ends the session's subscription to a queue. -/
def execResultUnsubscribe (h : Hdr) (p : PResultUnsubscribe) (s : State) : Host.Outcome State Fault Refusal := packet (.resultUnsubscribe h p) (cmdPack h (resultUnsubscribe p)) s

/-- RESULT_READ (R329): Returns record slots from max(r, O) without moving anything. -/
def execResultRead (h : Hdr) (p : PResultRead) (s : State) : Host.Outcome State Fault Refusal := packet (.resultRead h p) (cmdPack h (resultRead p)) s

/-- RESULT_ADVANCE (R330): Moves a subscription's reader index forward. -/
def execResultAdvance (h : Hdr) (p : PResultAdvance) (s : State) : Host.Outcome State Fault Refusal := packet (.resultAdvance h p) (cmdPack h (resultAdvance p)) s

/-- RESULT_STATUS (R340): Returns a queue's state and the caller's reader figures. -/
def execResultStatus (h : Hdr) (p : PResultStatus) (s : State) : Host.Outcome State Fault Refusal := packet (.resultStatus h p) (cmdPack h (resultStatus p)) s

/-- TILE_INFO (R336): Returns a tile's header or refuses a stale handle. -/
def execTileInfo (h : Hdr) (p : PTileInfo) (s : State) : Host.Outcome State Fault Refusal := packet (.tileInfo h p) (cmdPack h (tileInfo p)) s

/-- TILE_FETCH (R336): Returns bytes of a tile, refusing if it was reused before the read ended. -/
def execTileFetch (h : Hdr) (p : PTileFetch) (s : State) : Host.Outcome State Fault Refusal := packet (.tileFetch h p) (cmdPack h (tileFetch p)) s

/-- RES_COUNTERS_CLEAR (R340): Sets written, LOST and OUTCOME_DROP of every queue to 0. -/
def execResCountersClear (h : Hdr) (s : State) : Host.Outcome State Fault Refusal := packet (.resCountersClear h) (cmdPack h resCountersClear) s

end Sys2Proof.Machine
end

