-- ==== Sys2Proof/Machine/ExecSession.lean ====
section
/-! DEFINITION. Sys2Proof/Machine/ExecSession.lean: the meanings of the commands of sessions, ownership and queue pairs (family 0x00). -/

namespace Sys2Proof.Machine

/-- SESSION_OPEN (R96): Opens a session with the lowest free ID, or re-sends the kept reply for a repeated TAG from the same source. -/
def execSessionOpen (h : Hdr) (p : PSessionOpen) (s : State) : Host.Outcome State Fault Refusal := packet (.sessionOpen h p) (cmdPack h (sessionOpen p)) s

/-- SESSION_CLOSE (R97): Closes the sending session, ending its subscriptions and vacating ownership if it owned the device. -/
def execSessionClose (h : Hdr) (s : State) : Host.Outcome State Fault Refusal := packet (.sessionClose h) (cmdPack h sessionClose) s

/-- HEARTBEAT (R97): Keeps the session open and returns the owner and the lease left. -/
def execHeartbeat (h : Hdr) (s : State) : Host.Outcome State Fault Refusal := packet (.heartbeat h) (cmdPack h heartbeat) s

/-- CLAIM (R99): Takes or renews ownership with a lease, or is refused with the owner and the remaining lease. -/
def execClaim (h : Hdr) (p : PClaim) (s : State) : Host.Outcome State Fault Refusal := packet (.claim h p) (cmdPack h (claim p)) s

/-- RELEASE (R102): The owner gives up ownership, which becomes vacant. -/
def execRelease (h : Hdr) (s : State) : Host.Outcome State Fault Refusal := packet (.release h) (cmdPack h release) s

/-- TRANSFER (R102): Moves ownership to a named open session with a fresh lease. -/
def execTransfer (h : Hdr) (p : PTransfer) (s : State) : Host.Outcome State Fault Refusal := packet (.transfer h p) (cmdPack h (transferCmd p)) s

/-- OWNER_QUERY (R111): Returns the owner ID and the lease left. -/
def execOwnerQuery (h : Hdr) (s : State) : Host.Outcome State Fault Refusal := packet (.ownerQuery h) (cmdPack h ownerQuery) s

/-- SESSION_LIST (R681): Returns open sessions from a first ID in rising order. -/
def execSessionList (h : Hdr) (p : PSessionList) (s : State) : Host.Outcome State Fault Refusal := packet (.sessionList h p) (cmdPack h (sessionList p)) s

/-- QUEUE_CREATE (R111): Creates PCIe queue pair 1 to 63 on a host link with its rings and notification area. -/
def execQueueCreate (h : Hdr) (p : PQueueCreate) (s : State) : Host.Outcome State Fault Refusal := packet (.queueCreate h p) (cmdPack h (queueCreate p)) s

/-- QUEUE_DELETE (R111): Deletes a queue pair after writing its pending completions. -/
def execQueueDelete (h : Hdr) (p : PQueueDelete) (s : State) : Host.Outcome State Fault Refusal := packet (.queueDelete h p) (cmdPack h (queueDelete p)) s

/-- IDENTIFY (R111): Returns identity, stepping and firmware versions. -/
def execIdentify (h : Hdr) (s : State) : Host.Outcome State Fault Refusal := packet (.identify h) (cmdPack h identify) s

/-- NOTIFY_SUBSCRIBE (R105): Replaces the session's notification mask and returns the previous one. -/
def execNotifySubscribe (h : Hdr) (p : PNotifySubscribe) (s : State) : Host.Outcome State Fault Refusal := packet (.notifySubscribe h p) (cmdPack h (notifySubscribe p)) s

end Sys2Proof.Machine
end

