-- ==== Sys2Proof/Machine/ExecState.lean ====
section
/-! DEFINITION. Sys2Proof/Machine/ExecState.lean: the meanings of the commands of state and configuration sets (family 0x01). -/

namespace Sys2Proof.Machine

/-- STATE_QUERY (R111): Returns DEV_STATE and the count of queued commands. -/
def execStateQuery (h : Hdr) (s : State) : Host.Outcome State Fault Refusal := packet (.stateQuery h) (cmdPack h stateQuery) s

/-- CONFIG_COMMIT (R112): Checks and admits the working configuration set, moving STANDBY to CONFIGURED or refusing. -/
def execConfigCommit (h : Hdr) (s : State) : Host.Outcome State Fault Refusal := packet (.configCommit h) (cmdPack h configCommit) s

/-- CONFIG_CLEAR (R76): Empties the working configuration set and returns the device to STANDBY. -/
def execConfigClear (h : Hdr) (s : State) : Host.Outcome State Fault Refusal := packet (.configClear h) (cmdPack h configClear) s

/-- CONFIG_SAVE (R616): Stores the working configuration set in a configuration slot. -/
def execConfigSave (h : Hdr) (p : PConfigSave) (s : State) : Host.Outcome State Fault Refusal := packet (.configSave h p) (cmdPack h (configSave p)) s

/-- CONFIG_LOAD (R616): Loads a configuration slot into the working configuration set. -/
def execConfigLoad (h : Hdr) (p : PConfigLoad) (s : State) : Host.Outcome State Fault Refusal := packet (.configLoad h p) (cmdPack h (configLoad p)) s

/-- CONFIG_CHECK (R95): Returns the budget area for the working configuration set. -/
def execConfigCheck (h : Hdr) (s : State) : Host.Outcome State Fault Refusal := packet (.configCheck h) (cmdPack h configCheck) s

/-- ARM (R682): Judges the set, brings up the opened ports and moves CONFIGURED to ARMED once they are up or refused. -/
def execArm (h : Hdr) (s : State) : Host.Outcome State Fault Refusal := packet (.arm h) (cmdPack h arm) s

/-- DISARM (R76): Moves ARMED to CONFIGURED. -/
def execDisarm (h : Hdr) (s : State) : Host.Outcome State Fault Refusal := packet (.disarm h) (cmdPack h disarm) s

/-- START (R112): Re-judges the configuration and moves ARMED to RUNNING, at once or queued with an apply-at key. -/
def execStart (h : Hdr) (s : State) : Host.Outcome State Fault Refusal := packet (.start h) (cmdPack h start) s

/-- STOP (R79): Sets the stop point and drain limit and moves RUNNING to DRAINING, at once or queued. -/
def execStop (h : Hdr) (p : PStop) (s : State) : Host.Outcome State Fault Refusal := packet (.stop h p) (cmdPack h (stop p)) s

/-- FAULT_CLEAR (R641): Leaves FAULT for STANDBY when the class's clear condition holds. -/
def execFaultClear (h : Hdr) (s : State) : Host.Outcome State Fault Refusal := packet (.faultClear h) (cmdPack h faultClear) s

/-- SLEEP (R49): Replies and then puts the device from STANDBY into SLEEP with DRAM in self-refresh. -/
def execSleep (h : Hdr) (s : State) : Host.Outcome State Fault Refusal := packet (.sleep h) (cmdPack h sleep) s

/-- APPLY_CANCEL (R112): Discards every queued command with a given tag and notifies each with E_CANCELLED. -/
def execApplyCancel (h : Hdr) (p : PApplyCancel) (s : State) : Host.Outcome State Fault Refusal := packet (.applyCancel h p) (cmdPack h (applyCancel p)) s

/-- APPLY_LIST (R681): Returns queued commands in sequencer order. -/
def execApplyList (h : Hdr) (p : PApplyList) (s : State) : Host.Outcome State Fault Refusal := packet (.applyList h p) (cmdPack h (applyList p)) s

/-- NET_CONFIG (R111): Sets an interface's addresses and UDP port, taking effect after the reply. -/
def execNetConfig (h : Hdr) (p : PNetConfig) (s : State) : Host.Outcome State Fault Refusal := packet (.netConfig h p) (cmdPack h (netConfig p)) s

end Sys2Proof.Machine
end

