-- ==== Sys2Proof/Machine/ExecStores.lean ====
section
/-! DEFINITION. Sys2Proof/Machine/ExecStores.lean: the meanings of the commands of firmware and stores (family 0x10). -/

namespace Sys2Proof.Machine

/-- FW_STAGE_BEGIN (R606): Enters UPDATE and erases staging for a new image. -/
def execFwStageBegin (h : Hdr) (p : PFwStageBegin) (s : State) : Host.Outcome State Fault Refusal := packet (.fwStageBegin h p) (cmdPack h (fwStageBegin p)) s

/-- FW_STAGE_WRITE (R606): Programs a piece of the staged image. -/
def execFwStageWrite (h : Hdr) (p : PFwStageWrite) (s : State) : Host.Outcome State Fault Refusal := packet (.fwStageWrite h p) (cmdPack h (fwStageWrite p)) s

/-- FW_STAGE_END (R606): Checks the staged image and on success writes STAGED and returns to STANDBY. -/
def execFwStageEnd (h : Hdr) (s : State) : Host.Outcome State Fault Refusal := packet (.fwStageEnd h) (cmdPack h fwStageEnd) s

/-- FW_STAGE_ABORT (R618): Abandons staging and returns to STANDBY. -/
def execFwStageAbort (h : Hdr) (s : State) : Host.Outcome State Fault Refusal := packet (.fwStageAbort h) (cmdPack h fwStageAbort) s

/-- FW_STATUS (R618): Returns the slot state and firmware registers. -/
def execFwStatus (h : Hdr) (s : State) : Host.Outcome State Fault Refusal := packet (.fwStatus h) (cmdPack h fwStatus) s

/-- FW_CONFIRM (R609): Lets a trial firmware in HOST mode confirm itself. -/
def execFwConfirm (h : Hdr) (s : State) : Host.Outcome State Fault Refusal := packet (.fwConfirm h) (cmdPack h fwConfirm) s

/-- FW_POLICY (R609): Sets and stores the confirmation window and mode. -/
def execFwPolicy (h : Hdr) (p : PFwPolicy) (s : State) : Host.Outcome State Fault Refusal := packet (.fwPolicy h p) (cmdPack h (fwPolicy p)) s

/-- FW_ROLLBACK (R611): Arms the other slot for a trial boot at the next start. -/
def execFwRollback (h : Hdr) (s : State) : Host.Outcome State Fault Refusal := packet (.fwRollback h) (cmdPack h fwRollback) s

/-- EFUSE_READ (R590): Returns bytes of the eFuse shadow. -/
def execEfuseRead (h : Hdr) (p : PEfuseRead) (s : State) : Host.Outcome State Fault Refusal := packet (.efuseRead h p) (cmdPack h (efuseRead p)) s

/-- EFUSE_SECVER_ADVANCE (R611): Programs the security minimum up to the running image's version. -/
def execEfuseSecverAdvance (h : Hdr) (s : State) : Host.Outcome State Fault Refusal := packet (.efuseSecverAdvance h) (cmdPack h efuseSecverAdvance) s

/-- EFUSE_KEY_REVOKE (R592): Programs the revocation bits of a key slot. -/
def execEfuseKeyRevoke (h : Hdr) (p : PEfuseKeyRevoke) (s : State) : Host.Outcome State Fault Refusal := packet (.efuseKeyRevoke h p) (cmdPack h (efuseKeyRevoke p)) s

/-- CAL_WRITE (R612): Writes a record into the user calibration store. -/
def execCalWrite (h : Hdr) (p : PCalWrite) (s : State) : Host.Outcome State Fault Refusal := packet (.calWrite h p) (cmdPack h (calWrite p)) s

/-- CAL_READ (R618): Returns bytes of a calibration record. -/
def execCalRead (h : Hdr) (p : PCalRead) (s : State) : Host.Outcome State Fault Refusal := packet (.calRead h p) (cmdPack h (calRead p)) s

/-- CAL_LIST (R618): Lists the records of the calibration store. -/
def execCalList (h : Hdr) (p : PCalList) (s : State) : Host.Outcome State Fault Refusal := packet (.calList h p) (cmdPack h (calList p)) s

/-- CAL_ERASE (R618): Removes a calibration record. -/
def execCalErase (h : Hdr) (p : PCalErase) (s : State) : Host.Outcome State Fault Refusal := packet (.calErase h p) (cmdPack h (calErase p)) s

/-- SETTINGS_SAVE (R615): Stores the settings in force with autoload slot and autocommit. -/
def execSettingsSave (h : Hdr) (p : PSettingsSave) (s : State) : Host.Outcome State Fault Refusal := packet (.settingsSave h p) (cmdPack h (settingsSave p)) s

/-- STORE_STATUS (R618): Returns store state and record generations. -/
def execStoreStatus (h : Hdr) (s : State) : Host.Outcome State Fault Refusal := packet (.storeStatus h) (cmdPack h storeStatus) s

end Sys2Proof.Machine
end

