-- ==== Sys2Proof/Machine/ExecTime.lean ====
section
/-! DEFINITION. Sys2Proof/Machine/ExecTime.lean: the meanings of the commands of time (family 0x05). -/

namespace Sys2Proof.Machine

/-- TIME_SOURCE (R233): Selects no source, PTP or PPS for the time unit. -/
def execTimeSource (h : Hdr) (p : PTimeSource) (s : State) : Host.Outcome State Fault Refusal := packet (.timeSource h p) (cmdPack h (timeSource p)) s

/-- TIME_SET (R234): Steps the TMU counter with no source, or supplies seconds for the next PPS step. -/
def execTimeSet (h : Hdr) (p : PTimeSet) (s : State) : Host.Outcome State Fault Refusal := packet (.timeSet h p) (cmdPack h (timeSet p)) s

/-- TIME_RELEARN (R234): Clears STEP_DONE and drops the time unit to ACQUIRING or FREE. -/
def execTimeRelearn (h : Hdr) (s : State) : Host.Outcome State Fault Refusal := packet (.timeRelearn h) (cmdPack h timeRelearn) s

/-- TIME_STATUS (R251): Returns time unit state, offset, rate, path delay and master identity. -/
def execTimeStatus (h : Hdr) (s : State) : Host.Outcome State Fault Refusal := packet (.timeStatus h) (cmdPack h timeStatus) s

/-- PTP_CONFIG (R237): Configures the PTP port's interface, profile, transport and intervals. -/
def execPtpConfig (h : Hdr) (p : PPtpConfig) (s : State) : Host.Outcome State Fault Refusal := packet (.ptpConfig h p) (cmdPack h (ptpConfig p)) s

/-- PPS_CONFIG (R241): Configures PPS_OUT enable, offset and width. -/
def execPpsConfig (h : Hdr) (p : PPpsConfig) (s : State) : Host.Outcome State Fault Refusal := packet (.ppsConfig h p) (cmdPack h (ppsConfig p)) s

/-- TTR_CONFIG (R242): Configures a time trigger's start, period and output pulse. -/
def execTtrConfig (h : Hdr) (p : PTtrConfig) (s : State) : Host.Outcome State Fault Refusal := packet (.ttrConfig h p) (cmdPack h (ttrConfig p)) s

/-- TCP_CONFIG (R244): Configures a time capture's source and edge. -/
def execTcpConfig (h : Hdr) (p : PTcpConfig) (s : State) : Host.Outcome State Fault Refusal := packet (.tcpConfig h p) (cmdPack h (tcpConfig p)) s

/-- TCP_READ (R244): Empties captures from a time capture FIFO. -/
def execTcpRead (h : Hdr) (p : PTcpRead) (s : State) : Host.Outcome State Fault Refusal := packet (.tcpRead h p) (cmdPack h (tcpRead p)) s

/-- TIME_READ (R251): Returns TMU time and the web axis MD latched in one SYS cycle. -/
def execTimeRead (h : Hdr) (s : State) : Host.Outcome State Fault Refusal := packet (.timeRead h) (cmdPack h timeRead) s

end Sys2Proof.Machine
end

