-- ==== Sys2Proof/Machine/ExecTombac.lean ====
section
/-! DEFINITION. Sys2Proof/Machine/ExecTombac.lean: the meanings of the commands of Tombac (family 0x0C). -/

namespace Sys2Proof.Machine

/-- TBC_TILE_CODING (R474): Sets the Tombac effort for tiles. -/
def execTbcTileCoding (h : Hdr) (p : PTbcTileCoding) (s : State) : Host.Outcome State Fault Refusal := packet (.tbcTileCoding h p) (cmdPack h (tbcTileCoding p)) s

/-- TBC_HEAD_OUTPUT (R470): Sets a head's Tombac effort, near, key interval, ring and mirror. -/
def execTbcHeadOutput (h : Hdr) (p : PTbcHeadOutput) (s : State) : Host.Outcome State Fault Refusal := packet (.tbcHeadOutput h p) (cmdPack h (tbcHeadOutput p)) s

/-- TBC_HISTORY (R475): Enables and configures the rolling web history. -/
def execTbcHistory (h : Hdr) (p : PTbcHistory) (s : State) : Host.Outcome State Fault Refusal := packet (.tbcHistory h p) (cmdPack h (tbcHistory p)) s

/-- TBC_POOL_CONFIG (R485): Sets the Tombac job buffer size. -/
def execTbcPoolConfig (h : Hdr) (p : PTbcPoolConfig) (s : State) : Host.Outcome State Fault Refusal := packet (.tbcPoolConfig h p) (cmdPack h (tbcPoolConfig p)) s

/-- TBC_BUF_WRITE (R485): Writes bytes into the job buffer. -/
def execTbcBufWrite (h : Hdr) (p : PTbcBufWrite) (s : State) : Host.Outcome State Fault Refusal := packet (.tbcBufWrite h p) (cmdPack h (tbcBufWrite p)) s

/-- TBC_BUF_READ (R485): Reads bytes from the job buffer. -/
def execTbcBufRead (h : Hdr) (p : PTbcBufRead) (s : State) : Host.Outcome State Fault Refusal := packet (.tbcBufRead h p) (cmdPack h (tbcBufRead p)) s

/-- TBC_JOB_SUBMIT (R482): Queues a compress or decompress job. -/
def execTbcJobSubmit (h : Hdr) (p : PTbcJobSubmit) (s : State) : Host.Outcome State Fault Refusal := packet (.tbcJobSubmit h p) (cmdPack h (tbcJobSubmit p)) s

/-- TBC_JOB_STATUS (R484): Returns a job's state and completion. -/
def execTbcJobStatus (h : Hdr) (p : PTbcJobStatus) (s : State) : Host.Outcome State Fault Refusal := packet (.tbcJobStatus h p) (cmdPack h (tbcJobStatus p)) s

/-- TBC_JOB_CANCEL (R484): Stops a job at its next line boundary with CANCELLED. -/
def execTbcJobCancel (h : Hdr) (p : PTbcJobCancel) (s : State) : Host.Outcome State Fault Refusal := packet (.tbcJobCancel h p) (cmdPack h (tbcJobCancel p)) s

/-- TBC_READ (R472): Returns bytes of a head or history record. -/
def execTbcRead (h : Hdr) (p : PTbcRead) (s : State) : Host.Outcome State Fault Refusal := packet (.tbcRead h p) (cmdPack h (tbcRead p)) s

/-- TBC_HISTORY_FIND (R479): Returns the newest history record holding an MD below a bound. -/
def execTbcHistoryFind (h : Hdr) (p : PTbcHistoryFind) (s : State) : Host.Outcome State Fault Refusal := packet (.tbcHistoryFind h p) (cmdPack h (tbcHistoryFind p)) s

/-- TBC_STATUS (R487): Returns Tombac state, sequences and counters. -/
def execTbcStatus (h : Hdr) (s : State) : Host.Outcome State Fault Refusal := packet (.tbcStatus h) (cmdPack h tbcStatus) s

/-- TBC_COUNTERS_CLEAR (R487): Sets the Tombac counters to 0. -/
def execTbcCountersClear (h : Hdr) (s : State) : Host.Outcome State Fault Refusal := packet (.tbcCountersClear h) (cmdPack h tbcCountersClear) s

end Sys2Proof.Machine
end

