-- ==== Sys2Proof/Machine/ExecVideo.lean ====
section
/-! DEFINITION. Sys2Proof/Machine/ExecVideo.lean: the meanings of the commands of HEVC (family 0x0B). -/

namespace Sys2Proof.Machine

/-- VCU_CONTEXT (R427): Sets an HEVC context's kind, profile, size, rate and source. -/
def execVcuContext (h : Hdr) (p : PVcuContext) (s : State) : Host.Outcome State Fault Refusal := packet (.vcuContext h p) (cmdPack h (vcuContext p)) s

/-- VCU_CODING (R433): Sets a context's coding structure, IRAP period, slices and options. -/
def execVcuCoding (h : Hdr) (p : PVcuCoding) (s : State) : Host.Outcome State Fault Refusal := packet (.vcuCoding h p) (cmdPack h (vcuCoding p)) s

/-- VCU_RATE (R440): Sets a context's rate control, taking effect at a picture. -/
def execVcuRate (h : Hdr) (p : PVcuRate) (s : State) : Host.Outcome State Fault Refusal := packet (.vcuRate h p) (cmdPack h (vcuRate p)) s

/-- VCU_OUTPUT (R441): Sets a context's DRAM ring and host mirror. -/
def execVcuOutput (h : Hdr) (p : PVcuOutput) (s : State) : Host.Outcome State Fault Refusal := packet (.vcuOutput h p) (cmdPack h (vcuOutput p)) s

/-- VCU_FORCE_IRAP (R433): Makes the next picture of a context an IRAP picture. -/
def execVcuForceIrap (h : Hdr) (p : PVcuForceIrap) (s : State) : Host.Outcome State Fault Refusal := packet (.vcuForceIrap h p) (cmdPack h (vcuForceIrap p)) s

/-- VCU_ENC_SUBMIT (R431): Submits a host picture to an encoding context. -/
def execVcuEncSubmit (h : Hdr) (p : PVcuEncSubmit) (s : State) : Host.Outcome State Fault Refusal := packet (.vcuEncSubmit h p) (cmdPack h (vcuEncSubmit p)) s

/-- VCU_DEC_WRITE (R445): Writes byte stream into a decode context's input buffer. -/
def execVcuDecWrite (h : Hdr) (p : PVcuDecWrite) (s : State) : Host.Outcome State Fault Refusal := packet (.vcuDecWrite h p) (cmdPack h (vcuDecWrite p)) s

/-- VCU_READ (R442): Returns bytes of a chunk of given sequence. -/
def execVcuRead (h : Hdr) (p : PVcuRead) (s : State) : Host.Outcome State Fault Refusal := packet (.vcuRead h p) (cmdPack h (vcuRead p)) s

/-- VCU_STATUS (R450): Returns a context's state, level, rate and counters. -/
def execVcuStatus (h : Hdr) (p : PVcuStatus) (s : State) : Host.Outcome State Fault Refusal := packet (.vcuStatus h p) (cmdPack h (vcuStatus p)) s

/-- VCU_COUNTERS_CLEAR (R450): Sets the HEVC counters to 0. -/
def execVcuCountersClear (h : Hdr) (s : State) : Host.Outcome State Fault Refusal := packet (.vcuCountersClear h) (cmdPack h vcuCountersClear) s

end Sys2Proof.Machine
end

