-- ==== Sys2Proof/Machine/Dispatch.lean ====
section
/-! DEFINITION. Sys2Proof/Machine/Dispatch.lean: one arm for every command of the block. -/

namespace Sys2Proof.Machine

def exec (i : Instr) (s : State) : Host.Outcome State Fault Refusal :=
  match i with
  | .sessionOpen h p => Sys2Proof.Machine.execSessionOpen h p s
  | .sessionClose h => Sys2Proof.Machine.execSessionClose h s
  | .heartbeat h => Sys2Proof.Machine.execHeartbeat h s
  | .claim h p => Sys2Proof.Machine.execClaim h p s
  | .release h => Sys2Proof.Machine.execRelease h s
  | .transfer h p => Sys2Proof.Machine.execTransfer h p s
  | .ownerQuery h => Sys2Proof.Machine.execOwnerQuery h s
  | .sessionList h p => Sys2Proof.Machine.execSessionList h p s
  | .queueCreate h p => Sys2Proof.Machine.execQueueCreate h p s
  | .queueDelete h p => Sys2Proof.Machine.execQueueDelete h p s
  | .identify h => Sys2Proof.Machine.execIdentify h s
  | .notifySubscribe h p => Sys2Proof.Machine.execNotifySubscribe h p s
  | .stateQuery h => Sys2Proof.Machine.execStateQuery h s
  | .configCommit h => Sys2Proof.Machine.execConfigCommit h s
  | .configClear h => Sys2Proof.Machine.execConfigClear h s
  | .configSave h p => Sys2Proof.Machine.execConfigSave h p s
  | .configLoad h p => Sys2Proof.Machine.execConfigLoad h p s
  | .configCheck h => Sys2Proof.Machine.execConfigCheck h s
  | .arm h => Sys2Proof.Machine.execArm h s
  | .disarm h => Sys2Proof.Machine.execDisarm h s
  | .start h => Sys2Proof.Machine.execStart h s
  | .stop h p => Sys2Proof.Machine.execStop h p s
  | .faultClear h => Sys2Proof.Machine.execFaultClear h s
  | .sleep h => Sys2Proof.Machine.execSleep h s
  | .applyCancel h p => Sys2Proof.Machine.execApplyCancel h p s
  | .applyList h p => Sys2Proof.Machine.execApplyList h p s
  | .netConfig h p => Sys2Proof.Machine.execNetConfig h p s
  | .portOpen h p => Sys2Proof.Machine.execPortOpen h p s
  | .portClose h p => Sys2Proof.Machine.execPortClose h p s
  | .streamSet h p => Sys2Proof.Machine.execStreamSet h p s
  | .portProbe h p => Sys2Proof.Machine.execPortProbe h p s
  | .portStatus h p => Sys2Proof.Machine.execPortStatus h p s
  | .portCounters h p => Sys2Proof.Machine.execPortCounters h p s
  | .portCountersClear h p => Sys2Proof.Machine.execPortCountersClear h p s
  | .lanePower h p => Sys2Proof.Machine.execLanePower h p s
  | .headRegWrite h p => Sys2Proof.Machine.execHeadRegWrite h p s
  | .headRegRead h p => Sys2Proof.Machine.execHeadRegRead h p s
  | .calRun h p => Sys2Proof.Machine.execCalRun h p s
  | .calPolicy h p => Sys2Proof.Machine.execCalPolicy h p s
  | .eyeScan h p => Sys2Proof.Machine.execEyeScan h p s
  | .latencyMeasure h p => Sys2Proof.Machine.execLatencyMeasure h p s
  | .latencyTrim h p => Sys2Proof.Machine.execLatencyTrim h p s
  | .exposureDelay h p => Sys2Proof.Machine.execExposureDelay h p s
  | .feGeometry h p => Sys2Proof.Machine.execFeGeometry h p s
  | .feStreamMap h p => Sys2Proof.Machine.execFeStreamMap h p s
  | .feSeam h p => Sys2Proof.Machine.execFeSeam h p s
  | .feKernel h p => Sys2Proof.Machine.execFeKernel h p s
  | .feCoefLoad h p => Sys2Proof.Machine.execFeCoefLoad h p s
  | .feBankSelect h p => Sys2Proof.Machine.execFeBankSelect h p s
  | .feShading h p => Sys2Proof.Machine.execFeShading h p s
  | .feSettingLatency h p => Sys2Proof.Machine.execFeSettingLatency h p s
  | .feMetaKey h p => Sys2Proof.Machine.execFeMetaKey h p s
  | .feStatus h p => Sys2Proof.Machine.execFeStatus h p s
  | .feCapture h p => Sys2Proof.Machine.execFeCapture h p s
  | .feCountersClear h => Sys2Proof.Machine.execFeCountersClear h s
  | .encConfig h p => Sys2Proof.Machine.execEncConfig h p s
  | .observerSet h p => Sys2Proof.Machine.execObserverSet h p s
  | .posOrigin h p => Sys2Proof.Machine.execPosOrigin h p s
  | .ltgConfig h p => Sys2Proof.Machine.execLtgConfig h p s
  | .ltgEnable h p => Sys2Proof.Machine.execLtgEnable h p s
  | .cmpConfig h p => Sys2Proof.Machine.execCmpConfig h p s
  | .cmpListLoad h p => Sys2Proof.Machine.execCmpListLoad h p s
  | .cmpEnable h p => Sys2Proof.Machine.execCmpEnable h p s
  | .latchConfig h p => Sys2Proof.Machine.execLatchConfig h p s
  | .latchRead h p => Sys2Proof.Machine.execLatchRead h p s
  | .posStatus h p => Sys2Proof.Machine.execPosStatus h p s
  | .posCountersClear h => Sys2Proof.Machine.execPosCountersClear h s
  | .timeSource h p => Sys2Proof.Machine.execTimeSource h p s
  | .timeSet h p => Sys2Proof.Machine.execTimeSet h p s
  | .timeRelearn h => Sys2Proof.Machine.execTimeRelearn h s
  | .timeStatus h => Sys2Proof.Machine.execTimeStatus h s
  | .ptpConfig h p => Sys2Proof.Machine.execPtpConfig h p s
  | .ppsConfig h p => Sys2Proof.Machine.execPpsConfig h p s
  | .ttrConfig h p => Sys2Proof.Machine.execTtrConfig h p s
  | .tcpConfig h p => Sys2Proof.Machine.execTcpConfig h p s
  | .tcpRead h p => Sys2Proof.Machine.execTcpRead h p s
  | .timeRead h => Sys2Proof.Machine.execTimeRead h s
  | .graphNode h p => Sys2Proof.Machine.execGraphNode h p s
  | .graphClear h p => Sys2Proof.Machine.execGraphClear h p s
  | .gradeRules h p => Sys2Proof.Machine.execGradeRules h p s
  | .markTable h p => Sys2Proof.Machine.execMarkTable h p s
  | .graphSelect h p => Sys2Proof.Machine.execGraphSelect h p s
  | .graphParam h p => Sys2Proof.Machine.execGraphParam h p s
  | .verifyGraph h p => Sys2Proof.Machine.execVerifyGraph h p s
  | .graphBudget h p => Sys2Proof.Machine.execGraphBudget h p s
  | .graphCost h p => Sys2Proof.Machine.execGraphCost h p s
  | .elxStatus h p => Sys2Proof.Machine.execElxStatus h p s
  | .elxCountersClear h => Sys2Proof.Machine.execElxCountersClear h s
  | .elxGating h p => Sys2Proof.Machine.execElxGating h p s
  | .modelStage h p => Sys2Proof.Machine.execModelStage h p s
  | .modelWrite h p => Sys2Proof.Machine.execModelWrite h p s
  | .modelCommit h p => Sys2Proof.Machine.execModelCommit h p s
  | .modelAbort h p => Sys2Proof.Machine.execModelAbort h p s
  | .modelUnload h p => Sys2Proof.Machine.execModelUnload h p s
  | .modelSwap h p => Sys2Proof.Machine.execModelSwap h p s
  | .modelList h p => Sys2Proof.Machine.execModelList h p s
  | .modelInfo h p => Sys2Proof.Machine.execModelInfo h p s
  | .modelTest h p => Sys2Proof.Machine.execModelTest h p s
  | .resultQueueConfig h p => Sys2Proof.Machine.execResultQueueConfig h p s
  | .tilePoolConfig h p => Sys2Proof.Machine.execTilePoolConfig h p s
  | .resultSubscribe h p => Sys2Proof.Machine.execResultSubscribe h p s
  | .resultUnsubscribe h p => Sys2Proof.Machine.execResultUnsubscribe h p s
  | .resultRead h p => Sys2Proof.Machine.execResultRead h p s
  | .resultAdvance h p => Sys2Proof.Machine.execResultAdvance h p s
  | .resultStatus h p => Sys2Proof.Machine.execResultStatus h p s
  | .tileInfo h p => Sys2Proof.Machine.execTileInfo h p s
  | .tileFetch h p => Sys2Proof.Machine.execTileFetch h p s
  | .resCountersClear h => Sys2Proof.Machine.execResCountersClear h s
  | .mrkHeadConfig h p => Sys2Proof.Machine.execMrkHeadConfig h p s
  | .mrkRemapLoad h p => Sys2Proof.Machine.execMrkRemapLoad h p s
  | .mrkPreheat h p => Sys2Proof.Machine.execMrkPreheat h p s
  | .mrkThermal h p => Sys2Proof.Machine.execMrkThermal h p s
  | .mrkStyle h p => Sys2Proof.Machine.execMrkStyle h p s
  | .mrkLineMode h p => Sys2Proof.Machine.execMrkLineMode h p s
  | .mrkHeadMode h p => Sys2Proof.Machine.execMrkHeadMode h p s
  | .mrkOverlap h p => Sys2Proof.Machine.execMrkOverlap h p s
  | .mrkServicePattern h p => Sys2Proof.Machine.execMrkServicePattern h p s
  | .mrkServiceFire h p => Sys2Proof.Machine.execMrkServiceFire h p s
  | .mrkVerifyGeometry h p => Sys2Proof.Machine.execMrkVerifyGeometry h p s
  | .mrkTestPrint h p => Sys2Proof.Machine.execMrkTestPrint h p s
  | .mrkDotRead h p => Sys2Proof.Machine.execMrkDotRead h p s
  | .mrkCalRead h p => Sys2Proof.Machine.execMrkCalRead h p s
  | .mrkCalSet h p => Sys2Proof.Machine.execMrkCalSet h p s
  | .mrkCalAccept h p => Sys2Proof.Machine.execMrkCalAccept h p s
  | .mrkCalSave h p => Sys2Proof.Machine.execMrkCalSave h p s
  | .mrkStatus h p => Sys2Proof.Machine.execMrkStatus h p s
  | .mrkMissRead h p => Sys2Proof.Machine.execMrkMissRead h p s
  | .mrkCountersClear h => Sys2Proof.Machine.execMrkCountersClear h s
  | .areaStream h p => Sys2Proof.Machine.execAreaStream h p s
  | .clpBlack h p => Sys2Proof.Machine.execClpBlack h p s
  | .clpDefectLoad h p => Sys2Proof.Machine.execClpDefectLoad h p s
  | .clpColour h p => Sys2Proof.Machine.execClpColour h p s
  | .clpLutLoad h p => Sys2Proof.Machine.execClpLutLoad h p s
  | .clpBankSelect h p => Sys2Proof.Machine.execClpBankSelect h p s
  | .headConfig h p => Sys2Proof.Machine.execHeadConfig h p s
  | .headKernel h p => Sys2Proof.Machine.execHeadKernel h p s
  | .headCurve h p => Sys2Proof.Machine.execHeadCurve h p s
  | .st2110Config h p => Sys2Proof.Machine.execSt2110Config h p s
  | .st2110Sdp h p => Sys2Proof.Machine.execSt2110Sdp h p s
  | .hostRing h p => Sys2Proof.Machine.execHostRing h p s
  | .liveView h p => Sys2Proof.Machine.execLiveView h p s
  | .clpStatus h p => Sys2Proof.Machine.execClpStatus h p s
  | .clpCountersClear h => Sys2Proof.Machine.execClpCountersClear h s
  | .vcuContext h p => Sys2Proof.Machine.execVcuContext h p s
  | .vcuCoding h p => Sys2Proof.Machine.execVcuCoding h p s
  | .vcuRate h p => Sys2Proof.Machine.execVcuRate h p s
  | .vcuOutput h p => Sys2Proof.Machine.execVcuOutput h p s
  | .vcuForceIrap h p => Sys2Proof.Machine.execVcuForceIrap h p s
  | .vcuEncSubmit h p => Sys2Proof.Machine.execVcuEncSubmit h p s
  | .vcuDecWrite h p => Sys2Proof.Machine.execVcuDecWrite h p s
  | .vcuRead h p => Sys2Proof.Machine.execVcuRead h p s
  | .vcuStatus h p => Sys2Proof.Machine.execVcuStatus h p s
  | .vcuCountersClear h => Sys2Proof.Machine.execVcuCountersClear h s
  | .tbcTileCoding h p => Sys2Proof.Machine.execTbcTileCoding h p s
  | .tbcHeadOutput h p => Sys2Proof.Machine.execTbcHeadOutput h p s
  | .tbcHistory h p => Sys2Proof.Machine.execTbcHistory h p s
  | .tbcPoolConfig h p => Sys2Proof.Machine.execTbcPoolConfig h p s
  | .tbcBufWrite h p => Sys2Proof.Machine.execTbcBufWrite h p s
  | .tbcBufRead h p => Sys2Proof.Machine.execTbcBufRead h p s
  | .tbcJobSubmit h p => Sys2Proof.Machine.execTbcJobSubmit h p s
  | .tbcJobStatus h p => Sys2Proof.Machine.execTbcJobStatus h p s
  | .tbcJobCancel h p => Sys2Proof.Machine.execTbcJobCancel h p s
  | .tbcRead h p => Sys2Proof.Machine.execTbcRead h p s
  | .tbcHistoryFind h p => Sys2Proof.Machine.execTbcHistoryFind h p s
  | .tbcStatus h => Sys2Proof.Machine.execTbcStatus h s
  | .tbcCountersClear h => Sys2Proof.Machine.execTbcCountersClear h s
  | .evrChannel h p => Sys2Proof.Machine.execEvrChannel h p s
  | .evrEnable h p => Sys2Proof.Machine.execEvrEnable h p s
  | .evrTaskMode h p => Sys2Proof.Machine.execEvrTaskMode h p s
  | .evrDivider h p => Sys2Proof.Machine.execEvrDivider h p s
  | .evrFire h p => Sys2Proof.Machine.execEvrFire h p s
  | .evrStatus h p => Sys2Proof.Machine.execEvrStatus h p s
  | .evrTaskStatus h p => Sys2Proof.Machine.execEvrTaskStatus h p s
  | .evrTaskClear h p => Sys2Proof.Machine.execEvrTaskClear h p s
  | .evrCountersClear h => Sys2Proof.Machine.execEvrCountersClear h s
  | .dmcLayout h p => Sys2Proof.Machine.execDmcLayout h p s
  | .dmcPolicy h p => Sys2Proof.Machine.execDmcPolicy h p s
  | .dmcUserRegion h p => Sys2Proof.Machine.execDmcUserRegion h p s
  | .dmcRetrain h p => Sys2Proof.Machine.execDmcRetrain h p s
  | .dmcStatus h p => Sys2Proof.Machine.execDmcStatus h p s
  | .dmcEccLog h p => Sys2Proof.Machine.execDmcEccLog h p s
  | .dmcCountersClear h => Sys2Proof.Machine.execDmcCountersClear h s
  | .dmaChannel h p => Sys2Proof.Machine.execDmaChannel h p s
  | .dmaStart h p => Sys2Proof.Machine.execDmaStart h p s
  | .dmaResume h p => Sys2Proof.Machine.execDmaResume h p s
  | .dmaAbort h p => Sys2Proof.Machine.execDmaAbort h p s
  | .dmaStatus h p => Sys2Proof.Machine.execDmaStatus h p s
  | .dmaBufWrite h p => Sys2Proof.Machine.execDmaBufWrite h p s
  | .dmaBufRead h p => Sys2Proof.Machine.execDmaBufRead h p s
  | .dmaCountersClear h => Sys2Proof.Machine.execDmaCountersClear h s
  | .envelopeSet h p => Sys2Proof.Machine.execEnvelopeSet h p s
  | .planRun h => Sys2Proof.Machine.execPlanRun h s
  | .monStatus h => Sys2Proof.Machine.execMonStatus h s
  | .thermalConfig h p => Sys2Proof.Machine.execThermalConfig h p s
  | .marginConfig h p => Sys2Proof.Machine.execMarginConfig h p s
  | .telemetryConfig h p => Sys2Proof.Machine.execTelemetryConfig h p s
  | .telemetryRead h p => Sys2Proof.Machine.execTelemetryRead h p s
  | .calStatus h p => Sys2Proof.Machine.execCalStatus h p s
  | .faultPolicy h p => Sys2Proof.Machine.execFaultPolicy h p s
  | .errlogRead h p => Sys2Proof.Machine.execErrlogRead h p s
  | .monCountersClear h => Sys2Proof.Machine.execMonCountersClear h s
  | .fwStageBegin h p => Sys2Proof.Machine.execFwStageBegin h p s
  | .fwStageWrite h p => Sys2Proof.Machine.execFwStageWrite h p s
  | .fwStageEnd h => Sys2Proof.Machine.execFwStageEnd h s
  | .fwStageAbort h => Sys2Proof.Machine.execFwStageAbort h s
  | .fwStatus h => Sys2Proof.Machine.execFwStatus h s
  | .fwConfirm h => Sys2Proof.Machine.execFwConfirm h s
  | .fwPolicy h p => Sys2Proof.Machine.execFwPolicy h p s
  | .fwRollback h => Sys2Proof.Machine.execFwRollback h s
  | .efuseRead h p => Sys2Proof.Machine.execEfuseRead h p s
  | .efuseSecverAdvance h => Sys2Proof.Machine.execEfuseSecverAdvance h s
  | .efuseKeyRevoke h p => Sys2Proof.Machine.execEfuseKeyRevoke h p s
  | .calWrite h p => Sys2Proof.Machine.execCalWrite h p s
  | .calRead h p => Sys2Proof.Machine.execCalRead h p s
  | .calList h p => Sys2Proof.Machine.execCalList h p s
  | .calErase h p => Sys2Proof.Machine.execCalErase h p s
  | .settingsSave h p => Sys2Proof.Machine.execSettingsSave h p s
  | .storeStatus h => Sys2Proof.Machine.execStoreStatus h s
  | .regRead h p => Sys2Proof.Machine.execRegRead h p s
  | .regWrite h p => Sys2Proof.Machine.execRegWrite h p s
  | .diagReset h p => Sys2Proof.Machine.execDiagReset h p s
  | .diagInject h p => Sys2Proof.Machine.execDiagInject h p s
  | .registerWrite t link addr value => Sys2Proof.Machine.execRegisterWrite t link addr value s
  | .ownClaimGo t link value => Sys2Proof.Machine.execOwnClaimGo t link value s
  | .hqSubmitTailWrite t via link pair value => Sys2Proof.Machine.execHqSubmitTailWrite t via link pair value s
  | .hqDoneHeadWrite t via link pair value => Sys2Proof.Machine.execHqDoneHeadWrite t via link pair value s
  | .hqAdminSizeWrite t via link value => Sys2Proof.Machine.execHqAdminSizeWrite t via link value s
  | .cntClear t port value => Sys2Proof.Machine.execCntClear t port value s
  | .fepCntClear t value => Sys2Proof.Machine.execFepCntClear t value s
  | .elxCntClear t value => Sys2Proof.Machine.execElxCntClear t value s
  | .mrkCntClear t value => Sys2Proof.Machine.execMrkCntClear t value s
  | .clpCntClear t value => Sys2Proof.Machine.execClpCntClear t value s
  | .vcuCntClear t value => Sys2Proof.Machine.execVcuCntClear t value s
  | .tbcCntClear t value => Sys2Proof.Machine.execTbcCntClear t value s
  | .evrCntClear t value => Sys2Proof.Machine.execEvrCntClear t value s
  | .dmaCntClear t value => Sys2Proof.Machine.execDmaCntClear t value s
  | .dmcCntClear t value => Sys2Proof.Machine.execDmcCntClear t value s
  | .rcpCntClear t value => Sys2Proof.Machine.execRcpCntClear t value s
  | .monCntClear t value => Sys2Proof.Machine.execMonCntClear t value s
  | .nvsCntClear t value => Sys2Proof.Machine.execNvsCntClear t value s
  | .tmuSnapGo t link via => Sys2Proof.Machine.execTmuSnapGo t link via s
  | .tmuSnapComplete t link => Sys2Proof.Machine.execTmuSnapComplete t link s
  | .posSnapGo t link via => Sys2Proof.Machine.execPosSnapGo t link via s
  | .resMirHeadWrite t link queue value via => Sys2Proof.Machine.execResMirHeadWrite t link queue value via s
  | .clpHostHeadWrite t head value via => Sys2Proof.Machine.execClpHostHeadWrite t head value via s
  | .vcuHostHeadWrite t link ctx value via => Sys2Proof.Machine.execVcuHostHeadWrite t link ctx value via s
  | .tbcHostHeadWrite t link head value via => Sys2Proof.Machine.execTbcHostHeadWrite t link head value via s
  | .evrSwFire t value => Sys2Proof.Machine.execEvrSwFire t value s
  | .dmaDoorbell t value => Sys2Proof.Machine.execDmaDoorbell t value s
  | .swBlockReset t value => Sys2Proof.Machine.execSwBlockReset t value s
  | .swSystemReset t value => Sys2Proof.Machine.execSwSystemReset t value s
  | .swChipReset t value => Sys2Proof.Machine.execSwChipReset t value s
  | .sequenceHoldTimeout t => Sys2Proof.Machine.execSequenceHoldTimeout t s
  | .sessionIdleTimeout t => Sys2Proof.Machine.execSessionIdleTimeout t s
  | .leaseEnd t => Sys2Proof.Machine.execLeaseEnd t s
  | .sessionOpenKeepEnd t => Sys2Proof.Machine.execSessionOpenKeepEnd t s
  | .applyAtDue t => Sys2Proof.Machine.execApplyAtDue t s
  | .drainComplete t => Sys2Proof.Machine.execDrainComplete t s
  | .drainLimit t => Sys2Proof.Machine.execDrainLimit t s
  | .faultHoldExpiry t => Sys2Proof.Machine.execFaultHoldExpiry t s
  | .line t pk => Sys2Proof.Machine.execLine t pk s
  | .frameStart t pk => Sys2Proof.Machine.execFrameStart t pk s
  | .frameEnd t pk => Sys2Proof.Machine.execFrameEnd t pk s
  | .metadata t pk => Sys2Proof.Machine.execMetadata t pk s
  | .regEcho t pk => Sys2Proof.Machine.execRegEcho t pk s
  | .echo t port tag turn rx => Sys2Proof.Machine.execEcho t port tag turn rx s
  | .laneAck t port state rate fec rx => Sys2Proof.Machine.execLaneAck t port state rate fec rx s
  | .feCaptureTimeout t stream => Sys2Proof.Machine.execFeCaptureTimeout t stream s
  | .portUp t port b => Sys2Proof.Machine.execPortUp t port b s
  | .bringupTimeout t port skew => Sys2Proof.Machine.execBringupTimeout t port skew s
  | .linkDown t port why => Sys2Proof.Machine.execLinkDown t port why s
  | .bringupRetry t port => Sys2Proof.Machine.execBringupRetry t port s
  | .regEchoTimeout t port => Sys2Proof.Machine.execRegEchoTimeout t port s
  | .echoTimeout t port => Sys2Proof.Machine.execEchoTimeout t port s
  | .timeMessageDue t port => Sys2Proof.Machine.execTimeMessageDue t port s
  | .qualityUpdate t port q => Sys2Proof.Machine.execQualityUpdate t port q s
  | .recalPeriod t port lane => Sys2Proof.Machine.execRecalPeriod t port lane s
  | .calCandidateReady t port mseq pred coefs => Sys2Proof.Machine.execCalCandidateReady t port mseq pred coefs s
  | .coefCommit t port corrected => Sys2Proof.Machine.execCoefCommit t port corrected s
  | .coefRevertCheck t port qf => Sys2Proof.Machine.execCoefRevertCheck t port qf s
  | .provisionalRemeasure t kind unit lane qf => Sys2Proof.Machine.execProvisionalRemeasure t kind unit lane qf s
  | .eyeScanDone t port points => Sys2Proof.Machine.execEyeScanDone t port points s
  | .laneStandbyTime t port => Sys2Proof.Machine.execLaneStandbyTime t port s
  | .laneDormantTime t port => Sys2Proof.Machine.execLaneDormantTime t port s
  | .encoderEdge t axis a b => Sys2Proof.Machine.execEncoderEdge t axis a b s
  | .zEdge t z => Sys2Proof.Machine.execZEdge t z s
  | .serialSample t axis => Sys2Proof.Machine.execSerialSample t axis s
  | .serialFrame t axis f => Sys2Proof.Machine.execSerialFrame t axis f s
  | .axisFaultExit t axis => Sys2Proof.Machine.execAxisFaultExit t axis s
  | .observerUpdate t axis => Sys2Proof.Machine.execObserverUpdate t axis s
  | .motionStop t axis => Sys2Proof.Machine.execMotionStop t axis s
  | .tick t gen n fwd => Sys2Proof.Machine.execTick t gen n fwd s
  | .exposureLatch t gen => Sys2Proof.Machine.execExposureLatch t gen s
  | .matchEv t ch k fwd => Sys2Proof.Machine.execMatch t ch k fwd s
  | .cmpPulseEnd t ch => Sys2Proof.Machine.execCmpPulseEnd t ch s
  | .latchInputEdge t latch rising => Sys2Proof.Machine.execLatchInputEdge t latch rising s
  | .ptpMessage t m => Sys2Proof.Machine.execPtpMessage t m s
  | .ptpTxDue t kind => Sys2Proof.Machine.execPtpTxDue t kind s
  | .ppsInEdge t => Sys2Proof.Machine.execPpsInEdge t s
  | .sourceLoss t => Sys2Proof.Machine.execSourceLoss t s
  | .ppsOutEdge t rise => Sys2Proof.Machine.execPpsOutEdge t rise s
  | .fire t k => Sys2Proof.Machine.execFire t k s
  | .tioCapture t k rising => Sys2Proof.Machine.execTioCapture t k rising s
  | .webLineArrival t cluster verify => Sys2Proof.Machine.execWebLineArrival t cluster verify s
  | .lineAnalysed t cluster verify poison => Sys2Proof.Machine.execLineAnalysed t cluster verify poison s
  | .classifyDone t cluster poison => Sys2Proof.Machine.execClassifyDone t cluster poison s
  | .recordWritten t => Sys2Proof.Machine.execRecordWritten t s
  | .clusterGate t cluster => Sys2Proof.Machine.execClusterGate t cluster s
  | .clusterHang t cluster => Sys2Proof.Machine.execClusterHang t cluster s
  | .markDecision t => Sys2Proof.Machine.execMarkDecision t s
  | .fireInstant t head j fwd => Sys2Proof.Machine.execFireInstant t head j fwd s
  | .preheatStart t head j => Sys2Proof.Machine.execPreheatStart t head j s
  | .markFetchDone t head count poison => Sys2Proof.Machine.execMarkFetchDone t head count poison s
  | .ldackChange t level => Sys2Proof.Machine.execLdackChange t level s
  | .revreqRelease t => Sys2Proof.Machine.execRevreqRelease t s
  | .stopTimeout t => Sys2Proof.Machine.execStopTimeout t s
  | .slowreqRelease t => Sys2Proof.Machine.execSlowreqRelease t s
  | .headTempRead t head ok word => Sys2Proof.Machine.execHeadTempRead t head ok word s
  | .enSettleEnd t head => Sys2Proof.Machine.execEnSettleEnd t head s
  | .serviceFireTick t head => Sys2Proof.Machine.execServiceFireTick t head s
  | .clpFrameDone t ctx poison => Sys2Proof.Machine.execClpFrameDone t ctx poison s
  | .liveViewFrame t ctx => Sys2Proof.Machine.execLiveViewFrame t ctx s
  | .st2110PacketDue t sender => Sys2Proof.Machine.execSt2110PacketDue t sender s
  | .vcuSliceDone t ctx e d poison => Sys2Proof.Machine.execVcuSliceDone t ctx e d poison s
  | .tbcLineDone t bad => Sys2Proof.Machine.execTbcLineDone t bad s
  | .pendingDelivery t task => Sys2Proof.Machine.execPendingDelivery t task s
  | .dmaTransferDone t c ok n m => Sys2Proof.Machine.execDmaTransferDone t c ok n m s
  | .dmaRetryWait t c => Sys2Proof.Machine.execDmaRetryWait t c s
  | .descriptorComplete t c => Sys2Proof.Machine.execDescriptorComplete t c s
  | .fenceDone t c ok => Sys2Proof.Machine.execFenceDone t c ok s
  | .patrolScrub t es => Sys2Proof.Machine.execPatrolScrub t es s
  | .refreshDue t c => Sys2Proof.Machine.execRefreshDue t c s
  | .dimmTempRead t c temps => Sys2Proof.Machine.execDimmTempRead t c temps s
  | .spdHubTimeout t c => Sys2Proof.Machine.execSpdHubTimeout t c s
  | .neighbourRefresh t c => Sys2Proof.Machine.execNeighbourRefresh t c s
  | .dqsDriftRead t c drift => Sys2Proof.Machine.execDqsDriftRead t c drift s
  | .retrainSlice t c => Sys2Proof.Machine.execRetrainSlice t c s
  | .retrainComplete t c qf temp => Sys2Proof.Machine.execRetrainComplete t c qf temp s
  | .thermalSample t temps => Sys2Proof.Machine.execThermalSample t temps s
  | .throttleEscalate t => Sys2Proof.Machine.execThrottleEscalate t s
  | .throttleRestore t => Sys2Proof.Machine.execThrottleRestore t s
  | .ageingMeasure t shifts => Sys2Proof.Machine.execAgeingMeasure t shifts s
  | .marginGuard t tmm => Sys2Proof.Machine.execMarginGuard t tmm s
  | .droopEvent t rail => Sys2Proof.Machine.execDroopEvent t rail s
  | .powerEstimate t p => Sys2Proof.Machine.execPowerEstimate t p s
  | .planFormed t f => Sys2Proof.Machine.execPlanFormed t f s
  | .avsCommand t ok => Sys2Proof.Machine.execAvsCommand t ok s
  | .telemetryPoll t r => Sys2Proof.Machine.execTelemetryPoll t r s
  | .pmbAlert t r => Sys2Proof.Machine.execPmbAlert t r s
  | .sensorCrossCheck t => Sys2Proof.Machine.execSensorCrossCheck t s
  | .thermalTrip t => Sys2Proof.Machine.execThermalTrip t s
  | .thermalTripEnd t => Sys2Proof.Machine.execThermalTripEnd t s
  | .vbatPowerOn t => Sys2Proof.Machine.execVbatPowerOn t s
  | .mainPowerOn t on => Sys2Proof.Machine.execMainPowerOn t on s
  | .brownout t on => Sys2Proof.Machine.execBrownout t on s
  | .backupSwitchover t on => Sys2Proof.Machine.execBackupSwitchover t on s
  | .rstN t low => Sys2Proof.Machine.execRstN t low s
  | .watchdogExpiry t => Sys2Proof.Machine.execWatchdogExpiry t s
  | .pcieReset t l on => Sys2Proof.Machine.execPcieReset t l on s
  | .debugReset t reach wrapper keep on => Sys2Proof.Machine.execDebugReset t reach wrapper keep on s
  | .forcedRelease t => Sys2Proof.Machine.execForcedRelease t s
  | .refLost t => Sys2Proof.Machine.execRefLost t s
  | .pllUnlock t d => Sys2Proof.Machine.execPllUnlock t d s
  | .clockMonitorBad t d => Sys2Proof.Machine.execClockMonitorBad t d s
  | .clockMonitorGood t d => Sys2Proof.Machine.execClockMonitorGood t d s
  | .forwardedClockLoss t port => Sys2Proof.Machine.execForwardedClockLoss t port s
  | .xtalQualify t => Sys2Proof.Machine.execXtalQualify t s
  | .xtalFail t => Sys2Proof.Machine.execXtalFail t s
  | .deferralEnd t => Sys2Proof.Machine.execDeferralEnd t s
  | .resetRelease t => Sys2Proof.Machine.execResetRelease t s
  | .blockReset t w => Sys2Proof.Machine.execBlockReset t w s
  | .blockRelease t w => Sys2Proof.Machine.execBlockRelease t w s
  | .wrapperOpen t w => Sys2Proof.Machine.execWrapperOpen t w s
  | .sleepWake t => Sys2Proof.Machine.execSleepWake t s
  | .bootRomStart t flash factoryOk found => Sys2Proof.Machine.execBootRomStart t flash factoryOk found s
  | .dramReady t fs => Sys2Proof.Machine.execDramReady t fs s
  | .bootComplete t crcOk => Sys2Proof.Machine.execBootComplete t crcOk s
  | .trialConfirm t perst mgmt => Sys2Proof.Machine.execTrialConfirm t perst mgmt s
  | .confirmationWindowEnd t => Sys2Proof.Machine.execConfirmationWindowEnd t s
  | .recoveryReset t => Sys2Proof.Machine.execRecoveryReset t s
  | .nvsWriteComplete t ok second => Sys2Proof.Machine.execNvsWriteComplete t ok second s
  | .efusePulse t ok => Sys2Proof.Machine.execEfusePulse t ok s
  | .opcodeNotDefined h op magic frag crcOk => Sys2Proof.Machine.execOpcodeNotDefined h op magic frag crcOk s
  | .pcieLinkTrained t l => Sys2Proof.Machine.execPcieLinkTrained t l s
  | .ddrAlert t c addr persists => Sys2Proof.Machine.execDdrAlert t c addr persists s
  | .coalescingIntervalEnd t link queue => Sys2Proof.Machine.execCoalescingIntervalEnd t link queue s
  | .mainPulseEnd t head => Sys2Proof.Machine.execMainPulseEnd t head s
  | .tioPulseEnd t k => Sys2Proof.Machine.execTioPulseEnd t k s
  | .diagResetAssert t => Sys2Proof.Machine.execDiagResetAssert t s
  | .flashReady t ok => Sys2Proof.Machine.execFlashReady t ok s

end Sys2Proof.Machine
end

