-- ==== Sys2Proof/Machine/Step.lean ====
section
/-! DEFINITION. Sys2Proof/Machine/Step.lean: one step of the block: the command at the front of the queue, or a tick of 1 ns. -/

namespace Sys2Proof.Machine

/-- The time that passes in a step on an empty queue, ps (DESIGN CHOICE, log 4). -/
def tickPs : Nat := 1000

/-- The block with no command waiting: 1 ns passes, and what falls due in it happens (log 4). -/
def idle (s : State) : Host.Outcome State Fault Refusal := happen (s.now + tickPs) (fun s => s) s

/-- One step: the command at the front of the queue runs on the state with the queue's rest. -/
def step (s : State) : Host.Outcome State Fault Refusal :=
  match s.pending with
  | [] => idle s
  | i :: rest => exec i { s with pending := rest }

/-- The state with the command that a word spells put at the front of its queue. -/
def State.withFetchWord (s : State) (nbits w : Nat) : State :=
  match Sys2Proof.decodeTableWord nbits w with
  | some i => { s with pending := i :: s.pending }
  | none => s

end Sys2Proof.Machine
end

