-- ==== Sys2Proof/Safety.lean ====
section
/-! DEFINITION. Sys2Proof/Safety.lean: the terms in which claims speak of the block: what it is for a command packet to pass every check,
for a row of the table to find its block running, and for a row to have an effect. -/

namespace Sys2Proof

open Machine

/-- The outcome is a next state that `P` holds of. -/
def goesTo (o : Host.Outcome State Fault Refusal) (P : State → Prop) : Prop := ∃ t, o = .next t ∧ P t

/-- Nothing follows at once from the state as it stands. -/
def settled (s : State) : Prop := settle s = s

/-! ## Command packets -/

/-- Row `i`, a command packet that arrives at `s`, passes every check of R75 and is carried out at once: its ticket, the values of its
fields after clamping, and the state in which it was judged. -/
def judged (i : Instr) (s : State) : Option (Ticket × Vals × State) :=
  match packetOf i with
  | none => none
  | some p =>
    match p.cmd with
    | none => none
    | some c =>
      match intake i p (arrive p.h.t s) with
      | (none, _) => none
      | (some sid, u) =>
        match judge c p sid u with
        | .run vals adj => some ({ rawTicket p with session := sid, adj := adj }, vals, u)
        | .refuse .. => none
        | .queue .. => none

/-- The same with the state in which the command acts: its route is its session's, and what it causes echoes its tag (R55, R74). -/
def accepts (i : Instr) (s : State) : Option (Ticket × Vals × State) := (judged i s).map fun x => (x.1, x.2.1, acting x.1 x.2.2)

/-- The state in which the command of row `i` was judged. -/
def judgedAt (i : Instr) (s : State) : State := match judged i s with | some x => x.2.2 | none => s

/-- The class effect, which follows a command's own effect `e` (R77). -/
def classed (i : Instr) (v : Vals) (s e : State) : State :=
  match packetOf i with
  | some p => match p.cmd with
    | some c => afterClass (cmdClass c v (judgedAt i s)) e
    | none => e
  | none => e

/-- The state a row leaves once its effect is `e`: held commands that now follow in order run, what follows at once is carried out, and
the block stands at the row's instant. -/
def finished (i : Instr) (tk : Ticket) (s e : State) : State :=
  match packetOf i with
  | some p => conclude p.h.t s (settle (drainHeld 16 tk.session e))
  | none => s

/-- The command of row `i` has the effect `e` and is answered with success and the values `ps`; a reply that its transport cannot carry is
the one exception (R57). -/
def answers (i : Instr) (s : State) (tk : Ticket) (v : Vals) (u e : State) (ps : List RV) : Prop :=
  32 + (rvBytes ps).length ≤ maxPacket u tk.via →
    let r := setCause none (answer tk stOk ps (classed i v s e))
    exec i s = .next (finished i tk s (if tk.op = 1 then rememberOpen tk r else r))

/-- The command of row `i` has the effect `e`; its answer follows later, or is a part of `e`. -/
def defers (i : Instr) (s : State) (tk : Ticket) (v : Vals) (e : State) : Prop := exec i s = .next (finished i tk s (setCause none (classed i v s e)))

/-- The command of row `i` is refused with a status and the values `ps`, and has no effect of its own. -/
def declines (i : Instr) (s : State) (tk : Ticket) (status : Nat) (ps : List RV) : Prop :=
  exec i s = .next (finished i tk s (answer { tk with adj := 0, session := if tk.op = 1 then 0xFFFF else tk.session } status ps (judgedAt i s)))

/-! ## Register writes and events -/

/-- The block has run up to instant `t` as `u`, with its fast domains running and none of the wrappers `ws` closed (R571, R582). -/
def reaches (t : Nat) (ws : List Nat) (s u : State) : Prop := arrive t s = u ∧ awake u = true ∧ ∀ w ∈ ws, wrapClosed w u = false

/-- The host's links carry register writes when the block has run up to instant `t` as `u` (R49, R574). -/
def linked (t : Nat) (s u : State) : Prop := arrive t s = u ∧ u.rcp.rst = none ∧ u.dev.asleep = false

/-- Row `i` at instant `t` has the effect `e`. -/
def becomes (i : Instr) (t : Nat) (s e : State) : Prop := exec i s = .next (conclude t s (settle e))

/-! ## Checks -/

/-- The command of row `i` that has passed checks 1 to 5 as `p` on session `sid`, in state `u`, fails a later check: it is answered with a
status and the values `ps` and has no effect of its own (R75). -/
def refusedAt (i : Instr) (p : Pack) (s : State) (sid : Nat) (u : State) (status : Nat) (ps : List RV) : Prop :=
  exec i s = .next (conclude p.h.t s (settle (drainHeld 16 sid (answer (if p.op = 1 then rawTicket p else { rawTicket p with session := sid }) status ps u))))

/-- The legal values of a numeric field (R84). -/
def legalNum : Rule → Int → Prop
  | .rng lo hi, x => lo ≤ x ∧ x ≤ hi
  | .zeroOr lo hi, x => x = 0 ∨ (lo ≤ x ∧ x ≤ hi)
  | .stp lo hi k, x => lo ≤ x ∧ x ≤ hi ∧ (x - lo) % k = 0
  | .pow2 lo hi, x => x ∈ pow2s lo hi
  | .near xs, x => x ∈ xs
  | _, _ => True

/-- A numeric rule whose range is not empty. -/
def numRule : Rule → Prop
  | .rng lo hi => lo ≤ hi
  | .zeroOr lo hi => 0 < lo ∧ lo ≤ hi
  | .stp lo hi k => lo ≤ hi ∧ 0 < k
  | .pow2 lo hi => pow2s lo hi ≠ []
  | .near xs => xs ≠ []
  | _ => False

/-! ## Frames -/

/-- The commands that only report. -/
def reportsOnly : Instr → Bool
  | .heartbeat .. => true
  | .ownerQuery .. => true
  | .sessionList .. => true
  | .identify .. => true
  | .stateQuery .. => true
  | .configCheck .. => true
  | .applyList .. => true
  | .portStatus .. => true
  | .portCounters .. => true
  | .feStatus .. => true
  | .posStatus .. => true
  | .timeStatus .. => true
  | .timeRead .. => true
  | .graphCost .. => true
  | .elxStatus .. => true
  | .modelList .. => true
  | .modelInfo .. => true
  | .resultRead .. => true
  | .tileInfo .. => true
  | .mrkDotRead .. => true
  | .mrkCalRead .. => true
  | .mrkStatus .. => true
  | .mrkMissRead .. => true
  | .st2110Sdp .. => true
  | .clpStatus .. => true
  | .vcuRead .. => true
  | .vcuStatus .. => true
  | .tbcJobStatus .. => true
  | .tbcRead .. => true
  | .tbcHistoryFind .. => true
  | .tbcStatus .. => true
  | .evrStatus .. => true
  | .evrTaskStatus .. => true
  | .dmcStatus .. => true
  | .dmcEccLog .. => true
  | .dmaStatus .. => true
  | .monStatus .. => true
  | .telemetryRead .. => true
  | .calStatus .. => true
  | .errlogRead .. => true
  | .fwStatus .. => true
  | .efuseRead .. => true
  | .calRead .. => true
  | .calList .. => true
  | .storeStatus .. => true
  | _ => false

/-- Nothing of the state differs but the instant, the sessions, the kept replies, the queue pairs, the outputs, the waiting commands, the count of free values and the
note of the command that acts. -/
def sameButAnswered (t u : State) : Prop :=
  t = { u with now := t.now, dev := { u.dev with ha := t.dev.ha, sessions := t.dev.sessions, pairs := t.dev.pairs, opens := t.dev.opens, cause := t.dev.cause }, free := t.free, out := t.out, pending := t.pending }

/-- Nothing follows at once from the state, whatever its sessions, queue pairs, outputs, count of free values and note of the command that acts. -/
def calm (s : State) : Prop := ∀ ss ps os c n o, settled { s with dev := { s.dev with sessions := ss, pairs := ps, opens := os, cause := c }, free := n, out := o }

/-! ## The block held in reset -/

/-- Rows that act on the reset, the clocks or the supplies themselves; every other row finds the block held while a reset holds it. -/
def actsInReset : Instr → Bool
  | .vbatPowerOn .. => true
  | .mainPowerOn .. => true
  | .brownout .. => true
  | .backupSwitchover .. => true
  | .rstN .. => true
  | .watchdogExpiry .. => true
  | .pcieReset .. => true
  | .debugReset .. => true
  | .forcedRelease .. => true
  | .refLost .. => true
  | .pllUnlock .. => true
  | .clockMonitorBad .. => true
  | .clockMonitorGood .. => true
  | .forwardedClockLoss .. => true
  | .xtalQualify .. => true
  | .xtalFail .. => true
  | .deferralEnd .. => true
  | .resetRelease .. => true
  | .bootRomStart .. => true
  | .thermalTrip .. => true
  | .thermalTripEnd .. => true
  | _ => false

/-- A reset of System reach or wider has been entered and holds the block: no configuration, no session, no owner, no queue pair and no
work in any block (R573, R574, R586). -/
def heldReset (s : State) : Prop :=
  (∃ r, s.rcp.rst = some r ∧ r.entered ≠ 0 ∧ r.defer = none) ∧ s.rcp.wraps = [] ∧ (∃ code, s.dev = { ha := code }) ∧ s.cfg = {} ∧ s.lnk = {} ∧ s.fep = {} ∧
    s.pos = {} ∧ s.evr = {} ∧ s.elx = {} ∧ s.models = {} ∧ s.mrk = {} ∧ s.clp = {} ∧ s.vcu = {} ∧ s.dma = {} ∧
    s.tbc.heads = [] ∧ s.tbc.strips = [] ∧ s.tbc.jobs = [] ∧ s.tbc.busy = 0 ∧ s.mon.held = none ∧ s.nvs.found = false ∧
    s.tbc.tiles = [] ∧ s.nvs.fuse = none ∧ (s.dmc.selfRef = true ∨ s.dmc.chans.all (fun e => e.2.nbr.isEmpty) = true)

/-- The block is held in reset, and no waiting row acts on the reset. -/
def resetHolds (s : State) : Prop := heldReset s ∧ ∀ c ∈ s.pending, actsInReset c = false

end Sys2Proof
end

