-- ==== Sys2Proof/Certificates/Slice0/Obligations.lean ====
section
/-! DEFINITION. Sys2Proof/Certificates/Slice0/Obligations.lean: the statements made about the block, for the provers. -/

open Sys2Proof Sys2Proof.Machine

/-! ## The machine -/

/-- One step takes the command at the front of the queue and runs it on the state with the queue's rest (one sender, first in, first out). -/
def Obligations.StepRunsFrontCommand : Prop :=
  ∀ (c : Instr) (rest : List Instr) (s : State), s.pending = c :: rest → step s = exec c { s with pending := rest }

/-- The model's choice (log 4): on an empty queue 1 ns passes, and what falls due in it happens. -/
def Obligations.EmptyQueueTicks : Prop :=
  ∀ s : State, s.pending = [] → step s = .next (conclude (s.now + 1000) s (settle (arrive (s.now + 1000) s)))

/-- Every row of the table, in every state, answers a next state. Time does not go back (log 1), and the row leaves the ordering code and
the waiting commands as they are. -/
def Obligations.EveryRowAnswers : Prop :=
  ∀ (c : Instr) (s : State), ∃ t, exec c s = .next t ∧ s.now ≤ t.now ∧ t.dev.ha = s.dev.ha ∧ t.pending = s.pending

/-- FAULT_N is asserted in FAULT, from the assertion of a reset of System reach or wider until STANDBY is reached again, and during a trip,
and at no other time; THERM_N while the warning or the trip holds. So it stands after every row, whatever stood before. -/
def Obligations.FaultAndThermPinsTellTheState : Prop :=
  ∀ (c : Instr) (s t : State), exec c s = .next t →
    t.rcp.faultN = (t.dev.state == .fault || t.rcp.rst.isSome || t.rcp.starting || t.rcp.tripped) ∧ t.rcp.thermN = (t.mon.warned || t.rcp.tripped)

/-- What reset leaves, as the reset columns and the chapters give it: device state BOOT, no session, ownership vacant, no queue pair, an
empty configuration, nothing in flight, the Full reset still held, and the registers at their reset values. -/
def Obligations.ResetLeavesTheStatedValues : Prop :=
  State.reset.dev.state = .boot ∧ State.reset.dev.sessions = [] ∧ State.reset.dev.owner = none ∧ State.reset.dev.pairs = [] ∧
  State.reset.cfg = {} ∧ State.reset.evr = {} ∧ State.reset.dma = {} ∧ State.reset.pending = [] ∧ State.reset.rcp.rst.isSome ∧
  regView State.reset 0x0 = 0x9640 ∧ regView State.reset (rcpBase + 0x08) = 0x10 ∧ regView State.reset (rcpBase + 0x10) = 0x7D0 ∧
  regView State.reset (rcpBase + 0x00) = 0 ∧ regView State.reset (rcpBase + 0x20) = 0 ∧ regView State.reset (tmuBase + 0x08) = 0 ∧
  regView State.reset (tmuBase + 0x0C) = 1 ∧ regView State.reset (monBase + 0x08) = 0x8000 ∧ regView State.reset (nvsBase + 0x04) = 0 ∧
  regView State.reset (evrBase + 0x04) = 0 ∧ regView State.reset (dmaBase + 0x10) = 0 ∧ regView State.reset (posBase + 0x10) = 0

/-! ## The block held in reset -/

/-- At reset the block is held in reset. -/
def Obligations.ResetHoldsAtReset : Prop := resetHolds State.reset

/-- A reset that holds the block goes on holding it: while the rows that wait do not act on the reset, the clocks or the supplies, each step
(a command, a register write, an event, or the passing of time) leaves every block without work, session, owner, queue pair or
configuration, and leaves every register of the file, the stores, the monitors and DRAM as they are. -/
def Obligations.HeldResetGoesOnHolding : Prop :=
  ∀ s t : State, resetHolds s → step s = .next t →
    resetHolds t ∧ t.regs = s.regs ∧ t.nvs = s.nvs ∧ t.mon = s.mon ∧ t.dmc = s.dmc ∧ t.res = s.res ∧ t.rcp.rst = s.rcp.rst

/-- No command packet has an effect from the assertion of a reset of System reach or wider, or in SLEEP: the links are down. -/
def Obligations.PacketsFallOnDeadLinks : Prop :=
  ∀ (i : Instr) (p : Pack) (s : State), packetOf i = some p → ((arrive p.h.t s).rcp.rst.isSome ∨ (arrive p.h.t s).dev.asleep = true) →
    exec i s = .next (conclude p.h.t s (settle (arrive p.h.t s)))

/-! ## Packets -/

/-- The check words of the packets: the check value that the manual gives for CRC-32C. -/
def Obligations.Crc32cCheckValue : Prop :=
  crc32c [0x31, 0x32, 0x33, 0x34, 0x35, 0x36, 0x37, 0x38, 0x39] = 0xE3069283

/-- Two packets that differ in one byte have different check words, wherever the byte stands and however long they are. -/
def Obligations.OneWrongByteIsAlwaysDetected : Prop :=
  ∀ (a b : List Nat) (x y : Nat), x < 256 → y < 256 → x ≠ y → crc32c (a ++ x :: b) ≠ crc32c (a ++ y :: b)

/-- The layout of a reply or a notification: the 32-byte header, field by field, then the parameter area, a multiple of 4 bytes long, with
the check word over header bytes 0 to 27 and the area. -/
def Obligations.ReplyLayout : Prop :=
  ∀ r : Reply, let b := packetBytes r
    leAt b 0 2 = 0x4B44 ∧ leAt b 2 1 = 1 ∧ leAt b 3 1 = (if r.note then 9 else 1) ∧ leAt b 4 2 = r.op % 2 ^ 16 ∧ leAt b 6 2 = r.session % 2 ^ 16 ∧
    leAt b 8 4 = r.seq % 2 ^ 32 ∧ leAt b 12 4 = r.tag % 2 ^ 32 ∧ leAt b 16 4 = (rvBytes r.ps).length % 2 ^ 32 ∧ leAt b 20 2 = r.status % 2 ^ 16 ∧
    leAt b 22 1 = r.state % 256 ∧ leAt b 23 1 = 0 ∧ leAt b 24 4 = r.adj % 2 ^ 32 ∧ leAt b 28 4 = crc32c (b.take 28 ++ b.drop 32) ∧
    b.drop 32 = rvBytes r.ps ∧ (rvBytes r.ps).length % 4 = 0

/-- Checks 1 to 5: a packet with a bad MAGIC or cut into fragments is discarded without a reply; the first of VERSION, PARAM_LEN, CRC, the
transport's size and SESSION that fails names the status, and nothing is consumed. -/
def Obligations.ChecksOneToFive : Prop :=
  (∀ h op magic frag crcOk s u, magic ≠ 0x4B44 ∨ frag = true → fetch h.via (arrive h.t s) = some u →
    exec (.opcodeNotDefined h op magic frag crcOk) s = .next (conclude h.t s (settle u))) ∧
  (∀ (i : Instr) (p : Pack) (c : Cmd) (s u : State), packetOf i = some p → p.cmd = some c → fetch p.h.via (arrive p.h.t s) = some u →
    let no := fun (status : Nat) => exec i s = .next (conclude p.h.t s (settle (refuseRaw (rawTicket p) status [] u)))
    let short := p.h.paramLen % 4 ≠ 0 ∨ p.h.paramLen + 32 ≠ recvLen p.h
    (p.h.version ≠ 1 → no 0x8001) ∧
    (p.h.version = 1 → short → no 0x8002) ∧
    (p.h.version = 1 → ¬ short → crcGood p u = false → no 0x8003) ∧
    (p.h.version = 1 → ¬ short → crcGood p u = true → maxPacket u p.h.via < recvLen p.h → no 0x800C) ∧
    (p.h.version = 1 → ¬ short → crcGood p u = true → recvLen p.h ≤ maxPacket u p.h.via →
      (p.op ≠ 1 → sess u p.h.session = none → no 0x8004) ∧ (p.op = 1 → p.h.session ≠ 0xFFFF → no 0x8004)))

/-- The sequence of a session: the next number is consumed and goes on to the further checks; numbers up to 16 ahead are held for 100 ms;
the last 16 are duplicates, whose retained reply is sent again, while one whose reply is still awaited gets none (log 199); any other is
refused with the number expected next. -/
def Obligations.SequenceNumbers : Prop :=
  ∀ (i : Instr) (p : Pack) (s : State) (x : Sess), sess s p.h.session = some x → x.seq < 2 ^ 32 → p.h.seq < 2 ^ 32 →
    let d := (p.h.seq + 2 ^ 32 - x.seq) % 2 ^ 32
    (d = 1 → (sequence i p s).1 = some p.h.session ∧ ∃ y, sess (sequence i p s).2 p.h.session = some y ∧ y.seq = p.h.seq ∧ y.last = s.now) ∧
    (2 ≤ d ∧ d ≤ 16 → (sequence i p s).1 = none ∧ ∃ y, sess (sequence i p s).2 p.h.session = some y ∧ y.seq = x.seq ∧
      (∃ e ∈ y.held, e.2.2.seq = p.h.seq ∧ (e ∈ x.held ∨ e.1 = s.now + 100 * ms))) ∧
    (d = 0 ∨ 2 ^ 32 - 15 ≤ d → (sequence i p s).1 = none ∧
      (∀ r, (x.kept.find? fun e => e.1 == p.h.seq) = some (p.h.seq, some r) → (sequence i p s).2 = resend p.h.via (bit p.h.flags 2) r s) ∧
      ((x.kept.find? fun e => e.1 == p.h.seq) = some (p.h.seq, none) → (sequence i p s).2 = s) ∧
      ((x.kept.find? fun e => e.1 == p.h.seq) = none → (sequence i p s).2 = refuseRaw (rawTicket p) 0x8005 [u32 ((x.seq + 1) % 2 ^ 32)] s)) ∧
    (16 < d ∧ d < 2 ^ 32 - 15 →
      sequence i p s = (none, refuseRaw (rawTicket p) 0x8005 [u32 ((x.seq + 1) % 2 ^ 32)] s))

/-- Checks 6 to 10: an opcode that is not defined, an owner-only command of another session, a state that does not allow the command, an
absent instance and a bad field are refused with the status of the first check that fails; in BOOT, where nobody can own the device, a
command that is not answered there is E_STATE whoever sends it. Between the ownership and the state checks stands the window of an ARM in
progress, in which the commands that the manual lists are E_BUSY (log 71). After them comes a command whose block is in reset: E_BUSY. -/
def Obligations.ChecksSixToTen : Prop :=
  (∀ h op crcOk s sid u, opcodes.contains op = false →
    intake (.opcodeNotDefined h op 0x4B44 false crcOk) (rawPack h op 0x4B44 false crcOk) (arrive h.t s) = (some sid, u) →
    refusedAt (.opcodeNotDefined h op 0x4B44 false crcOk) (rawPack h op 0x4B44 false crcOk) s sid u 0x8006 []) ∧
  (∀ (i : Instr) (p : Pack) (c : Cmd) (s : State) (sid : Nat) (u : State), packetOf i = some p → p.cmd = some c →
    intake i p (arrive p.h.t s) = (some sid, u) →
    (u.dev.state = .boot → c.legal.contains .boot = false → refusedAt i p s sid u 0x8008 []) ∧
    ((u.dev.state = .boot → c.legal.contains .boot = true) → c.owner = true → u.dev.owner ≠ some sid → refusedAt i p s sid u 0x8007 []) ∧
    ((u.dev.state = .boot → c.legal.contains .boot = true) → (c.owner = true → u.dev.owner = some sid) → armHolds c u = true → refusedAt i p s sid u 0x8010 []) ∧
    ((u.dev.state = .boot → c.legal.contains .boot = true) → (c.owner = true → u.dev.owner = some sid) → armHolds c u = false → legalNow c p.h u = false → refusedAt i p s sid u 0x8008 []) ∧
    ((u.dev.state = .boot → c.legal.contains .boot = true) → (c.owner = true → u.dev.owner = some sid) → armHolds c u = false → legalNow c p.h u = true →
      ∀ n, firstAbsent c p.h u = some n → refusedAt i p s sid u 0x8009 [u32 n]) ∧
    ((u.dev.state = .boot → c.legal.contains .boot = true) → (c.owner = true → u.dev.owner = some sid) → armHolds c u = false → legalNow c p.h u = true → firstAbsent c p.h u = none →
      packetBad c p.h u = true → refusedAt i p s sid u 0x800A []) ∧
    ((u.dev.state = .boot → c.legal.contains .boot = true) → (c.owner = true → u.dev.owner = some sid) → armHolds c u = false → legalNow c p.h u = true →
      firstAbsent c p.h u = none → packetBad c p.h u = false → blockShut c ((c.flds u).map clampFld) u = true → refusedAt i p s sid u 0x8010 []))

/-- A numeric parameter outside its legal range, or between two legal values of a stepped range, moves to the nearest legal value, and of two
that are equally near to the one of smaller magnitude; a legal value stays. The command that is carried out with a moved parameter is
answered with ST_CLAMPED. In a field whose 0 takes a default, every other value is clamped as in a plain range. -/
def Obligations.ClampedToTheNearestLegalValue : Prop :=
  (∀ (r : Rule) (x : Int), numRule r →
    legalNum r (clampElem r x) ∧ (legalNum r x → clampElem r x = x) ∧
    ∀ y, legalNum r y → (x - clampElem r x).natAbs < (x - y).natAbs ∨
      ((x - clampElem r x).natAbs = (x - y).natAbs ∧ (clampElem r x).natAbs ≤ y.natAbs)) ∧
  (∀ lo hi x, x ≠ 0 → clampElem (.dflt lo hi) x = clampElem (.rng lo hi) x) ∧
  (∀ (tk : Ticket) (ps : List RV) (s : State) (x : Sess), sess s tk.session = some x → tk.queued = false → tk.adj ≠ 0 →
    ∃ y r, sess (answer tk stOk ps s) tk.session = some y ∧ y.kept.head? = some (tk.seq, some r) ∧ r.status = 0x0001)

/-- Bit n of ADJUSTED is set exactly when field n, counted from 0 in the order of the command table, was moved in any of its elements; the
apply-at block is no field; no command has more than 32 fields; and the reply carries the mask. -/
def Obligations.AdjustedNamesTheMovedFields : Prop :=
  (∀ (tk : Ticket) (ps : List RV) (s : State) (x : Sess), sess s tk.session = some x → tk.queued = false →
    ∃ y r, sess (answer tk stOk ps s) tk.session = some y ∧ y.kept.head? = some (tk.seq, some r) ∧ r.adj = tk.adj) ∧
  ∀ (i : Instr) (p : Pack) (c : Cmd) (s0 : State) (tk : Ticket) (v : Vals) (u : State), packetOf i = some p → p.cmd = some c →
    accepts i s0 = some (tk, v, u) →
    (c.flds u).length ≤ 32 ∧ v = (c.flds u).map clampFld ∧
    ∀ n, tk.adj.testBit n = true ↔ ∃ f, (c.flds u)[n]? = some f ∧ clampFld f ≠ f.xs

/-- A reply or an answer to a queued command touches the sessions, the queue pairs, the record of outputs and, of the interrupt flags,
none: the configuration, every block's work and every register stay. -/
def Obligations.AnswersTouchOnlySessionsAndRings : Prop :=
  ∀ (tk : Ticket) (status : Nat) (ps : List RV) (s : State), let t := answer tk status ps s
    t = { s with dev := { s.dev with sessions := t.dev.sessions, pairs := t.dev.pairs }, out := t.out } ∧
    (∀ n, n ≠ tk.session → sess t n = sess s n)

/-! ## Sessions and ownership -/

/-- Sessions are numbered 0 to 0x7FF. SESSION_OPEN takes the lowest free number; with none free it is refused with E_SESSIONS. -/
def Obligations.LowestFreeSession : Prop :=
  ∀ hd p0 s0 tk v u, accepts (.sessionOpen hd p0) s0 = some (tk, v, u) →
    (∀ n, n < 2048 → sess u n = none → (∀ m, m < n → (sess u m).isSome) →
      tk.session = n ∧ answers (.sessionOpen hd p0) s0 tk v u
        (setDev (fun d => { d with sessions := tabPut d.sessions n ({ quiet := bit (ofSessionOpen v).flags 0, idle := (ofSessionOpen v).idle, last := u.now, via := tk.via, kept := [(0, none)] } : Sess) }) u)
        [u16 n, u32 (devStep u)]) ∧
    ((∀ m, m < 2048 → (sess u m).isSome) → declines (.sessionOpen hd p0) s0 tk 0x800D [])

/-- Ownership after CLAIM, TRANSFER, RELEASE and the owner's SESSION_CLOSE: the owner and the end of the lease. -/
def Obligations.OwnershipMoves : Prop :=
  (∀ sid lease s, s.dev.owner = none ∨ s.dev.owner = some sid →
    ∃ e, claimFor sid lease s = some e ∧ e.dev.owner = some sid ∧ e.dev.leaseEnd = s.now + lease * ms) ∧
  (∀ sid lease s o, s.dev.owner = some o → o ≠ sid → claimFor sid lease s = none) ∧
  (∀ sid lease s, (grant sid lease s).dev.owner = some sid ∧ (grant sid lease s).dev.leaseEnd = s.now + lease * ms) ∧
  (∀ cause s, (vacate cause s).dev.owner = none) ∧
  (∀ sid s, s.dev.owner = some sid → (closeSess sid s).dev.owner = none ∧ sess (closeSess sid s) sid = none) ∧
  (∀ sid seq s, s.dev.owner = some sid → (consume sid seq s).dev.leaseEnd = s.now + s.dev.lease * ms)

/-! ## Registers -/

/-- Counters of the register file saturate at 0xFFFF_FFFF; nothing else of the state changes. -/
def Obligations.CountersSaturate : Prop :=
  ∀ (a n : Nat) (s : State), rget a (bump a n s) = min (rget a s + n) 0xFFFFFFFF ∧ (∀ b, b ≠ a → rget b (bump a n s) = rget b s) ∧
    { bump a n s with regs := s.regs } = s

/-- W1C: a 1 clears the bit, a 0 leaves it; bits outside the field stay, and so do every other register and the rest of the state. -/
def Obligations.WriteOneClears : Prop :=
  ∀ (a mask : Nat) (w : RegWr) (s : State), rget a s < 2 ^ 32 →
    (∀ i, bit (rget a (w1c a mask w s)) i = (bit (rget a s) i && ! (bit w.ones i && bit mask i))) ∧
    (∀ b, b ≠ a → rget b (w1c a mask w s) = rget b s) ∧ { w1c a mask w s with regs := s.regs } = s

/-- CNT_CLEAR of a camera port sets every counter of the port to 0 and nothing else, from the owning session's window or, through BAR0,
while ownership is vacant; otherwise it has no effect. -/
def Obligations.CounterClearNeedsTheOwner : Prop :=
  (∀ p, (regWriteCmd p).owner = true) ∧
  ∀ (n : Nat) (s : State), n < 16 → present 16 n s = true → wrapClosed n s = false →
    (∀ via v, s.dev.owner.isSome → barWrite via (cptBase n + 0x80) v s = s) ∧
    (∀ w : RegWr, (w.window = true ∨ s.dev.owner = none) → bit w.ones 0 = true →
      (∀ a, cptBase n + 0x40 ≤ a → a < cptBase n + 0x6C → rget a (regWrite (cptBase n + 0x80) w s) = 0) ∧
      (∀ a, a < cptBase n + 0x40 ∨ cptBase n + 0x6C ≤ a → rget a (regWrite (cptBase n + 0x80) w s) = rget a s) ∧
      { regWrite (cptBase n + 0x80) w s with regs := s.regs } = s)

/-- A read of an address in no block's range gives 0, and a write to it has no effect. -/
def Obligations.UnmappedAddressesReadZero : Prop :=
  ∀ (a via v : Nat) (s : State), (a / 0x10000) ∉ ([0x00, 0x10, 0x20, 0x30, 0x40, 0x50, 0x60, 0xA0, 0xC0, 0xE0, 0xF0, 0x100, 0x110, 0x120, 0x130, 0x150, 0x160] : List Nat) →
    ¬ (0x80 ≤ a / 0x10000 ∧ a / 0x10000 < 0x90) → regView s a = 0 ∧ barWrite via a v s = s

/-! ## Memory, positions, latches and events -/

/-- The byte memories in DRAM: what was written is read back, every other byte stays, and the canonical form is kept. -/
def Obligations.BytesWrittenAreReadBack : Prop :=
  ∀ (m : Tab Nat) (a : Nat) (bs : List Nat), (∀ b ∈ bs, b < 256) →
    memRead (memWrite m a bs) a bs.length = bs ∧ (∀ x, x < a ∨ a + bs.length ≤ x → memByte (memWrite m a bs) x = memByte m x) ∧
    (Memory.wf m = true → Memory.wf (memWrite m a bs) = true)

/-- A quadrature axis that runs: an accepted transition of A or of B moves the count by 1 in the direction of the sequence, mirrored by
INVERT; when both change, the count stays and ILLEGAL counts. That A leads B as the count rises is the model's choice (log 14). -/
def Obligations.QuadratureCounts : Prop :=
  ∀ (n : Nat) (a b : Bool) (s : State), n < s.pos.axes.length → (axis s n).state = 1 → (encCfg s n).type = 1 →
    ((axis s n).la = a ∧ (axis s n).lb = b → (axis (encoderEdge n a b s) n).count = (axis s n).count) ∧
    ((axis s n).la ≠ a ∧ (axis s n).lb ≠ b → (axis (encoderEdge n a b s) n).count = (axis s n).count ∧
      (axis (encoderEdge n a b s) n).illegal = min ((axis s n).illegal + 1) 0xFFFFFFFF) ∧
    (((axis s n).la ≠ a ∧ (axis s n).lb = b) ∨ ((axis s n).la = a ∧ (axis s n).lb ≠ b) →
      (axis (encoderEdge n a b s) n).count = (axis s n).count +
        (if (encCfg s n).invert = 1 then - quadStep (axis s n).la (axis s n).lb a b else quadStep (axis s n).la (axis s n).lb a b)) ∧
    (quadStep false false true false = 1 ∧ quadStep true false true true = 1 ∧ quadStep true true false true = 1 ∧ quadStep false true false false = 1 ∧
      quadStep true false false false = -1 ∧ quadStep true true true false = -1 ∧ quadStep false true true true = -1 ∧ quadStep false false false true = -1)

/-- A latch holds 16 captures: one more is discarded, counted in LAT_OVFL and flagged, and the captures held stay; LATCH_READ empties it. -/
def Obligations.LatchHoldsSixteen : Prop :=
  (∀ (l : Nat) (s : State), let f := ((tabGet s.pos.latch l).getD {}); let g := ((tabGet (storeCapture l s).2.pos.latch l).getD {})
    (f.fifo.length < 16 → ∃ c, g.fifo = f.fifo ++ [c] ∧ g.ovfl = f.ovfl) ∧
    (16 ≤ f.fifo.length → g.fifo = f.fifo ∧ g.ovfl = min (f.ovfl + 1) 0xFFFFFFFF ∧
      bit (rget (posBase + 0x10 + 4 * (match tabGet s.cfg.latches l with | some c => c.axis | none => 0)) (storeCapture l s).2) 5 = true)) ∧
  (∀ hd p0 s0 tk v s, accepts (.latchRead hd p0) s0 = some (tk, v, s) →
    let p := ofLatchRead v
    let f := (tabGet s.pos.latch p.latch).getD {}
    answers (.latchRead hd p0) s0 tk v s { s with pos := { s.pos with latch := tabPut s.pos.latch p.latch { f with fifo := f.fifo.drop p.max } } }
      ((f.fifo.take p.max).flatMap fun c => [.align 8, u64 (toUnsigned 48 c.count), u16 c.frac, s64 c.md, u64 c.sec, u32 c.ns, .align 8]))

/-- A channel about to publish an event whose origin tag names it drops it where LOOP_OK is 0: EVR_LOOP and the LOOP flag are set,
EVR_LOOP_TOTAL counts, EVR_CNT of the channel does not, and nothing goes to its tasks. With LOOP_OK 1, or another origin, it publishes (a
second event of one cycle joins the first). A source is put to every enabled channel that selects it, each by this rule. -/
def Obligations.LoopRule : Prop :=
  ∀ (origin : Option Nat) (s : State) (c : PEvrChannel), c.ch < 256 →
    (origin = some c.ch → c.loopOk = 0 →
      bit (rget (evrBase + 0x140 + c.ch / 32 * 4) (publishOn origin s c)) (c.ch % 32) = true ∧
      bit (rget (evrBase + 0x04) (publishOn origin s c)) 0 = true ∧
      rget (evrBase + 0x0C) (publishOn origin s c) = min (rget (evrBase + 0x0C) s + 1) 0xFFFFFFFF ∧
      rget (evrBase + 0x1000 + c.ch * 4) (publishOn origin s c) = rget (evrBase + 0x1000 + c.ch * 4) s ∧
      (publishOn origin s c).evr = s.evr) ∧
    (¬ (origin = some c.ch ∧ c.loopOk = 0) → tabGet s.evr.lastPub c.ch ≠ some (sysCycle s) →
      rget (evrBase + 0x1000 + c.ch * 4) (publishOn origin s c) = min (rget (evrBase + 0x1000 + c.ch * 4) s + 1) 0xFFFFFFFF ∧
      bit (rget (evrBase + 0x100 + c.ch / 32 * 4) (publishOn origin s c)) (c.ch % 32) = true ∧
      ∀ k ∈ (c.tasks.take c.forks), k ≠ 0xFFFF → ⟨sysCycle s + 2, k, origin.getD c.ch, c.ch⟩ ∈ (publishOn origin s c).evr.flight) ∧
    (¬ (origin = some c.ch ∧ c.loopOk = 0) → tabGet s.evr.lastPub c.ch = some (sysCycle s) →
      publishOn origin s c = { s with evr := { s.evr with flight := s.evr.flight.map (mergeTag c.ch (sysCycle s) (origin.getD c.ch)) } }) ∧
    ∀ src, wrapClosed (srcWrap src) s = false → wrapClosed 36 s = false →
      publishFrom origin src s = ((s.cfg.chans.map fun e => e.2).filter fun c => c.enable = 1 && c.source = src).foldl (publishOn origin) (emit (.event src) s)

/-- A command that only reports leaves the configuration, every block's work, every register, the stores, the owner and the device state as
they were when it was carried out: only the sender's session, its queue pair, the count of free values and the outputs change. Held commands and what follows at once
from the state are told apart by the hypotheses. -/
def Obligations.ReportsLeaveTheBlock : Prop :=
  ∀ (i : Instr) (s0 : State) (tk : Ticket) (v : Vals) (u : State), reportsOnly i = true → accepts i s0 = some (tk, v, u) → calm u →
    (∀ x, sess u tk.session = some x → x.held = []) → ∃ t, exec i s0 = .next t ∧ sameButAnswered t u

/-! ## What each command does

Each clause is one row: an accepted command (`accepts`) is carried out with the effect given, and answered (`answers`), answered later
(`defers`) or refused for the reason given (`declines`). The effect is an equation for the whole next state, so it is the frame as well. -/

/-- What every command of family 0x00 (sessions, ownership and queue pairs) does once it is accepted (02_command_interface.md). -/
def Obligations.SessionCommandsComplete : Prop :=
  (-- SESSION_OPEN (R96): Opens a session with the lowest free ID, or re-sends the kept reply for a repeated TAG from the same source.
   ∀ hd p0 s0 tk v s, accepts (.sessionOpen hd p0) s0 = some (tk, v, s) →
     let p := ofSessionOpen v
     ((sess s tk.session).isSome ∨ 2048 ≤ tk.session → declines (.sessionOpen hd p0) s0 tk eSessions []) ∧
     (¬ ((sess s tk.session).isSome ∨ 2048 ≤ tk.session) →
       let x : Sess := { quiet := bit p.flags 0, idle := p.idle, last := s.now, via := tk.via, kept := [(0, none)] }
       answers (.sessionOpen hd p0) s0 tk v s (setDev (fun d => { d with sessions := tabPut d.sessions tk.session x }) s) [u16 tk.session, u32 (devStep s)])) ∧
  (-- SESSION_CLOSE (R97): Closes the sending session, ending its subscriptions and vacating ownership if it owned the device.
   ∀ hd s0 tk v s, accepts (.sessionClose hd) s0 = some (tk, v, s) →
     answers (.sessionClose hd) s0 tk v s (closeSess tk.session s) []) ∧
  (-- HEARTBEAT (R97): Keeps the session open and returns the owner and the lease left.
   ∀ hd s0 tk v s, accepts (.heartbeat hd) s0 = some (tk, v, s) →
     answers (.heartbeat hd) s0 tk v s s (ownerPs s)) ∧
  (-- CLAIM (R99): Takes or renews ownership with a lease, or is refused with the owner and the remaining lease.
   ∀ hd p0 s0 tk v u, accepts (.claim hd p0) s0 = some (tk, v, u) →
     let p := ofClaim v
     let s := u
     (match claimFor tk.session p.lease s with
       | some s => answers (.claim hd p0) s0 tk v u s [u32 p.lease]
       | none => declines (.claim hd p0) s0 tk eOwner (ownerPs s))) ∧
  (-- RELEASE (R102): The owner gives up ownership, which becomes vacant.
   ∀ hd s0 tk v s, accepts (.release hd) s0 = some (tk, v, s) →
     answers (.release hd) s0 tk v s (vacate 2 s) []) ∧
  (-- TRANSFER (R102): Moves ownership to a named open session with a fresh lease.
   ∀ hd p0 s0 tk v s, accepts (.transfer hd p0) s0 = some (tk, v, s) →
     let p := ofTransfer v
     ((sess s p.target).isNone → declines (.transfer hd p0) s0 tk eSession []) ∧
     ((sess s p.target).isSome →
       answers (.transfer hd p0) s0 tk v s ((if s.dev.owner = some p.target then ownerNote 1 else ownerNotify 1) (grant p.target p.lease s)) [])) ∧
  (-- OWNER_QUERY (R111): Returns the owner ID and the lease left.
   ∀ hd s0 tk v s, accepts (.ownerQuery hd) s0 = some (tk, v, s) →
     answers (.ownerQuery hd) s0 tk v s s (ownerPs s)) ∧
  (-- SESSION_LIST (R681): Returns open sessions from a first ID in rising order.
   ∀ hd p0 s0 tk v s, accepts (.sessionList hd p0) s0 = some (tk, v, s) →
     let p := ofSessionList v
     answers (.sessionList hd p0) s0 tk v s s (((s.dev.sessions.filter fun e => decide (p.first ≤ e.1)).take p.count).flatMap fun e => [.align 4, u16 e.1, u8 (viaCode e.2.via), u8 0, u32 (idleLeft s e.2)])) ∧
  (-- QUEUE_CREATE (R111): Creates PCIe queue pair 1 to 63 on a host link with its rings and notification area.
   ∀ hd p0 s0 tk v s, accepts (.queueCreate hd p0) s0 = some (tk, v, s) →
     let p := ofQueueCreate v
     (pairLink p.link tk.via = none →
       declines (.queueCreate hd p0) s0 tk eParam []) ∧
     (∀ l, pairLink p.link tk.via = some l →
       (! s.dev.trained.contains l → declines (.queueCreate hd p0) s0 tk eParam []) ∧
       (s.dev.trained.contains l →
         ((qpair s l p.pair).isSome → declines (.queueCreate hd p0) s0 tk eBusy []) ∧
         ((qpair s l p.pair).isNone →
           answers (.queueCreate hd p0) s0 tk v s (setDev (fun d => { d with pairs := tabPut d.pairs (pairKey l p.pair) { entries := p.entries, sq := p.sq, cq := p.cq, area := p.area } }) s) [])))) ∧
  (-- QUEUE_DELETE (R111): Deletes a queue pair after writing its pending completions.
   ∀ hd p0 s0 tk v u, accepts (.queueDelete hd p0) s0 = some (tk, v, u) →
     let p := ofQueueDelete v
     let s := u
     (pairLink p.link tk.via = none →
       declines (.queueDelete hd p0) s0 tk eParam []) ∧
     (∀ l, pairLink p.link tk.via = some l →
       ((qpair s l p.pair).isNone → declines (.queueDelete hd p0) s0 tk eParam []) ∧
       ((qpair s l p.pair).isSome →
         let s := setDev (fun d => { d with pairs := tabMod d.pairs (pairKey l p.pair) fun q => { q with closing := true } }) s
         defers (.queueDelete hd p0) s0 tk v (dropClosed l p.pair (answer tk stOk [] s))))) ∧
  (-- IDENTIFY (R111): Returns identity, stepping and firmware versions.
   ∀ hd s0 tk v s, accepts (.identify hd) s0 = some (tk, v, s) →
     answers (.identify hd) s0 tk v s s [u32 0x9640, u32 (devStep s), u8 s.nvs.running, u32 s.nvs.runVer, u32 Config.bootRomVersion]) ∧
  (-- NOTIFY_SUBSCRIBE (R105): Replaces the session's notification mask and returns the previous one.
   ∀ hd p0 s0 tk v s, accepts (.notifySubscribe hd p0) s0 = some (tk, v, s) →
     let p := ofNotifySubscribe v
     let old := match sess s tk.session with | some x => x.mask | none => 0
     answers (.notifySubscribe hd p0) s0 tk v s (setSess tk.session (fun x => { x with mask := p.mask }) s) [u32 old])

/-- What every command of family 0x01 (device state, configuration and the apply-at queue) does once it is accepted (02_command_interface.md). -/
def Obligations.DeviceStateCommandsComplete : Prop :=
  (-- STATE_QUERY (R111): Returns DEV_STATE and the count of queued commands.
   ∀ hd s0 tk v s, accepts (.stateQuery hd) s0 = some (tk, v, s) →
     answers (.stateQuery hd) s0 tk v s s [u32 (devState s), u16 s.dev.queue.length]) ∧
  (-- CONFIG_COMMIT (R112): Checks and admits the working configuration set, moving STANDBY to CONFIGURED or refusing.
   ∀ hd s0 tk v s, accepts (.configCommit hd) s0 = some (tk, v, s) →
     (∀ st ps, commitJudge s = some (st, ps) →
       declines (.configCommit hd) s0 tk st ps) ∧
     (commitJudge s = none →
       answers (.configCommit hd) s0 tk v s (setState .configured stOk (setDev (fun d => { d with admitKhz := s.mon.engKhz }) s)) (budgetPs (budgetNow s)))) ∧
  (-- CONFIG_CLEAR (R76): Empties the working configuration set and returns the device to STANDBY.
   ∀ hd s0 tk v s, accepts (.configClear hd) s0 = some (tk, v, s) →
     answers (.configClear hd) s0 tk v s (setState .standby stOk (clearSet s)) []) ∧
  (-- CONFIG_SAVE (R616): Stores the working configuration set in a configuration slot.
   ∀ hd p0 s0 tk v s, accepts (.configSave hd p0) s0 = some (tk, v, s) →
     let p := ofConfigSave v
     let n := takeNat s
     (65504 < n.1 → declines (.configSave hd p0) s0 tk eParam [u32 n.1]) ∧
     (¬ (65504 < n.1) →
       (match nvsWrite (recCfg p.slot) [{ tk := tk, ps := [] }] (some (recHeld n.2 (recCfg p.slot))) ((fun s => setNvs (fun v => { v with cfgs := tabPut v.cfgs p.slot (savedSet s) }) s) n.2) with
         | some e => defers (.configSave hd p0) s0 tk v e
         | none => declines (.configSave hd p0) s0 tk eBusy []))) ∧
  (-- CONFIG_LOAD (R616): Loads a configuration slot into the working configuration set.
   ∀ hd p0 s0 tk v u, accepts (.configLoad hd p0) s0 = some (tk, v, u) →
     let p := ofConfigLoad v
     let s := u
     (match loadSlot p.slot s with
       | some s => answers (.configLoad hd p0) s0 tk v u s []
       | none => declines (.configLoad hd p0) s0 tk eFormat [])) ∧
  (-- CONFIG_CHECK (R95): Returns the budget area for the working configuration set.
   ∀ hd s0 tk v s, accepts (.configCheck hd) s0 = some (tk, v, s) →
     answers (.configCheck hd) s0 tk v s s (budgetPs (budgetNow s))) ∧
  (-- ARM (R682): Judges the set, brings up the opened ports and moves CONFIGURED to ARMED once they are up or refused.
   ∀ hd s0 tk v u, accepts (.arm hd) s0 = some (tk, v, u) →
     let s := u
     (budgetLimit (budgetNow s) ≠ 0 → declines (.arm hd) s0 tk eBudget (budgetPs (budgetNow s))) ∧
     (budgetLimit (budgetNow s) = 0 →
       ((s.cfg.ports.any fun e => (port s e.1).bring.isSome) → declines (.arm hd) s0 tk eBusy []) ∧
       (¬ ((s.cfg.ports.any fun e => (port s e.1).bring.isSome)) →
         let xs := (s.cfg.ports.filter (armBrings s)).map fun e => (e.1, decide ((port s e.1).link = 2))
         let up := (List.range 16).filter fun n => (port s n).link == 2 && ! xs.any fun e => e.1 == n
         let s := { s with dev := { s.dev with admitKhz := s.mon.engKhz } }
         let s := armStart (up.foldl (fun s n => laneCtrl n 0 s) s) tk.session
         defers (.arm hd) s0 tk v (armJudge { s with dev := { s.dev with arming := some (tk, xs) } })))) ∧
  (-- DISARM (R76): Moves ARMED to CONFIGURED.
   ∀ hd s0 tk v s, accepts (.disarm hd) s0 = some (tk, v, s) →
     answers (.disarm hd) s0 tk v s (setState .configured stOk (leaveRunning (elxLimit s))) []) ∧
  (-- START (R112): Re-judges the configuration and moves ARMED to RUNNING, at once or queued with an apply-at key.
   ∀ hd s0 tk v u, accepts (.start hd) s0 = some (tk, v, u) →
     let s := u
     (budgetLimit (budgetNow s) ≠ 0 → declines (.start hd) s0 tk eBudget (budgetPs (budgetNow s))) ∧
     (budgetLimit (budgetNow s) = 0 →
       let s := setFep (fun f => { f with hist := [], prev := [], adv := none, fresh := true, restart := true, ended := false }) s
       answers (.start hd) s0 tk v u (setState .running stOk (elxStart (holdMoves (setDev (fun d => { d with startAt := some s.now, drain := none, admitKhz := s.mon.engKhz }) s)))) [])) ∧
  (-- STOP (R79): Sets the stop point and drain limit and moves RUNNING to DRAINING, at once or queued.
   ∀ hd p0 s0 tk v s, accepts (.stop hd p0) s0 = some (tk, v, s) →
     let p := ofStop v
     answers (.stop hd p0) s0 tk v s (setState .draining stOk (setDev (fun d => { d with drain := some (s.now, s.now + p.limit * ms), stopMd := webMd s }) s)) []) ∧
  (-- FAULT_CLEAR (R641): Leaves FAULT for STANDBY when the class's clear condition holds.
   ∀ hd s0 tk v s, accepts (.faultClear hd) s0 = some (tk, v, s) →
     (faultOver s →
       answers (.faultClear hd) s0 tk v s (setState .standby stOk { s with dev := { s.dev with faultClass := 0 } }) []) ∧
     (¬ (faultOver s) → declines (.faultClear hd) s0 tk eBusy [])) ∧
  (-- SLEEP (R49): Replies and then puts the device from STANDBY into SLEEP with DRAM in self-refresh.
   ∀ hd s0 tk v s, accepts (.sleep hd) s0 = some (tk, v, s) →
     ((s.dma.chans.any fun e => e.2.state == 1) → declines (.sleep hd) s0 tk eBusy []) ∧
     (¬ ((s.dma.chans.any fun e => e.2.state == 1)) → defers (.sleep hd) s0 tk v (enterSleep (answer tk stOk [] s)))) ∧
  (-- APPLY_CANCEL (R112): Discards every queued command with a given tag and notifies each with E_CANCELLED.
   ∀ hd p0 s0 tk v s, accepts (.applyCancel hd p0) s0 = some (tk, v, s) →
     let p := ofApplyCancel v
     let n := (s.dev.queue.filter fun q => q.tk.tag == p.ctag).length
     answers (.applyCancel hd p0) s0 tk v s (cancelQueued (fun q => q.tk.tag == p.ctag) s) [u16 n]) ∧
  (-- APPLY_LIST (R681): Returns queued commands in sequencer order.
   ∀ hd p0 s0 tk v s, accepts (.applyList hd p0) s0 = some (tk, v, s) →
     let p := ofApplyList v
     answers (.applyList hd p0) s0 tk v s s (((s.dev.queue.drop p.first).take p.count).flatMap fun q => [.align 4, u16 q.tk.session, u16 q.tk.op, u32 q.tk.tag, .block (blkBytes q.blk)])) ∧
  (-- NET_CONFIG (R111): Sets an interface's addresses and UDP port, taking effect after the reply.
   ∀ hd p0 s0 tk v s, accepts (.netConfig hd p0) s0 = some (tk, v, s) →
     let p := ofNetConfig v
     (match nvsWrite recSet [{ tk := tk, next := 3 }] (some (recHeld s recSet)) ((setNvs fun v => { v with set := { v.set with net := tabPut v.set.net p.iface p } }) s) with
       | some e => defers (.netConfig hd p0) s0 tk v e
       | none => declines (.netConfig hd p0) s0 tk eBusy []))

/-- What every command of family 0x02 (camera ports) does once it is accepted (03_rathal_camera_ports.md). -/
def Obligations.CameraPortCommandsComplete : Prop :=
  (-- PORT_OPEN (R164): Opens a camera port with kind, rate, FEC and lane count, closing it first if it was UP.
   ∀ hd p0 s0 tk v u, accepts (.portOpen hd p0) s0 = some (tk, v, u) →
     let p := ofPortOpen v
     let s := u
     let s := if (port s p.port).link ≠ 0 then closePort p.port stOk (some tk.session) s else s
     answers (.portOpen hd p0) s0 tk v u (setPort p.port (fun q => { q with off := true }) { s with cfg := { s.cfg with ports := tabPut s.cfg.ports p.port p } }) []) ∧
  (-- PORT_CLOSE (R686): Closes a port and removes its streams.
   ∀ hd p0 s0 tk v u, accepts (.portClose hd p0) s0 = some (tk, v, u) →
     let p := ofPortClose v
     let s := u
     let s := if (port s p.port).link ≠ 0 then closePort p.port stOk (some tk.session) s else s
     answers (.portClose hd p0) s0 tk v u { s with cfg := { s.cfg with ports := tabDel s.cfg.ports p.port, streams := s.cfg.streams.filter fun e => e.1 / 8 != p.port } } []) ∧
  (-- STREAM_SET (R133): Sets a stream's width, format and trigger source, clamping to the port's width limit.
   ∀ hd p0 s0 tk v u, accepts (.streamSet hd p0) s0 = some (tk, v, u) →
     let p := ofStreamSet v
     let s := u
     let s := widthSet p s
     answers (.streamSet hd p0) s0 tk v u { s with cfg := { s.cfg with streams := tabPut s.cfg.streams (p.port * 8 + p.stream) p } } [u32 p.width]) ∧
  (-- PORT_PROBE (R149): Brings a port up at rate 1 without FEC and reads the head's identity registers.
   ∀ hd p0 s0 tk v s, accepts (.portProbe hd p0) s0 = some (tk, v, s) →
     let p := ofPortProbe v
     let q := port s p.port
     (q.link = 2 ∧ q.acc.isSome → declines (.portProbe hd p0) s0 tk eBusy []) ∧
     (¬ (q.link = 2 ∧ q.acc.isSome) →
       (q.link = 2 → defers (.portProbe hd p0) s0 tk v (probeUp p.port tk s)) ∧
       (q.link ≠ 2 →
         (q.bring.isSome → declines (.portProbe hd p0) s0 tk eBusy []) ∧
         (q.bring.isNone →
           let lanes := match tabGet s.cfg.ports p.port with | some c => c.lanes | none => 1
           defers (.portProbe hd p0) s0 tk v (startBring p.port (.probe tk) 1 0 lanes (setLink p.port 1 stOk (some tk.session) s)))))) ∧
  (-- PORT_STATUS (R164): Returns a port's link and lane state, eyes, D and E.
   ∀ hd p0 s0 tk v s, accepts (.portStatus hd p0) s0 = some (tk, v, s) →
     let p := ofPortStatus v
     let q := port s p.port
     answers (.portStatus hd p0) s0 tk v s s ([u32 (linkStat s p.port)] ++ (List.range 4).map (fun k => u32 (laneStat s p.port k)) ++ (q.lanes.take 4).map (fun l => u16 l.eyeH) ++ (q.lanes.take 4).map (fun l => u16 l.eyeW) ++ [.num 4 (dShown s p.port), u32 s.lnk.eUse])) ∧
  (-- PORT_COUNTERS (R164): Returns a port's counters.
   ∀ hd p0 s0 tk v s, accepts (.portCounters hd p0) s0 = some (tk, v, s) →
     let p := ofPortCounters v
     answers (.portCounters hd p0) s0 tk v s s ((List.range 11).map fun i => u32 (rget (cptBase p.port + 0x40 + 4 * i) s))) ∧
  (-- PORT_COUNTERS_CLEAR (R164): Sets a port's counters to 0.
   ∀ hd p0 s0 tk v s, accepts (.portCountersClear hd p0) s0 = some (tk, v, s) →
     let p := ofPortCountersClear v
     answers (.portCountersClear hd p0) s0 tk v s (rclear (cptBase p.port + 0x40) (cptBase p.port + 0x6C) s) []) ∧
  (-- LANE_POWER (R147): Sets a port's lane power mode and AUTO times.
   ∀ hd p0 s0 tk v u, accepts (.lanePower hd p0) s0 = some (tk, v, u) →
     let p := ofLanePower v
     let s := u
     let s := { s with cfg := { s.cfg with lanePower := tabPut s.cfg.lanePower p.port p } }
     answers (.lanePower hd p0) s0 tk v u (if (port s p.port).link = 2 ∧ p.mode ≤ 2 then laneCtrl p.port p.mode s else s) []) ∧
  (-- HEAD_REG_WRITE (R138): Writes a head register over the back-channel and replies with the echoed data.
   ∀ hd p0 s0 tk v s, accepts (.headRegWrite hd p0) s0 = some (tk, v, s) →
     let p := ofHeadRegWrite v
     (((port s p.port).link ≠ 2 → declines (.headRegWrite hd p0) s0 tk eState []) ∧
       ((port s p.port).link = 2 → (port s p.port).acc.isSome → declines (.headRegWrite hd p0) s0 tk eBusy []) ∧
       ((port s p.port).link = 2 → (port s p.port).acc = none →
         let tag := ((port s p.port).accTag + 1) % 256;
         defers (.headRegWrite hd p0) s0 tk v (sendCtrl p.port 0x20 (tag :: (leBytes 4 p.addr ++ leBytes 4 p.data)) (setPort p.port (fun q => { q with accTag := tag, acc := some { tk := tk, tag := tag, deadline := s.now + ms } }) (wakePort p.port s)))))) ∧
  (-- HEAD_REG_READ (R138): Reads a head register over the back-channel.
   ∀ hd p0 s0 tk v s, accepts (.headRegRead hd p0) s0 = some (tk, v, s) →
     let p := ofHeadRegRead v
     (((port s p.port).link ≠ 2 → declines (.headRegRead hd p0) s0 tk eState []) ∧
       ((port s p.port).link = 2 → (port s p.port).acc.isSome → declines (.headRegRead hd p0) s0 tk eBusy []) ∧
       ((port s p.port).link = 2 → (port s p.port).acc = none →
         let tag := ((port s p.port).accTag + 1) % 256;
         defers (.headRegRead hd p0) s0 tk v (sendCtrl p.port 0x21 (tag :: (leBytes 4 p.addr)) (setPort p.port (fun q => { q with accTag := tag, acc := some { tk := tk, tag := tag, deadline := s.now + ms } }) (wakePort p.port s)))))) ∧
  (-- CAL_RUN (R155): Requests recalibration of named lanes of a port.
   ∀ hd p0 s0 tk v s, accepts (.calRun hd p0) s0 = some (tk, v, s) →
     let p := ofCalRun v
     ((port s p.port).link ≠ 2 → declines (.calRun hd p0) s0 tk eState []) ∧
     ((port s p.port).link = 2 →
       answers (.calRun hd p0) s0 tk v s (startRecal p.port p.lanes (some (tk.session, tk.tag)) (wakePort p.port s)) [])) ∧
  (-- CAL_POLICY (R155): Sets TDELTA, recalibration period and QF threshold.
   ∀ hd p0 s0 tk v s, accepts (.calPolicy hd p0) s0 = some (tk, v, s) →
     let p := ofCalPolicy v
     answers (.calPolicy hd p0) s0 tk v s { s with cfg := { s.cfg with calPolicy := p } } []) ∧
  (-- EYE_SCAN (R165): Starts an eye scan of a lane or returns points of the last scan.
   ∀ hd p0 s0 tk v s, accepts (.eyeScan hd p0) s0 = some (tk, v, s) →
     let p := ofEyeScan v
     let q := port s p.port
     (q.link ≠ 2 → declines (.eyeScan hd p0) s0 tk eState []) ∧
     (q.link = 2 →
       (p.offset = 0 →
         (maxPacket s tk.via < 32 + min p.length 32768 → declines (.eyeScan hd p0) s0 tk eSize []) ∧
         (¬ (maxPacket s tk.via < 32 + min p.length 32768) →
           (q.scan.isSome → declines (.eyeScan hd p0) s0 tk eBusy []) ∧
           (q.scan.isNone →
             defers (.eyeScan hd p0) s0 tk v (setPort p.port (fun q => { q with scan := some ⟨p.lane, p.eye, tk, p.length⟩, scans := tabDel q.scans (p.lane * 3 + p.eye) }) (wakePort p.port s))))) ∧
       (p.offset ≠ 0 →
         (∀ xs, tabGet q.scans (p.lane * 3 + p.eye) = some xs →
           answers (.eyeScan hd p0) s0 tk v s s [.block (scanBytes xs p.offset p.length)]) ∧
         (tabGet q.scans (p.lane * 3 + p.eye) = none →
           declines (.eyeScan hd p0) s0 tk eBusy [])))) ∧
  (-- LATENCY_MEASURE (R684): Runs 16 echo round trips and adopts a new D when it fits E.
   ∀ hd p0 s0 tk v s, accepts (.latencyMeasure hd p0) s0 = some (tk, v, s) →
     let p := ofLatencyMeasure v
     let q := port s p.port
     (q.link ≠ 2 → declines (.latencyMeasure hd p0) s0 tk eState []) ∧
     (q.link = 2 →
       (q.echo.isSome → declines (.latencyMeasure hd p0) s0 tk eBusy []) ∧
       (q.echo.isNone →
         defers (.latencyMeasure hd p0) s0 tk v (sendEchoReq p.port 0 (setPort p.port (fun q => { q with echo := some { tk := tk, deadline := s.now + ms } }) (wakePort p.port s)))))) ∧
  (-- LATENCY_TRIM (R167): Sets a port's latency trim, clamped so D stays within E while running.
   ∀ hd p0 s0 tk v u, accepts (.latencyTrim hd p0) s0 = some (tk, v, u) →
     let p := ofLatencyTrim v
     let s := u
     let trim := min p.trim (trimMax s p.port)
     let s := adoptD p.port (fun s => { s with cfg := { s.cfg with trims := tabPut s.cfg.trims p.port trim } }) s
     (trim = p.trim → answers (.latencyTrim hd p0) s0 tk v u s []) ∧
     (trim ≠ p.trim → defers (.latencyTrim hd p0) s0 tk v (answer { tk with adj := tk.adj ||| 2 } stOk [] s))) ∧
  (-- EXPOSURE_DELAY (R142): Sets the exposure delay E.
   ∀ hd p0 s0 tk v s, accepts (.exposureDelay hd p0) s0 = some (tk, v, s) →
     let p := ofExposureDelay v
     answers (.exposureDelay hd p0) s0 tk v s { s with cfg := { s.cfg with expo := p.e } } [])

/-- What every command of family 0x03 (the front end) does once it is accepted (04_line_correction_and_stitching.md). -/
def Obligations.FrontEndCommandsComplete : Prop :=
  (-- FE_GEOMETRY (R202): Declares web width, pitches, planes, bands, f_max and stitch settings, granting f_max.
   ∀ hd p0 s0 tk v s, accepts (.feGeometry hd p0) s0 = some (tk, v, s) →
     let p := ofFeGeometry v
     answers (.feGeometry hd p0) s0 tk v s { s with cfg := { s.cfg with geom := some p } } [u32 p.fmax]) ∧
  (-- FE_STREAM_MAP (R193): Maps a stream into a plane with its MD offset, span and cubic x-map.
   ∀ hd p0 s0 tk v s, accepts (.feStreamMap hd p0) s0 = some (tk, v, s) →
     let p := ofFeStreamMap v
     answers (.feStreamMap hd p0) s0 tk v s { s with cfg := { s.cfg with maps := tabPut s.cfg.maps p.stream p } } []) ∧
  (-- FE_SEAM (R196): Defines a seam between two streams of a plane.
   ∀ hd p0 s0 tk v s, accepts (.feSeam hd p0) s0 = some (tk, v, s) →
     let p := ofFeSeam v
     answers (.feSeam hd p0) s0 tk v s { s with cfg := { s.cfg with seams := tabPut s.cfg.seams p.seam p } } []) ∧
  (-- FE_KERNEL (R195): Loads the resampling kernel table or restores the default.
   ∀ hd p0 s0 tk v s, accepts (.feKernel hd p0) s0 = some (tk, v, s) →
     let p := ofFeKernel v
     answers (.feKernel hd p0) s0 tk v s { s with cfg := { s.cfg with kernel := if p.source = 0 then none else some p.table } } []) ∧
  (-- FE_COEF_LOAD (R182): Writes offsets, gains or defect codes into a stream's inactive bank.
   ∀ hd p0 s0 tk v s, accepts (.feCoefLoad hd p0) s0 = some (tk, v, s) →
     let p := ofFeCoefLoad v
     (bankHeld s p.stream p.bank → declines (.feCoefLoad hd p0) s0 tk eBusy []) ∧
     (¬ (bankHeld s p.stream p.bank) →
       let b := (tabGet s.fep.coef (p.stream * 2 + p.bank)).getD {}
       let data := if p.kind = 1 then p.data.map fun v => Int.emod v 65536 else p.data
       let b := (data.mapIdx fun i v => (p.first + i, v)).foldl (fun b e => putCoef p.kind e.1 e.2 b) b
       answers (.feCoefLoad hd p0) s0 tk v s (setFep (fun f => { f with coef := tabPut f.coef (p.stream * 2 + p.bank) b }) s) [])) ∧
  (-- FE_BANK_SELECT (R182): Switches streams of a port to a coefficient bank, at once or at a key.
   ∀ hd p0 s0 tk v u, accepts (.feBankSelect hd p0) s0 = some (tk, v, u) →
     let p := ofFeBankSelect v
     let s := u
     let s := (List.range 8).foldl (fun s i => if ! bit p.streams i then s
         else if runningState s.dev.state then setFep (fun f => { f with sel := tabPut f.sel (p.port * 8 + i) p.bank }) s
         else setBank (p.port * 8 + i) p.bank s) s
     let named := (List.range 8).filter fun i => bit p.streams i
     answers (.feBankSelect hd p0) s0 tk v u { s with cfg := { s.cfg with banks := named.foldl (fun t i => if p.bank = 0 then tabDel t (p.port * 8 + i) else tabPut t (p.port * 8 + i) p.bank) s.cfg.banks } } []) ∧
  (-- FE_SHADING (R181): Sets a stream's shading mode and tracker settings and discards the window in progress.
   ∀ hd p0 s0 tk v u, accepts (.feShading hd p0) s0 = some (tk, v, u) →
     let p := ofFeShading v
     let s := u
     let was := match tabGet s.cfg.shading p.stream with | some c => c.mode | none => 0
     let s := { s with cfg := { s.cfg with shading := tabPut s.cfg.shading p.stream p } }
     let keep : Shade → Shade := fun h => { h with cnt := [], sum := [], lines := 0, next := if p.mode = 2 then none else h.next }
     let sh := if was = 0 then tabDel s.fep.shade p.stream else tabMod s.fep.shade p.stream keep
     answers (.feShading hd p0) s0 tk v u (setFep (fun f => { f with shade := sh }) s) []) ∧
  (-- FE_SETTING_LATENCY (R183): Sets a setting-latency entry of a port.
   ∀ hd p0 s0 tk v s, accepts (.feSettingLatency hd p0) s0 = some (tk, v, s) →
     let p := ofFeSettingLatency v
     answers (.feSettingLatency hd p0) s0 tk v s { s with cfg := { s.cfg with setLat := tabPut s.cfg.setLat (p.port * 16 + p.entry) p } } []) ∧
  (-- FE_META_KEY (R184): Sets a port's metadata key.
   ∀ hd p0 s0 tk v s, accepts (.feMetaKey hd p0) s0 = some (tk, v, s) →
     let p := ofFeMetaKey v
     answers (.feMetaKey hd p0) s0 tk v s { s with cfg := { s.cfg with metaKeys := tabPut s.cfg.metaKeys p.port p } } []) ∧
  (-- FE_STATUS (R170): Returns lane load, f_lane, spill and bank and shading state of a port.
   ∀ hd p0 s0 tk v s, accepts (.feStatus hd p0) s0 = some (tk, v, s) →
     let p := ofFeStatus v
     let k := laneClocks s p.port
     answers (.feStatus hd p0) s0 tk v s s ([u16 (min 65535 (ceilDiv (1000 * grantedF s * k) 1250000000)), u32 (if k = 0 then 0 else 1250000000 / k), u32 (spillBytes s / 1024), u8 ((List.range 8).foldl (fun m i => m + bankOf s (p.port * 8 + i) * 2 ^ i) 0)] ++ (List.range 8).map fun i => u8 (match tabGet s.cfg.shading (p.port * 8 + i) with | some c => c.mode | none => 0))) ∧
  (-- FE_CAPTURE (R206): Starts a capture of a stream's next line at a stage, or returns bytes of the last one.
   ∀ hd p0 s0 tk v u, accepts (.feCapture hd p0) s0 = some (tk, v, u) →
     let p := ofFeCapture v
     let s := u
     let key := p.stream * 4 + p.stage
     (p.offset = 0 →
       (maxPacket s tk.via < 32 + min p.length (captureLen s p.stream p.stage) →
         declines (.feCapture hd p0) s0 tk eSize []) ∧
       (¬ (maxPacket s tk.via < 32 + min p.length (captureLen s p.stream p.stage)) →
         let s := dropCaptures (fun k _ => k == key) s
         defers (.feCapture hd p0) s0 tk v (setFep (fun f => { f with caps := tabPut f.caps key ⟨some tk, p.length, s.now + secPs, none⟩ }) s))) ∧
     (p.offset ≠ 0 →
       (match tabGet s.fep.caps key with
         | some ⟨_, _, _, some bs⟩ => answers (.feCapture hd p0) s0 tk v u s [.block ((bs.drop p.offset).take p.length)]
         | _ => declines (.feCapture hd p0) s0 tk eBusy []))) ∧
  (-- FE_COUNTERS_CLEAR (R204): Sets the front-end counters to 0.
   ∀ hd s0 tk v s, accepts (.feCountersClear hd) s0 = some (tk, v, s) →
     answers (.feCountersClear hd) s0 tk v s (fepCntClear s) [])

/-- What every command of family 0x04 (encoders, generators, compares and latches) does once it is accepted (05_encoders_and_web_time.md). -/
def Obligations.PositionCommandsComplete : Prop :=
  (-- ENC_CONFIG (R688): Configures an encoder axis and starts, restarts or stops it.
   ∀ hd p0 s0 tk v s, accepts (.encConfig hd p0) s0 = some (tk, v, s) →
     let p := ofEncConfig v
     answers (.encConfig hd p0) s0 tk v s (axisStart p.axis p.type { s with cfg := { s.cfg with enc := tabPut s.cfg.enc p.axis p } }) []) ∧
  (-- OBSERVER_SET (R215): Sets an axis's observer bandwidth, hysteresis and motion thresholds.
   ∀ hd p0 s0 tk v s, accepts (.observerSet hd p0) s0 = some (tk, v, s) →
     let p := ofObserverSet v
     answers (.observerSet hd p0) s0 tk v s { s with cfg := { s.cfg with obs := tabPut s.cfg.obs p.axis p } } []) ∧
  (-- POS_ORIGIN (R223): Sets an axis's MD origin now, at the next Z edge or at a latch capture.
   ∀ hd p0 s0 tk v s, accepts (.posOrigin hd p0) s0 = some (tk, v, s) →
     let p := ofPosOrigin v
     ((axis s p.axis).state ≠ 1 → declines (.posOrigin hd p0) s0 tk eState []) ∧
     ((axis s p.axis).state = 1 →
       (p.mode = 0 → answers (.posOrigin hd p0) s0 tk v s (setOrigin p.axis p.md0 (posAt (axis s p.axis) s.now) s) []) ∧
       (p.mode ≠ 0 →
         answers (.posOrigin hd p0) s0 tk v s (setAxis p.axis (fun x => { x with pendO := some ⟨p.md0, p.mode, p.latch⟩ }) s) []))) ∧
  (-- LTG_CONFIG (R220): Configures a line-trigger generator and makes it forget fired boundaries.
   ∀ hd p0 s0 tk v s, accepts (.ltgConfig hd p0) s0 = some (tk, v, s) →
     let p := ofLtgConfig v
     answers (.ltgConfig hd p0) s0 tk v s { s with cfg := { s.cfg with ltg := tabPut s.cfg.ltg p.gen p }, pos := { s.pos with ltg := tabMod s.pos.ltg p.gen fun x => { x with top := none, lastN := none } } } []) ∧
  (-- LTG_ENABLE (R220): Enables or disables a line-trigger generator.
   ∀ hd p0 s0 tk v u, accepts (.ltgEnable hd p0) s0 = some (tk, v, u) →
     let p := ofLtgEnable v
     let s := u
     let was := tabGet s.cfg.ltgOn p.gen
     let s := { s with cfg := { s.cfg with ltgOn := tabPut s.cfg.ltgOn p.gen p.enable } }
     answers (.ltgEnable hd p0) s0 tk v u (match tabGet s.cfg.ltg p.gen with | some g => if p.enable = 1 ∧ was ≠ some 1 ∧ g.mode = 1 then { s with pos := { s.pos with ltg := tabMod s.pos.ltg p.gen fun x => { x with top := none } } } else s | none => s) []) ∧
  (-- CMP_CONFIG (R227): Configures a compare channel in list or periodic mode.
   ∀ hd p0 s0 tk v s, accepts (.cmpConfig hd p0) s0 = some (tk, v, s) →
     let p := ofCmpConfig v
     answers (.cmpConfig hd p0) s0 tk v s (setCmp p.ch (fun x => { x with ptr := cmpPlace s p (mdNow s p.axis) }) { s with cfg := { s.cfg with cmp := tabPut s.cfg.cmp p.ch p } }) []) ∧
  (-- CMP_LIST_LOAD (R225): Loads compare entries for a disabled channel.
   ∀ hd p0 s0 tk v u, accepts (.cmpListLoad hd p0) s0 = some (tk, v, u) →
     let p := ofCmpListLoad v
     let s := u
     (tabGet s.cfg.cmp p.ch = none →
       declines (.cmpListLoad hd p0) s0 tk eParam []) ∧
     (∀ c, tabGet s.cfg.cmp p.ch = some c →
       (tabGet s.cfg.cmpOn p.ch = some 1 → declines (.cmpListLoad hd p0) s0 tk eBusy []) ∧
       (tabGet s.cfg.cmpOn p.ch ≠ some 1 →
         let es := (List.range p.count).filterMap (cmpEnt p.data)
         let s := { s with pos := { s.pos with cmpMem := (es.mapIdx fun i e => (i, e)).foldl (fun t e => tabPut t (c.base + p.first + e.1) e.2) s.pos.cmpMem } }
         answers (.cmpListLoad hd p0) s0 tk v u (setCmp p.ch (fun x => { x with ptr := cmpPlace s c (mdNow s c.axis) }) s) []))) ∧
  (-- CMP_ENABLE (R228): Enables or disables a compare channel, driving its output low on disable.
   ∀ hd p0 s0 tk v u, accepts (.cmpEnable hd p0) s0 = some (tk, v, u) →
     let p := ofCmpEnable v
     let s := u
     let s := { s with cfg := { s.cfg with cmpOn := tabPut s.cfg.cmpOn p.ch p.enable } }
     answers (.cmpEnable hd p0) s0 tk v u (if p.enable = 0 then driveCmp p.ch false (setCmp p.ch (fun x => { x with pulseEnd := none }) s) else match tabGet s.cfg.cmp p.ch with | some c => setCmp p.ch (fun x => { x with ptr := cmpPlace s c (mdNow s c.axis) }) s | none => s) []) ∧
  (-- LATCH_CONFIG (R229): Sets a latch's axis, source and edge.
   ∀ hd p0 s0 tk v s, accepts (.latchConfig hd p0) s0 = some (tk, v, s) →
     let p := ofLatchConfig v
     answers (.latchConfig hd p0) s0 tk v s { s with cfg := { s.cfg with latches := tabPut s.cfg.latches p.latch p } } []) ∧
  (-- LATCH_READ (R230): Empties captures from a latch FIFO.
   ∀ hd p0 s0 tk v s, accepts (.latchRead hd p0) s0 = some (tk, v, s) →
     let p := ofLatchRead v
     let l := (tabGet s.pos.latch p.latch).getD {}
     answers (.latchRead hd p0) s0 tk v s { s with pos := { s.pos with latch := tabPut s.pos.latch p.latch { l with fifo := l.fifo.drop p.max } } } ((l.fifo.take p.max).flatMap fun c => [.align 8, u64 (toUnsigned 48 c.count), u16 c.frac, s64 c.md, u64 c.sec, u32 c.ns, .align 8])) ∧
  (-- POS_STATUS (R250): Returns an axis's count, MD, speed, acceleration, state and counters.
   ∀ hd p0 s0 tk v s, accepts (.posStatus hd p0) s0 = some (tk, v, s) →
     let p := ofPosStatus v
     let x := axis s p.axis
     let skip := (List.range 8).map fun g => match tabGet s.cfg.ltg g with
         | some c => if c.axis = p.axis then ((tabGet s.pos.ltg g).getD {}).skip else 0
         | none => 0
     let ov := (List.range 16).map fun l => match tabGet s.cfg.latches l with
         | some c => if c.axis = p.axis then ((tabGet s.pos.latch l).getD {}).ovfl else 0
         | none => 0
     answers (.posStatus hd p0) s0 tk v s s ([u64 (toUnsigned 48 x.count), u16 (fracAt x s.now), s64 (mdNow s p.axis), s32 x.speed, s32 x.acc, u32 (axisStat s p.axis), u32 x.illegal, u32 x.zMis, u32 x.serErr] ++ (skip ++ ov).map u32)) ∧
  (-- POS_COUNTERS_CLEAR (R250): Sets the position counters to 0.
   ∀ hd s0 tk v s, accepts (.posCountersClear hd) s0 = some (tk, v, s) →
     answers (.posCountersClear hd) s0 tk v s { s with pos := { s.pos with axes := s.pos.axes.map fun x => { x with illegal := 0, zMis := 0, serErr := 0 }, ltg := s.pos.ltg.map fun e => (e.1, { e.2 with skip := 0 }), latch := s.pos.latch.map fun e => (e.1, { e.2 with ovfl := 0 }) } } [])

/-- What every command of family 0x05 (the time unit) does once it is accepted (05_encoders_and_web_time.md). -/
def Obligations.TimeCommandsComplete : Prop :=
  (-- TIME_SOURCE (R233): Selects no source, PTP or PPS for the time unit.
   ∀ hd p0 s0 tk v u, accepts (.timeSource hd p0) s0 = some (tk, v, u) →
     let p := ofTimeSource v
     let s := u
     let s := setTmu (fun x => { x with source := p.source, good := 0, bad := 0, lastMsg := s.now, ppsSec := none, offsetFault := false, incr := if p.source = 0 then 4294967296 else x.incr }) s
     answers (.timeSource hd p0) s0 tk v u (setTmuState (if p.source = 0 then 0 else 1) s) []) ∧
  (-- TIME_SET (R234): Steps the TMU counter with no source, or supplies seconds for the next PPS step.
   ∀ hd p0 s0 tk v s, accepts (.timeSet hd p0) s0 = some (tk, v, s) →
     let p := ofTimeSet v
     (s.tmu.stepDone ∨ s.tmu.source = 1 → declines (.timeSet hd p0) s0 tk eBusy []) ∧
     (¬ (s.tmu.stepDone ∨ s.tmu.source = 1) →
       (s.tmu.source = 2 → answers (.timeSet hd p0) s0 tk v s (setTmu (fun x => { x with ppsSec := some p.sec }) s) []) ∧
       (s.tmu.source ≠ 2 → answers (.timeSet hd p0) s0 tk v s (stepTmu (p.sec * 1000000000 + p.ns) s) []))) ∧
  (-- TIME_RELEARN (R234): Clears STEP_DONE and drops the time unit to ACQUIRING or FREE.
   ∀ hd s0 tk v u, accepts (.timeRelearn hd) s0 = some (tk, v, u) →
     let s := u
     let s := setTmu (fun x => { x with stepDone := false, good := 0, bad := 0, offsetFault := false }) s
     answers (.timeRelearn hd) s0 tk v u (publish 0x0410 (rset (tmuBase + 4) 1 (setTmuState (if s.tmu.source = 0 then 0 else 1) s))) []) ∧
  (-- TIME_STATUS (R251): Returns time unit state, offset, rate, path delay and master identity.
   ∀ hd s0 tk v s, accepts (.timeStatus hd) s0 = some (tk, v, s) →
     answers (.timeStatus hd) s0 tk v s s ([u32 (tmuStat s), s64 s.tmu.offset, s32 (ratePpt s), .num 4 (max 0 s.tmu.ptp.meanDelay)] ++ (s.tmu.ptp.identity.take 8).map u8 ++ [s16 s.tmu.ptp.utc])) ∧
  (-- PTP_CONFIG (R237): Configures the PTP port's interface, profile, transport and intervals.
   ∀ hd p0 s0 tk v s, accepts (.ptpConfig hd p0) s0 = some (tk, v, s) →
     let p := ofPtpConfig v
     answers (.ptpConfig hd p0) s0 tk v s (setPtp (fun o => { p := p, seqs := o.seqs, annAt := s.now, identity := o.identity, utc := o.utc }) s) []) ∧
  (-- PPS_CONFIG (R241): Configures PPS_OUT enable, offset and width.
   ∀ hd p0 s0 tk v s, accepts (.ppsConfig hd p0) s0 = some (tk, v, s) →
     let p := ofPpsConfig v
     answers (.ppsConfig hd p0) s0 tk v s (setTmu (fun x => { x with pps := p, ppsNext := ppsFirst p (tmuNs s) }) s) []) ∧
  (-- TTR_CONFIG (R242): Configures a time trigger's start, period and output pulse.
   ∀ hd p0 s0 tk v s, accepts (.ttrConfig hd p0) s0 = some (tk, v, s) →
     let p := ofTtrConfig v
     answers (.ttrConfig hd p0) s0 tk v s (setTmu (fun x => { x with ttr := tabPut x.ttr p.trig { (tabGet x.ttr p.trig).getD { p := p, next := none } with p := p, next := firstFiring p (tmuNs s) } }) s) []) ∧
  (-- TCP_CONFIG (R244): Configures a time capture's source and edge.
   ∀ hd p0 s0 tk v s, accepts (.tcpConfig hd p0) s0 = some (tk, v, s) →
     let p := ofTcpConfig v
     answers (.tcpConfig hd p0) s0 tk v s (setTmu (fun x => { x with tcp := tabPut x.tcp p.cap { (tabGet x.tcp p.cap).getD { p := p } with p := p } }) s) []) ∧
  (-- TCP_READ (R244): Empties captures from a time capture FIFO.
   ∀ hd p0 s0 tk v s, accepts (.tcpRead hd p0) s0 = some (tk, v, s) →
     let p := ofTcpRead v
     (tabGet s.tmu.tcp p.cap = none →
       answers (.tcpRead hd p0) s0 tk v s s []) ∧
     (∀ x, tabGet s.tmu.tcp p.cap = some x →
       answers (.tcpRead hd p0) s0 tk v s (setTmu (fun m => { m with tcp := tabPut m.tcp p.cap { x with fifo := x.fifo.drop p.max } }) s) ((x.fifo.take p.max).flatMap fun e => [.align 8, u64 e.1, u32 e.2, .align 8]))) ∧
  (-- TIME_READ (R251): Returns TMU time and the web axis MD latched in one SYS cycle.
   ∀ hd s0 tk v s, accepts (.timeRead hd) s0 = some (tk, v, s) →
     let r := if (webAxis s).isSome then (webMd s, s) else if s.dev.state = .boot then (0, s) else takeInt s
     answers (.timeRead hd) s0 tk v s r.2 [u64 (tmuSec s), u32 (tmuSub s), u16 (tmuFrac s), s64 r.1])

/-- What every command of family 0x06 (graphs and the Electrum array) does once it is accepted (06_electrum_defect_analysis.md). -/
def Obligations.GraphCommandsComplete : Prop :=
  (-- GRAPH_NODE (R256): Writes a node of a graph slot.
   ∀ hd p0 s0 tk v s, accepts (.graphNode hd p0) s0 = some (tk, v, s) →
     let p := ofGraphNode v
     answers (.graphNode hd p0) s0 tk v s { s with cfg := { s.cfg with graph := { s.cfg.graph with nodes := tabPut s.cfg.graph.nodes (p.slot * 32 + p.node) p } } } []) ∧
  (-- GRAPH_CLEAR (R256): Empties a graph slot.
   ∀ hd p0 s0 tk v s, accepts (.graphClear hd p0) s0 = some (tk, v, s) →
     let p := ofGraphClear v
     answers (.graphClear hd p0) s0 tk v s (clearSlot p.slot s) []) ∧
  (-- GRADE_RULES (R276): Writes grading rules of a slot, taking effect at one web line on every band.
   ∀ hd p0 s0 tk v s, accepts (.gradeRules hd p0) s0 = some (tk, v, s) →
     let p := ofGradeRules v
     answers (.gradeRules hd p0) s0 tk v s (changeGraph tk (.rules p.slot p.first (chunks 64 p.count p.data)) s) []) ∧
  (-- MARK_TABLE (R281): Writes mark table entries of a slot.
   ∀ hd p0 s0 tk v s, accepts (.markTable hd p0) s0 = some (tk, v, s) →
     let p := ofMarkTable v
     answers (.markTable hd p0) s0 tk v s (changeGraph tk (.marks p.slot p.first ((chunks 4 p.count p.data).map fun e => (nth e 0, leAt e 2 2))) s) []) ∧
  (-- GRAPH_SELECT (R258): Selects the web graph slot, restarting the graph at the next strip boundary.
   ∀ hd p0 s0 tk v u, accepts (.graphSelect hd p0) s0 = some (tk, v, u) →
     let p := ofGraphSelect v
     let s := u
     let s := { s with cfg := { s.cfg with select := some p.slot } }
     answers (.graphSelect hd p0) s0 tk v u (if runningState s.dev.state then setElx (fun x => { x with select := x.select ++ [(tk.pos, p.slot)] }) s else s) []) ∧
  (-- GRAPH_PARAM (R259): Changes a node parameter, only live ones while running.
   ∀ hd p0 s0 tk v s, accepts (.graphParam hd p0) s0 = some (tk, v, s) →
     let p := ofGraphParam v
     answers (.graphParam hd p0) s0 tk v s (changeGraph tk (.param p.slot p.node p.par p.value) s) []) ∧
  (-- VERIFY_GRAPH (R256): Names the verification graph slot, cluster and port.
   ∀ hd p0 s0 tk v s, accepts (.verifyGraph hd p0) s0 = some (tk, v, s) →
     let p := ofVerifyGraph v
     answers (.verifyGraph hd p0) s0 tk v s { s with cfg := { s.cfg with verify := if p.slot = 255 then none else some p } } []) ∧
  (-- GRAPH_BUDGET (R284): Declares a slot's record rate per band and BACKLOG_MAX.
   ∀ hd p0 s0 tk v s, accepts (.graphBudget hd p0) s0 = some (tk, v, s) →
     let p := ofGraphBudget v
     answers (.graphBudget hd p0) s0 tk v s { s with cfg := { s.cfg with gbudget := tabPut s.cfg.gbudget p.slot p } } []) ∧
  (-- GRAPH_COST (R284): Returns the cost estimator's figures for a slot.
   ∀ hd p0 s0 tk v s, accepts (.graphCost hd p0) s0 = some (tk, v, s) →
     let p := ofGraphCost v
     let ns := gnodes s.cfg.graph p.slot
     let khz := s.mon.engKhz
     let t := topLoad s khz [p.slot]
     let b : Budget := { budgetNow s with eng := t.1, cluster := t.2 }
     answers (.graphCost hd p0) s0 tk v s s (budgetPs b ++ [u32 (costPixel4 ns * 250), u32 (ceilDiv (costComp2 s ns) 2)] ++ ((List.range 16).map fun k => u16 (min 65535 (engLoad s khz p.slot k))) ++ [u16 (graphReach ns), u16 (graphDelay ns)])) ∧
  (-- ELX_STATUS (R288): Returns a cluster's last line, load, skips, LMU and backlog figures.
   ∀ hd p0 s0 tk v s, accepts (.elxStatus hd p0) s0 = some (tk, v, s) →
     let p := ofElxStatus v
     let k := p.cluster
     answers (.elxStatus hd p0) s0 tk v s s [s64 (toSigned 64 (rget (elxReg k 0) s + rget (elxReg k 4) s * 2 ^ 32)), u32 (rget (elxReg k 8) s), u32 (rget (elxReg k 0x0C) s), u32 (lmuOpen s k), u32 (rget (elxReg k 0x14) s), u32 (rget (elxReg k 0x18) s), u32 (rget (elxReg k 0x1C) s), u32 (backlogLines s k)]) ∧
  (-- ELX_COUNTERS_CLEAR (R288): Sets the ELX and LMU counters to 0.
   ∀ hd s0 tk v s, accepts (.elxCountersClear hd) s0 = some (tk, v, s) →
     answers (.elxCountersClear hd) s0 tk v s (elxCntClear s) []) ∧
  (-- ELX_GATING (R47): Sets the cluster idle time before gating.
   ∀ hd p0 s0 tk v s, accepts (.elxGating hd p0) s0 = some (tk, v, s) →
     let p := ofElxGating v
     answers (.elxGating hd p0) s0 tk v s { s with cfg := { s.cfg with gating := p.idleMs } } [])

/-- What every command of family 0x07 (classifier models) does once it is accepted (07_classifier_models.md). -/
def Obligations.ModelCommandsComplete : Prop :=
  (-- MODEL_STAGE (R306): Reserves staging space for a model ID and length.
   ∀ hd p0 s0 tk v s, accepts (.modelStage hd p0) s0 = some (tk, v, s) →
     let p := ofModelStage v
     ((tabGet s.models.loaded p.id).isSome ∨ (tabGet s.models.staging p.id).isSome →
       declines (.modelStage hd p0) s0 tk eBusy []) ∧
     (¬ ((tabGet s.models.loaded p.id).isSome ∨ (tabGet s.models.staging p.id).isSome) →
       (64 ≤ s.models.loaded.length ∨ 4 ≤ s.models.staging.length → declines (.modelStage hd p0) s0 tk eQueueFull []) ∧
       (¬ (64 ≤ s.models.loaded.length ∨ 4 ≤ s.models.staging.length) →
         answers (.modelStage hd p0) s0 tk v s (setModels (fun m => { m with staging := tabPut m.staging p.id { total := p.total } }) s) []))) ∧
  (-- MODEL_WRITE (R306): Writes a piece of a staged package.
   ∀ hd p0 s0 tk v s, accepts (.modelWrite hd p0) s0 = some (tk, v, s) →
     let p := ofModelWrite v
     answers (.modelWrite hd p0) s0 tk v s (setModels (fun m => { m with staging := tabMod m.staging p.id fun st => { st with pieces := (p.offset, p.data) :: st.pieces } }) s) []) ∧
  (-- MODEL_COMMIT (R307): Checks a staged package and loads it, computing its cost.
   ∀ hd p0 s0 tk v u, accepts (.modelCommit hd p0) s0 = some (tk, v, u) →
     let p := ofModelCommit v
     let s := u
     (tabGet s.models.staging p.id = none →
       declines (.modelCommit hd p0) s0 tk eParam []) ∧
     (∀ st, tabGet s.models.staging p.id = some st →
       let b := (List.range st.total).map (stagedByte s.free st)
       (∀ o r l, pkCheck st.total b = some (o, r, l) →
         declines (.modelCommit hd p0) s0 tk eFormat [u32 o, u8 r, u8 l]) ∧
       (pkCheck st.total b = none →
         (64 ≤ s.models.loaded.length → declines (.modelCommit hd p0) s0 tk eQueueFull []) ∧
         (¬ (64 ≤ s.models.loaded.length) →
           let m : Model := { bytes := b, cost := modelCost b, live := liveBytes b }
           let s := setModels (fun x => { x with loaded := tabPut x.loaded p.id m, staging := tabDel x.staging p.id }) { s with free := s.free + st.total }
           answers (.modelCommit hd p0) s0 tk v u (modelNotify p.id 0 0 s) [u32 m.cost, u32 (pkParamLen b), u32 m.live])))) ∧
  (-- MODEL_ABORT (R306): Discards a staging.
   ∀ hd p0 s0 tk v s, accepts (.modelAbort hd p0) s0 = some (tk, v, s) →
     let p := ofModelAbort v
     answers (.modelAbort hd p0) s0 tk v s (setModels (fun m => { m with staging := tabDel m.staging p.id }) s) []) ∧
  (-- MODEL_UNLOAD (R314): Removes a loaded model that nothing names.
   ∀ hd p0 s0 tk v s, accepts (.modelUnload hd p0) s0 = some (tk, v, s) →
     let p := ofModelUnload v
     ((modelNamed s p.id ∨ swapNames s p.id ∨ s.elx.waiting.any fun f => f.model == p.id) →
       declines (.modelUnload hd p0) s0 tk eBusy []) ∧
     (¬ ((modelNamed s p.id ∨ swapNames s p.id ∨ s.elx.waiting.any fun f => f.model == p.id)) →
       answers (.modelUnload hd p0) s0 tk v s (modelNotify p.id 2 0 (setModels (fun m => { m with loaded := tabDel m.loaded p.id }) s)) [])) ∧
  (-- MODEL_SWAP (R312): Replaces a model ID in every CLASSIFY node, re-judging the budget.
   ∀ hd p0 s0 tk v s, accepts (.modelSwap hd p0) s0 = some (tk, v, s) →
     let p := ofModelSwap v
     let u1 := changeGraph tk (.swap p.old p.new) s
     answers (.modelSwap hd p0) s0 tk v s (if runningState s.dev.state then u1 else modelNotify p.new 1 0 u1) [u8 (nodesNaming s p.old)]) ∧
  (-- MODEL_LIST (R315): Returns loaded and staging models.
   ∀ hd p0 s0 tk v s, accepts (.modelList hd p0) s0 = some (tk, v, s) →
     let p := ofModelList v
     answers (.modelList hd p0) s0 tk v s s (((modelEntries s).drop p.first |>.take p.count).flatMap fun e => [.align 4, u16 e.1, u8 e.2.1, u32 e.2.2.1, u8 e.2.2.2, .align 4])) ∧
  (-- MODEL_INFO (R315): Returns a model's header, cost and tiles classified.
   ∀ hd p0 s0 tk v s, accepts (.modelInfo hd p0) s0 = some (tk, v, s) →
     let p := ofModelInfo v
     (∀ m, tabGet s.models.loaded p.id = some m →
       answers (.modelInfo hd p0) s0 tk v s s [.block (m.bytes.take 64), u32 m.cost, u32 m.live, u64 m.tiles]) ∧
     (tabGet s.models.loaded p.id = none →
       declines (.modelInfo hd p0) s0 tk eParam [])) ∧
  (-- MODEL_TEST (R316): Runs a model on a supplied tile on a management core.
   ∀ hd p0 s0 tk v s, accepts (.modelTest hd p0) s0 = some (tk, v, s) →
     let p := ofModelTest v
     (tabGet s.models.loaded p.id = none →
       declines (.modelTest hd p0) s0 tk eParam []) ∧
     (∀ m, tabGet s.models.loaded p.id = some m →
       let r := classifyTile m.bytes p.width p.height (testInputs p)
       answers (.modelTest hd p0) s0 tk v s s ([u8 r.1, u8 r.2.1, u16 r.2.2.1] ++ r.2.2.2.map fun x => .num 1 x)))

/-- What every command of family 0x08 (result queues, subscriptions and tiles) does once it is accepted (08_defect_records_and_results.md). -/
def Obligations.ResultCommandsComplete : Prop :=
  (-- RESULT_QUEUE_CONFIG (R322): Sets a result queue's size, policy and extra feature, emptying it.
   ∀ hd p0 s0 tk v s, accepts (.resultQueueConfig hd p0) s0 = some (tk, v, s) →
     let p := ofResultQueueConfig v
     answers (.resultQueueConfig hd p0) s0 tk v s (emptyQueue p.queue (some p) { s with cfg := { s.cfg with queues := tabPut s.cfg.queues p.queue p } }) []) ∧
  (-- TILE_POOL_CONFIG (R334): Sets the tile pool size, reusing every tile.
   ∀ hd p0 s0 tk v s, accepts (.tilePoolConfig hd p0) s0 = some (tk, v, s) →
     let p := ofTilePoolConfig v
     answers (.tilePoolConfig hd p0) s0 tk v s (setRes (fun r => { r with tiles := [], nextBlock := 0, gen := 0, pool := p.mib }) { s with cfg := { s.cfg with pool := p.mib } }) []) ∧
  (-- RESULT_SUBSCRIBE (R327): Creates a subscription to a queue in PULL, PUSH_HOST or PUSH_UDP mode.
   ∀ hd p0 s0 tk v u, accepts (.resultSubscribe hd p0) s0 = some (tk, v, u) →
     let p := ofResultSubscribe v
     let s := u
     ((tabGet s.res.subs (tk.session * 64 + p.queue)).isSome → declines (.resultSubscribe hd p0) s0 tk eBusy []) ∧
     ((tabGet s.res.subs (tk.session * 64 + p.queue)).isNone →
       ((p.mode = 1 ∧ (subsOf s p.queue).any (fun e => match e.2.mirror with | some m => m.link == p.link | none => false)) →
         declines (.resultSubscribe hd p0) s0 tk eBusy []) ∧
       (¬ ((p.mode = 1 ∧ (subsOf s p.queue).any (fun e => match e.2.mirror with | some m => m.link == p.link | none => false))) →
         (4096 ≤ s.res.subs.length → declines (.resultSubscribe hd p0) s0 tk eQueueFull []) ∧
         (¬ (4096 ≤ s.res.subs.length) →
           let r := if p.start = 0 then oldest s p.queue else (rqueue s p.queue).next
           let m : Mirror := { link := p.link, addr := p.ring, slots := p.slots, coalesce := p.coalesce, seq := r }
           let sub : Sub := { mode := p.mode, window := p.window, r := r, push := r, mirror := if p.mode = 1 then some m else none }
           let s := setRes (fun x => { x with subs := tabPut x.subs (tk.session * 64 + p.queue) sub }) s
           let s := if p.mode = 1 then toBlock 40 (emit (.hostFill p.link p.ring (128 * p.slots))) (fun s => s) s else s
           answers (.resultSubscribe hd p0) s0 tk v u (pump p.queue s tk.session) [u64 r])))) ∧
  (-- RESULT_UNSUBSCRIBE (R327): Ends the session's subscription to a queue.
   ∀ hd p0 s0 tk v s, accepts (.resultUnsubscribe hd p0) s0 = some (tk, v, s) →
     let p := ofResultUnsubscribe v
     answers (.resultUnsubscribe hd p0) s0 tk v s (setRes (fun x => { x with subs := tabDel x.subs (tk.session * 64 + p.queue) }) s) []) ∧
  (-- RESULT_READ (R329): Returns record slots from max(r, O) without moving anything.
   ∀ hd p0 s0 tk v s, accepts (.resultRead hd p0) s0 = some (tk, v, s) →
     let p := ofResultRead v
     (tabGet s.res.subs (tk.session * 64 + p.queue) = none →
       declines (.resultRead hd p0) s0 tk eParam []) ∧
     (∀ x, tabGet s.res.subs (tk.session * 64 + p.queue) = some x →
       let from_ := max x.r (oldest s p.queue)
       answers (.resultRead hd p0) s0 tk v s s ([u64 (rqueue s p.queue).next, u64 x.r, u64 from_, u64 x.lost] ++ (List.range p.count).map fun i => .block (recordAt s p.queue (from_ + i))))) ∧
  (-- RESULT_ADVANCE (R330): Moves a subscription's reader index forward.
   ∀ hd p0 s0 tk v s, accepts (.resultAdvance hd p0) s0 = some (tk, v, s) →
     let p := ofResultAdvance v
     (tabGet s.res.subs (tk.session * 64 + p.queue) = none →
       declines (.resultAdvance hd p0) s0 tk eParam []) ∧
     (∀ x, tabGet s.res.subs (tk.session * 64 + p.queue) = some x →
       ((rqueue s p.queue).next < p.index → declines (.resultAdvance hd p0) s0 tk eParam []) ∧
       (¬ ((rqueue s p.queue).next < p.index) →
         answers (.resultAdvance hd p0) s0 tk v s (pump p.queue (setSub tk.session p.queue (fun y => { y with r := max y.r p.index }) s) tk.session) [u64 (max x.r p.index)]))) ∧
  (-- RESULT_STATUS (R340): Returns a queue's state and the caller's reader figures.
   ∀ hd p0 s0 tk v s, accepts (.resultStatus hd p0) s0 = some (tk, v, s) →
     let p := ofResultStatus v
     let q := rqueue s p.queue
     let a := takeNat s
     let b := takeNat a.2
     let own := match tabGet s.res.subs (tk.session * 64 + p.queue) with
         | some x => (x.r, x.lost, s)
         | none => (a.1 % 2 ^ 64, b.1 % 2 ^ 64, b.2)
     answers (.resultStatus hd p0) s0 tk v s own.2.2 [u32 (ringCfg s p.queue).entries, u8 (ringCfg s p.queue).policy, u64 q.next, u64 (oldest s p.queue), u64 q.written, u64 q.lost, u16 (subsOf s p.queue).length, u64 own.1, u64 own.2.1, u64 q.dropped]) ∧
  (-- TILE_INFO (R336): Returns a tile's header or refuses a stale handle.
   ∀ hd p0 s0 tk v s, accepts (.tileInfo hd p0) s0 = some (tk, v, s) →
     let p := ofTileInfo v
     (∀ t, tileOf s p.handle = some t →
       answers (.tileInfo hd p0) s0 tk v s s [.block (t.bytes.take 64)]) ∧
     (tileOf s p.handle = none →
       declines (.tileInfo hd p0) s0 tk eStale [])) ∧
  (-- TILE_FETCH (R336): Returns bytes of a tile, refusing if it was reused before the read ended.
   ∀ hd p0 s0 tk v s, accepts (.tileFetch hd p0) s0 = some (tk, v, s) →
     let p := ofTileFetch v
     (∀ t, tileOf s p.handle = some t →
       (t.bytes.length < p.offset + p.length → declines (.tileFetch hd p0) s0 tk eParam []) ∧
       (¬ (t.bytes.length < p.offset + p.length) →
         answers (.tileFetch hd p0) s0 tk v s s [.block ((t.bytes.drop p.offset).take p.length)])) ∧
     (tileOf s p.handle = none →
       declines (.tileFetch hd p0) s0 tk eStale [])) ∧
  (-- RES_COUNTERS_CLEAR (R340): Sets written, LOST and OUTCOME_DROP of every queue to 0.
   ∀ hd s0 tk v s, accepts (.resCountersClear hd) s0 = some (tk, v, s) →
     answers (.resCountersClear hd) s0 tk v s (setRes (fun r => { r with queues := r.queues.map fun e => (e.1, { e.2 with written := 0, lost := 0, dropped := 0 }) }) s) [])

/-- What every command of family 0x09 (marking heads) does once it is accepted (09_marking_heads.md). -/
def Obligations.MarkingCommandsComplete : Prop :=
  (-- MRK_HEAD_CONFIG (R349): Configures a marking head's geometry, pacing and bus timing.
   ∀ hd p0 s0 tk v s, accepts (.mrkHeadConfig hd p0) s0 = some (tk, v, s) →
     let p := ofMrkHeadConfig v
     answers (.mrkHeadConfig hd p0) s0 tk v s (setCfg (fun c => { c with heads := tabPut c.heads p.head p }) s) []) ∧
  (-- MRK_REMAP_LOAD (R350): Loads remapping entries of a head.
   ∀ hd p0 s0 tk v s, accepts (.mrkRemapLoad hd p0) s0 = some (tk, v, s) →
     let p := ofMrkRemapLoad v
     answers (.mrkRemapLoad hd p0) s0 tk v s (setCfg (fun c => { c with remap := (p.data.mapIdx fun i w => (i, w)).foldl (fun t e => tabPut t (p.head * 1024 + p.first + e.1) e.2) c.remap }) s) []) ∧
  (-- MRK_PREHEAT (R356): Sets a head's pre-heat pulses and temperature scaling.
   ∀ hd p0 s0 tk v s, accepts (.mrkPreheat hd p0) s0 = some (tk, v, s) →
     let p := ofMrkPreheat v
     answers (.mrkPreheat hd p0) s0 tk v s (setCfg (fun c => { c with preheat := tabPut c.preheat p.head p }) s) []) ∧
  (-- MRK_THERMAL (R374): Sets a head's temperature limit, hysteresis and sensing.
   ∀ hd p0 s0 tk v s, accepts (.mrkThermal hd p0) s0 = some (tk, v, s) →
     let p := ofMrkThermal v
     answers (.mrkThermal hd p0) s0 tk v s (judgeSuspend p.head (setCfg (fun c => { c with thermal := tabPut c.thermal p.head p }) s)) []) ∧
  (-- MRK_STYLE (R359): Sets mark dimensions and K_MAX.
   ∀ hd p0 s0 tk v s, accepts (.mrkStyle hd p0) s0 = some (tk, v, s) →
     let p := ofMrkStyle v
     answers (.mrkStyle hd p0) s0 tk v s (setCfg (fun c => { c with style := p }) s) []) ∧
  (-- MRK_LINE_MODE (R369): Sets CONTINUOUS or STOPPABLE mode with watermarks and timeouts.
   ∀ hd p0 s0 tk v s, accepts (.mrkLineMode hd p0) s0 = some (tk, v, s) →
     let p := ofMrkLineMode v
     answers (.mrkLineMode hd p0) s0 tk v s (setCfg (fun c => { c with lineMode := p }) s) []) ∧
  (-- MRK_HEAD_MODE (R346): Sets a head to OFF, PRODUCTION or SERVICE.
   ∀ hd p0 s0 tk v u, accepts (.mrkHeadMode hd p0) s0 = some (tk, v, u) →
     let p := ofMrkHeadMode v
     let s := u
     let s := setCfg (fun c => { c with headMode := tabPut c.headMode p.head p.mode }) s
     answers (.mrkHeadMode hd p0) s0 tk v u (if p.mode = 2 then transfer p.head s else setMHead p.head (fun x => { x with svc := none }) s) []) ∧
  (-- MRK_OVERLAP (R365): Names a head's overlap neighbour and nozzle offset.
   ∀ hd p0 s0 tk v s, accepts (.mrkOverlap hd p0) s0 = some (tk, v, s) →
     let p := ofMrkOverlap v
     answers (.mrkOverlap hd p0) s0 tk v s (setCfg (fun c => { c with overlap := tabPut c.overlap p.head p }) s) []) ∧
  (-- MRK_SERVICE_PATTERN (R355): Loads a head's service bitmap.
   ∀ hd p0 s0 tk v s, accepts (.mrkServicePattern hd p0) s0 = some (tk, v, s) →
     let p := ofMrkServicePattern v
     answers (.mrkServicePattern hd p0) s0 tk v s (setCfg (fun c => { c with pattern := tabPut c.pattern p.head p.bitmap }) s) []) ∧
  (-- MRK_SERVICE_FIRE (R355): Starts FIXED-paced firing of a head in SERVICE.
   ∀ hd p0 s0 tk v s, accepts (.mrkServiceFire hd p0) s0 = some (tk, v, s) →
     let p := ofMrkServiceFire v
     (headMode s p.head ≠ 2 → declines (.mrkServiceFire hd p0) s0 tk eState []) ∧
     (headMode s p.head = 2 →
       answers (.mrkServiceFire hd p0) s0 tk v s (setMHead p.head (fun x => { x with svc := some ⟨p.pattern == 1, p.rate, p.lines, s.now + secPs / p.rate⟩ }) s) [])) ∧
  (-- MRK_VERIFY_GEOMETRY (R380): Sets a verification stream's CD map and MD offset.
   ∀ hd p0 s0 tk v s, accepts (.mrkVerifyGeometry hd p0) s0 = some (tk, v, s) →
     let p := ofMrkVerifyGeometry v
     answers (.mrkVerifyGeometry hd p0) s0 tk v s (setCfg (fun c => { c with verifyGeo := tabPut c.verifyGeo p.stream p }) s) []) ∧
  (-- MRK_TEST_PRINT (R381): Rasterises a STAIR test pattern on a PRODUCTION head.
   ∀ hd p0 s0 tk v s, accepts (.mrkTestPrint hd p0) s0 = some (tk, v, s) →
     let p := ofMrkTestPrint v
     (! production s p.head → declines (.mrkTestPrint hd p0) s0 tk eState []) ∧
     (production s p.head → answers (.mrkTestPrint hd p0) s0 tk v s (offer (.print p.head p.s p.r p.md) s) [])) ∧
  (-- MRK_DOT_READ (R384): Returns per-nozzle dot measurements.
   ∀ hd p0 s0 tk v s, accepts (.mrkDotRead hd p0) s0 = some (tk, v, s) →
     let p := ofMrkDotRead v
     let x := mhead s p.head
     let b := (tabGet s.mrk.prop p.head).getD []
     answers (.mrkDotRead hd p0) s0 tk v s s ((List.range p.count).flatMap fun i => let e := x.found.getD (p.first + i) (0, 0, 0); [.align 4, u8 e.1, u8 (boolNat (calDead b (p.first + i))), .align 4, s32 e.2.1, s32 e.2.2])) ∧
  (-- MRK_CAL_READ (R385): Returns the calibration block in force or proposed.
   ∀ hd p0 s0 tk v s, accepts (.mrkCalRead hd p0) s0 = some (tk, v, s) →
     let p := ofMrkCalRead v
     (p.which = 0 → answers (.mrkCalRead hd p0) s0 tk v s s [.block (calOf s p.head)]) ∧
     (p.which ≠ 0 →
       (∀ b, tabGet s.mrk.prop p.head = some b →
         answers (.mrkCalRead hd p0) s0 tk v s s [.block b]) ∧
       (tabGet s.mrk.prop p.head = none →
         declines (.mrkCalRead hd p0) s0 tk eState []))) ∧
  (-- MRK_CAL_SET (R386): Puts a supplied head calibration block in force.
   ∀ hd p0 s0 tk v s, accepts (.mrkCalSet hd p0) s0 = some (tk, v, s) →
     let p := ofMrkCalSet v
     answers (.mrkCalSet hd p0) s0 tk v s (applyCal (nth p.block 0) p.block s) []) ∧
  (-- MRK_CAL_ACCEPT (R386): Puts the proposed calibration of a head in force.
   ∀ hd p0 s0 tk v s, accepts (.mrkCalAccept hd p0) s0 = some (tk, v, s) →
     let p := ofMrkCalAccept v
     (∀ b, tabGet s.mrk.prop p.head = some b →
       answers (.mrkCalAccept hd p0) s0 tk v s (applyCal p.head b s) []) ∧
     (tabGet s.mrk.prop p.head = none →
       declines (.mrkCalAccept hd p0) s0 tk eState [])) ∧
  (-- MRK_CAL_SAVE (R612): Stores head calibrations in the user calibration store.
   ∀ hd p0 s0 tk v s, accepts (.mrkCalSave hd p0) s0 = some (tk, v, s) →
     let p := ofMrkCalSave v
     (let recs := (fun xs => ((List.range 16).filter fun h => bit p.heads h).foldl (fun xs h => calPut 0x11 h (tmuNs s) (calOf s h) xs) xs) s.nvs.cal;
       (2097120 < calBytes recs → declines (.mrkCalSave hd p0) s0 tk eParam [u32 (calFree s.nvs.cal)]) ∧
       (calBytes recs ≤ 2097120 → match nvsWrite recCal [{ tk := tk }] (some (recHeld s recCal)) (setNvs (fun x => { x with cal := recs }) s) with
         | some e => defers (.mrkCalSave hd p0) s0 tk v e
         | none => declines (.mrkCalSave hd p0) s0 tk eBusy []))) ∧
  (-- MRK_STATUS (R388): Returns a head's state, level, FIRE_HWM and counters.
   ∀ hd p0 s0 tk v s, accepts (.mrkStatus hd p0) s0 = some (tk, v, s) →
     let p := ofMrkStatus v
     let h := p.head
     let x := mhead s h
     answers (.mrkStatus hd p0) s0 tk v s s ([u32 (mhStat s h), u32 (bufLevel x), s64 x.hwm, u32 (min (rho s h) 0xFFFFFFFF)] ++ [0x10, 0x14, 0x18, 0x1C].map (fun o => u32 (rget (mhReg h o) s)) ++ [s64 (x.jr.getD 0)])) ∧
  (-- MRK_MISS_READ (R389): Returns missed-span log entries still held.
   ∀ hd p0 s0 tk v s, accepts (.mrkMissRead hd p0) s0 = some (tk, v, s) →
     let p := ofMrkMissRead v
     let es := (s.mrk.log.reverse.filter fun e => decide (p.first ≤ e.1)).take p.count
     answers (.mrkMissRead hd p0) s0 tk v s s ([u64 s.mrk.logNo] ++ es.flatMap fun e => [.align 8, u64 e.1, .block e.2])) ∧
  (-- MRK_COUNTERS_CLEAR (R388): Sets the marking counters to 0.
   ∀ hd s0 tk v s, accepts (.mrkCountersClear hd) s0 = some (tk, v, s) →
     answers (.mrkCountersClear hd) s0 tk v s (mrkCntClear s) [])

/-- What every command of family 0x0A (area capture and colour) does once it is accepted (10_area_capture_and_colour.md). -/
def Obligations.ColourCommandsComplete : Prop :=
  (-- AREA_STREAM (R394): Binds a colour context to an area stream with size, rate, role and backlog.
   ∀ hd p0 s0 tk v s, accepts (.areaStream hd p0) s0 = some (tk, v, s) →
     let p := ofAreaStream v
     answers (.areaStream hd p0) s0 tk v s (setCctx p.ctx (fun _ => {}) (setCfgC (fun c => { c with area := tabPut c.area p.ctx p, live := if p.enable = 1 then tabDel c.live p.ctx else c.live }) s)) [u32 p.f]) ∧
  (-- CLP_BLACK (R416): Writes black levels into a context's inactive bank.
   ∀ hd p0 s0 tk v s, accepts (.clpBlack hd p0) s0 = some (tk, v, s) →
     let p := ofClpBlack v
     answers (.clpBlack hd p0) s0 tk v s (setColBank p.ctx p.bank (fun b => { b with bl := p.bl }) s) []) ∧
  (-- CLP_DEFECT_LOAD (R416): Writes defect list entries into a context's inactive bank.
   ∀ hd p0 s0 tk v s, accepts (.clpDefectLoad hd p0) s0 = some (tk, v, s) →
     let p := ofClpDefectLoad v
     answers (.clpDefectLoad hd p0) s0 tk v s (setColBank p.ctx p.bank (fun b => { b with len := p.len, defs := (List.range p.count).foldl (fun t i => tabPut t (p.first + i) (nth p.data (2 * i + 1) * 65536 + nth p.data (2 * i))) (b.defs.filter fun e => decide (e.1 < p.len)) }) s) []) ∧
  (-- CLP_COLOUR (R416): Writes white balance, matrix and LUT slot into a context's inactive bank.
   ∀ hd p0 s0 tk v s, accepts (.clpColour hd p0) s0 = some (tk, v, s) →
     let p := ofClpColour v
     answers (.clpColour hd p0) s0 tk v s (setColBank p.ctx p.bank (fun b => { b with wb := p.wb, mat := p.mat, lut := p.lut }) s) []) ∧
  (-- CLP_LUT_LOAD (R416): Loads entries of a 3D LUT slot not in use.
   ∀ hd p0 s0 tk v s, accepts (.clpLutLoad hd p0) s0 = some (tk, v, s) →
     let p := ofClpLutLoad v
     let t := (List.range p.count).foldl (fun t i => tabPut t (p.first + i) (nth p.data (3 * i) * 2 ^ 32 + nth p.data (3 * i + 1) * 65536 + nth p.data (3 * i + 2))) ((tabGet s.clp.luts p.slot).getD [])
     answers (.clpLutLoad hd p0) s0 tk v s (setClp (fun c => { c with luts := tabPut c.luts p.slot t }) s) []) ∧
  (-- CLP_BANK_SELECT (R416): Switches a context's colour bank at a frame boundary.
   ∀ hd p0 s0 tk v s, accepts (.clpBankSelect hd p0) s0 = some (tk, v, s) →
     let p := ofClpBankSelect v
     let key := bankKey s p.ctx
     answers (.clpBankSelect hd p0) s0 tk v s (if runningState s.dev.state then setFep (fun f => { f with sel := tabPut f.sel key p.bank }) s else setBank key p.bank s) []) ∧
  (-- HEAD_CONFIG (R404): Configures an output head's source, tap, crop, scale, format and destination.
   ∀ hd p0 s0 tk v s, accepts (.headConfig hd p0) s0 = some (tk, v, s) →
     let p := ofHeadConfig v
     answers (.headConfig hd p0) s0 tk v s (setCfgC (fun c => { c with heads2 := tabPut c.heads2 p.head p }) s) [u16 (nth p.out 0), u16 (nth p.out 1)]) ∧
  (-- HEAD_KERNEL (R405): Loads a head's scaler table for one axis.
   ∀ hd p0 s0 tk v s, accepts (.headKernel hd p0) s0 = some (tk, v, s) →
     let p := ofHeadKernel v
     answers (.headKernel hd p0) s0 tk v s (setCfgC (fun c => { c with kernels := if p.source = 0 then tabDel c.kernels (p.head * 2 + p.axis) else tabPut c.kernels (p.head * 2 + p.axis) p.table }) s) []) ∧
  (-- HEAD_CURVE (R406): Loads or presets a head's curves, applied from a frame.
   ∀ hd p0 s0 tk v s, accepts (.headCurve hd p0) s0 = some (tk, v, s) →
     let p := ofHeadCurve v
     let chs := if p.ch = 3 then [0, 1, 2] else [p.ch]
     answers (.headCurve hd p0) s0 tk v s (setCfgC (fun c => { c with curves := chs.foldl (fun t ch => tabPut t (p.head * 4 + ch) ⟨p.preset, p.peak, p.table⟩) c.curves }) s) []) ∧
  (-- ST2110_CONFIG (R412): Configures an ST 2110-20 sender's addressing.
   ∀ hd p0 s0 tk v s, accepts (.st2110Config hd p0) s0 = some (tk, v, s) →
     let p := ofSt2110Config v
     answers (.st2110Config hd p0) s0 tk v s (setClp (fun c => { c with senders := tabDel c.senders p.sender }) (setCfgC (fun c => { c with senders := tabPut c.senders p.sender p }) s)) []) ∧
  (-- ST2110_SDP (R421): Returns a sender's SDP text.
   ∀ hd p0 s0 tk v s, accepts (.st2110Sdp hd p0) s0 = some (tk, v, s) →
     let p := ofSt2110Sdp v
     let key := match tabGet s.cfg.senders p.sender with
         | some c => [1, c.iface, c.ipVer] ++ c.dst ++ [c.dport, c.sport, c.ptype, c.ssrc, c.ttl]
         | none => [0]
     answers (.st2110Sdp hd p0) s0 tk v s s [.block ((((Config.sdpText p.sender key).map BitVec.toNat).drop p.offset).take p.length)]) ∧
  (-- HOST_RING (R414): Sets a head's host ring.
   ∀ hd p0 s0 tk v s, accepts (.hostRing hd p0) s0 = some (tk, v, s) →
     let p := ofHostRing v
     answers (.hostRing hd p0) s0 tk v s (setCfgC (fun c => { c with rings := tabPut c.rings p.head p }) s) []) ∧
  (-- LIVE_VIEW (R418): Configures the live view context's planes, decimation, height, rate and role.
   ∀ hd p0 s0 tk v s, accepts (.liveView hd p0) s0 = some (tk, v, s) →
     let p := ofLiveView v
     answers (.liveView hd p0) s0 tk v s (setCctx p.ctx (fun _ => {}) (setCfgC (fun c => { c with live := tabPut c.live p.ctx p, area := if p.enable = 1 then tabDel c.area p.ctx else c.area }) s)) [u32 p.f, u16 (viewWidth s p.dc).toNat]) ∧
  (-- CLP_STATUS (R421): Returns a context's role, rate, backlog, counters and bank.
   ∀ hd p0 s0 tk v s, accepts (.clpStatus hd p0) s0 = some (tk, v, s) →
     let p := ofClpStatus v
     let k := p.ctx
     let role := match areaOf s k, liveOf s k with | some a, _ => a.role | none, some l => l.role | none, none => 0
     answers (.clpStatus hd p0) s0 tk v s s ([u8 role, u32 (ctxF s k), u32 (heldFrames s k)] ++ ([0, 4, 8, 0x0C].map fun o => u32 (rget (clpReg k o) s)) ++ [u8 (bankOf s (bankKey s k)), u32 (clpLoad s)])) ∧
  (-- CLP_COUNTERS_CLEAR (R421): Sets the colour pipeline counters to 0.
   ∀ hd s0 tk v s, accepts (.clpCountersClear hd) s0 = some (tk, v, s) →
     answers (.clpCountersClear hd) s0 tk v s (clpCntClear s) [])

/-- What every command of family 0x0B (the HEVC codec) does once it is accepted (11_hevc_video.md). -/
def Obligations.VideoCommandsComplete : Prop :=
  (-- VCU_CONTEXT (R427): Sets an HEVC context's kind, profile, size, rate and source.
   ∀ hd p0 s0 tk v s, accepts (.vcuContext hd p0) s0 = some (tk, v, s) →
     let p := ofVcuContext v
     answers (.vcuContext hd p0) s0 tk v s (setVctx p.ctx (fun _ => {}) (setCfgV (fun c => { c with vctx := tabPut c.vctx p.ctx p }) s)) [u32 p.f]) ∧
  (-- VCU_CODING (R433): Sets a context's coding structure, IRAP period, slices and options.
   ∀ hd p0 s0 tk v s, accepts (.vcuCoding hd p0) s0 = some (tk, v, s) →
     let p := ofVcuCoding v
     answers (.vcuCoding hd p0) s0 tk v s (setCfgV (fun c => { c with vcoding := tabPut c.vcoding p.ctx p }) s) []) ∧
  (-- VCU_RATE (R440): Sets a context's rate control, taking effect at a picture.
   ∀ hd p0 s0 tk v s, accepts (.vcuRate hd p0) s0 = some (tk, v, s) →
     let p := ofVcuRate v
     answers (.vcuRate hd p0) s0 tk v s (setCfgV (fun c => { c with vrate := tabPut c.vrate p.ctx p }) s) []) ∧
  (-- VCU_OUTPUT (R441): Sets a context's DRAM ring and host mirror.
   ∀ hd p0 s0 tk v s, accepts (.vcuOutput hd p0) s0 = some (tk, v, s) →
     let p := ofVcuOutput v
     answers (.vcuOutput hd p0) s0 tk v s (setVctx p.ctx (fun x => { x with head := 0, tail := 0, used := 0 }) (setCfgV (fun c => { c with vout := tabPut c.vout p.ctx p }) s)) []) ∧
  (-- VCU_FORCE_IRAP (R433): Makes the next picture of a context an IRAP picture.
   ∀ hd p0 s0 tk v s, accepts (.vcuForceIrap hd p0) s0 = some (tk, v, s) →
     let p := ofVcuForceIrap v
     answers (.vcuForceIrap hd p0) s0 tk v s (setVctx p.ctx (fun x => { x with force := true }) s) []) ∧
  (-- VCU_ENC_SUBMIT (R431): Submits a host picture to an encoding context.
   ∀ hd p0 s0 tk v s, accepts (.vcuEncSubmit hd p0) s0 = some (tk, v, s) →
     let p := ofVcuEncSubmit v
     (∀ c, tabGet s.cfg.vctx p.ctx = some c →
       (c.kind ≠ 2 → declines (.vcuEncSubmit hd p0) s0 tk eState []) ∧
       (c.kind = 2 →
         let r := vcuAccept p.ctx ⟨p.frame, p.sec, p.ns, tmuNs s, none⟩ s
         (r.1 → answers (.vcuEncSubmit hd p0) s0 tk v s (emit (.hostRd p.link p.addr (hostPicBytes c)) r.2) []) ∧
         (¬ (r.1) → declines (.vcuEncSubmit hd p0) s0 tk eQueueFull []))) ∧
     (tabGet s.cfg.vctx p.ctx = none →
       declines (.vcuEncSubmit hd p0) s0 tk eState [])) ∧
  (-- VCU_DEC_WRITE (R445): Writes byte stream into a decode context's input buffer.
   ∀ hd p0 s0 tk v u, accepts (.vcuDecWrite hd p0) s0 = some (tk, v, u) →
     let p := ofVcuDecWrite v
     let s := u
     (∀ c, tabGet s.cfg.vctx p.ctx = some c →
       let have_ := (vctx s p.ctx).inBuf.length
       (c.kind ≠ 3 → declines (.vcuDecWrite hd p0) s0 tk eState []) ∧
       (c.kind = 3 →
         (8388608 < have_ + p.length → declines (.vcuDecWrite hd p0) s0 tk eBusy [u32 (8388608 - have_)]) ∧
         (¬ (8388608 < have_ + p.length) →
           let s := setVctx p.ctx (fun x => { x with inBuf := x.inBuf ++ p.data.take p.length, inMarks := x.inMarks ++ [(x.inPos + have_ + p.length, tmuNs s)] }) s
           answers (.vcuDecWrite hd p0) s0 tk v u (vcuRun s) [u32 (8388608 - have_ - p.length)]))) ∧
     (tabGet s.cfg.vctx p.ctx = none →
       declines (.vcuDecWrite hd p0) s0 tk eState [])) ∧
  (-- VCU_READ (R442): Returns bytes of a chunk of given sequence.
   ∀ hd p0 s0 tk v s, accepts (.vcuRead hd p0) s0 = some (tk, v, s) →
     let p := ofVcuRead v
     let x := vctx s p.ctx
     (∀ bs, ringRead x.chunks x.next p.seq p.offset p.length = some bs →
       answers (.vcuRead hd p0) s0 tk v s s [.block bs]) ∧
     (ringRead x.chunks x.next p.seq p.offset p.length = none →
       declines (.vcuRead hd p0) s0 tk eStale [])) ∧
  (-- VCU_STATUS (R450): Returns a context's state, level, rate and counters.
   ∀ hd p0 s0 tk v s, accepts (.vcuStatus hd p0) s0 = some (tk, v, s) →
     let p := ofVcuStatus v
     let x := vctx s p.ctx
     let c := (tabGet s.cfg.vctx p.ctx).getD ⟨p.ctx, 0, 0, 0, 0, 0, 0, 0, [], 0⟩
     answers (.vcuStatus hd p0) s0 tk v s s [u8 c.kind, u8 (if c.kind = 0 ∨ c.kind = 3 then 0 else levelIdc s p.ctx c), u32 c.f, u64 (x.next - 1), s64 x.d, u64 x.done, u32 x.overrun, u32 x.skipped, u32 x.concealed]) ∧
  (-- VCU_COUNTERS_CLEAR (R450): Sets the HEVC counters to 0.
   ∀ hd s0 tk v s, accepts (.vcuCountersClear hd) s0 = some (tk, v, s) →
     answers (.vcuCountersClear hd) s0 tk v s (vcuCntClear s) [])

/-- What every command of family 0x0C (Tombac compression) does once it is accepted (12_tombac_compression.md). -/
def Obligations.TombacCommandsComplete : Prop :=
  (-- TBC_TILE_CODING (R474): Sets the Tombac effort for tiles.
   ∀ hd p0 s0 tk v s, accepts (.tbcTileCoding hd p0) s0 = some (tk, v, s) →
     let p := ofTbcTileCoding v
     answers (.tbcTileCoding hd p0) s0 tk v s (setCfgV (fun c => { c with tileEffort := p.effort }) s) []) ∧
  (-- TBC_HEAD_OUTPUT (R470): Sets a head's Tombac effort, near, key interval, ring and mirror.
   ∀ hd p0 s0 tk v s, accepts (.tbcHeadOutput hd p0) s0 = some (tk, v, s) →
     let p := ofTbcHeadOutput v
     answers (.tbcHeadOutput hd p0) s0 tk v s (setTHead p.head (fun x => { x with head := 0, tail := 0, used := 0 }) (setCfgV (fun c => { c with tbcHeads := tabPut c.tbcHeads p.head p }) s)) []) ∧
  (-- TBC_HISTORY (R475): Enables and configures the rolling web history.
   ∀ hd p0 s0 tk v s, accepts (.tbcHistory hd p0) s0 = some (tk, v, s) →
     let p := ofTbcHistory v
     answers (.tbcHistory hd p0) s0 tk v s (setCfgV (fun c => { c with tbcHist := some p }) s) []) ∧
  (-- TBC_POOL_CONFIG (R485): Sets the Tombac job buffer size.
   ∀ hd p0 s0 tk v s, accepts (.tbcPoolConfig hd p0) s0 = some (tk, v, s) →
     let p := ofTbcPoolConfig v
     answers (.tbcPoolConfig hd p0) s0 tk v s (setTbc (fun t => { t with buf := t.buf.filter fun e => decide (e.1 < p.mib * 1048576) }) (setCfgV (fun c => { c with tbcPool := p.mib }) s)) []) ∧
  (-- TBC_BUF_WRITE (R485): Writes bytes into the job buffer.
   ∀ hd p0 s0 tk v s, accepts (.tbcBufWrite hd p0) s0 = some (tk, v, s) →
     let p := ofTbcBufWrite v
     (rangeBad s 5 p.offset p.length → declines (.tbcBufWrite hd p0) s0 tk eParam []) ∧
     (¬ (rangeBad s 5 p.offset p.length) →
       answers (.tbcBufWrite hd p0) s0 tk v s (bufWrite 5 p.offset (p.data.take p.length) s) [])) ∧
  (-- TBC_BUF_READ (R485): Reads bytes from the job buffer.
   ∀ hd p0 s0 tk v s, accepts (.tbcBufRead hd p0) s0 = some (tk, v, s) →
     let p := ofTbcBufRead v
     (rangeBad s 5 p.offset p.length → declines (.tbcBufRead hd p0) s0 tk eParam []) ∧
     (¬ (rangeBad s 5 p.offset p.length) →
       let r := readUnits 5 p.offset p.length s
       (r.1 → defers (.tbcBufRead hd p0) s0 tk v (answer tk eDevice [] r.2)) ∧
       (¬ (r.1) → answers (.tbcBufRead hd p0) s0 tk v s r.2 [.block (bufRead r.2 5 p.offset p.length)]))) ∧
  (-- TBC_JOB_SUBMIT (R482): Queues a compress or decompress job.
   ∀ hd p0 s0 tk v u, accepts (.tbcJobSubmit hd p0) s0 = some (tk, v, u) →
     let p := ofTbcJobSubmit v
     let s := u
     (! jobOk s p.desc → declines (.tbcJobSubmit hd p0) s0 tk eParam []) ∧
     (jobOk s p.desc →
       (256 ≤ s.tbc.jobs.length → declines (.tbcJobSubmit hd p0) s0 tk eQueueFull []) ∧
       (¬ (256 ≤ s.tbc.jobs.length) →
         let id := s.tbc.jobNext
         let s := setTbc (fun t => { t with jobs := t.jobs ++ [{ id := id, desc := p.desc, session := tk.session, tag := tk.tag }], jobNext := id % (2 ^ 32 - 1) + 1 }) s
         answers (.tbcJobSubmit hd p0) s0 tk v u (if s.tbc.busy = 0 then tbcPick s else s) [u32 id]))) ∧
  (-- TBC_JOB_STATUS (R484): Returns a job's state and completion.
   ∀ hd p0 s0 tk v s, accepts (.tbcJobStatus hd p0) s0 = some (tk, v, s) →
     let p := ofTbcJobStatus v
     (match s.tbc.jobs.findIdx? (fun j => j.id == p.job), s.tbc.dones.find? fun d => d.id == p.job with
       | some i, _ =>
           let waits := (s.tbc.jobs.take (i + 1)).any fun j => jobWait j.desc && ! j.released
           let st := if waits then 1 else if i = 0 ∧ s.tbc.busy = 4 then 2 else 0
           let j := (s.tbc.jobs[i]?).map fun j => (leAt j.desc 28 4, j.lines)
           answers (.tbcJobStatus hd p0) s0 tk v s s (u8 st :: donePs ⟨p.job, (j.getD (0, 0)).1, 0, 0, (j.getD (0, 0)).2, 0, 0⟩)
       | none, some d => answers (.tbcJobStatus hd p0) s0 tk v s s (u8 3 :: donePs d)
       | none, none => declines (.tbcJobStatus hd p0) s0 tk eParam [])) ∧
  (-- TBC_JOB_CANCEL (R484): Stops a job at its next line boundary with CANCELLED.
   ∀ hd p0 s0 tk v s, accepts (.tbcJobCancel hd p0) s0 = some (tk, v, s) →
     let p := ofTbcJobCancel v
     (s.tbc.jobs.findIdx? (fun j => j.id == p.job) = none →
       ((s.tbc.dones.any fun d => d.id == p.job) → answers (.tbcJobCancel hd p0) s0 tk v s s []) ∧
       (¬ ((s.tbc.dones.any fun d => d.id == p.job)) → declines (.tbcJobCancel hd p0) s0 tk eParam [])) ∧
     (∀ i, s.tbc.jobs.findIdx? (fun j => j.id == p.job) = some i →
       (s.tbc.jobs[i]? = none →
         declines (.tbcJobCancel hd p0) s0 tk eParam []) ∧
       (∀ j, s.tbc.jobs[i]? = some j →
         (i = 0 ∧ (s.tbc.busy = 4 ∨ j.src.isSome) →
           answers (.tbcJobCancel hd p0) s0 tk v s (setTbc (fun t => { t with jobs := t.jobs.map fun x => if x.id = j.id then { x with cancel := true } else x }) s) []) ∧
         (¬ (i = 0 ∧ (s.tbc.busy = 4 ∨ j.src.isSome)) → answers (.tbcJobCancel hd p0) s0 tk v s (failJob j 5 0 0 s) [])))) ∧
  (-- TBC_READ (R472): Returns bytes of a head or history record.
   ∀ hd p0 s0 tk v s, accepts (.tbcRead hd p0) s0 = some (tk, v, s) →
     let p := ofTbcRead v
     let r := if p.source = 4 then ringRead (s.tbc.hist.map fun r => (r.seq, r.bytes)) s.tbc.histNext p.seq p.offset p.length
         else let x := thead s p.source; ringRead x.recs x.next p.seq p.offset p.length
     (∀ bs, r = some bs →
       answers (.tbcRead hd p0) s0 tk v s s [.block bs]) ∧
     (r = none →
       declines (.tbcRead hd p0) s0 tk eStale [])) ∧
  (-- TBC_HISTORY_FIND (R479): Returns the newest history record holding an MD below a bound.
   ∀ hd p0 s0 tk v s, accepts (.tbcHistoryFind hd p0) s0 = some (tk, v, s) →
     let p := ofTbcHistoryFind v
     let holds : HRec → Bool := fun r => let n := roundDivUp p.md (max 1 r.pitch); decide (r.n ≤ n ∧ n < r.n + r.lines)
     (match s.tbc.hist.find? fun r => holds r && decide (p.bound = 0 ∨ r.seq < p.bound) with
       | some r => answers (.tbcHistoryFind hd p0) s0 tk v s s [u64 r.seq]
       | none => answers (.tbcHistoryFind hd p0) s0 tk v s s [u64 0])) ∧
  (-- TBC_STATUS (R487): Returns Tombac state, sequences and counters.
   ∀ hd s0 tk v s, accepts (.tbcStatus hd) s0 = some (tk, v, s) →
     answers (.tbcStatus hd) s0 tk v s s ([u32 (tbcStat s), u32 (meterReg (meterAt (s.now / secPs) (50000000 * 2059200) s.tbc.load))] ++ ([0, 1, 2, 3].map fun h => u64 ((thead s h).next - 1)) ++ [u64 (s.tbc.histNext - 1)] ++ [0x40, 0x44, 0x48, 0x4C, 0x50, 0x54].map fun o => u32 (rget (tbcBase + o) s))) ∧
  (-- TBC_COUNTERS_CLEAR (R487): Sets the Tombac counters to 0.
   ∀ hd s0 tk v s, accepts (.tbcCountersClear hd) s0 = some (tk, v, s) →
     answers (.tbcCountersClear hd) s0 tk v s (tbcCntClear s) [])

/-- What every command of family 0x0D (the event router) does once it is accepted (13_event_router.md). -/
def Obligations.EventRouterCommandsComplete : Prop :=
  (-- EVR_CHANNEL (R500): Configures an event channel's source, fork list and bits, refusing loops.
   ∀ hd p0 s0 tk v s, accepts (.evrChannel hd p0) s0 = some (tk, v, s) →
     let p := ofEvrChannel v
     let s' := { s with cfg := { s.cfg with chans := tabPut s.cfg.chans p.ch p } }
     (∀ xs, evrLoop s' = some xs →
       declines (.evrChannel hd p0) s0 tk eLoop (loopReply xs)) ∧
     (evrLoop s' = none →
       answers (.evrChannel hd p0) s0 tk v s s' [])) ∧
  (-- EVR_ENABLE (R491): Enables or disables an event channel.
   ∀ hd p0 s0 tk v s, accepts (.evrEnable hd p0) s0 = some (tk, v, s) →
     let p := ofEvrEnable v
     let old := (tabGet s.cfg.chans p.ch).getD ⟨p.ch, 0, 0, 0, 0, 0, List.replicate 16 0xFFFF⟩
     answers (.evrEnable hd p0) s0 tk v s { s with cfg := { s.cfg with chans := tabPut s.cfg.chans p.ch { old with enable := p.enable } } } []) ∧
  (-- EVR_TASK_MODE (R496): Sets a task input to native or AK-6420 mode.
   ∀ hd p0 s0 tk v u, accepts (.evrTaskMode hd p0) s0 = some (tk, v, u) →
     let p := ofEvrTaskMode v
     let s := u
     let s := { s with cfg := { s.cfg with taskMode := tabPut s.cfg.taskMode p.task p.mode } }
     answers (.evrTaskMode hd p0) s0 tk v u (if p.mode = 1 then setTask p.task (fun x => { x with pend := none }) s else s) []) ∧
  (-- EVR_DIVIDER (R493): Sets a divider's divisor.
   ∀ hd p0 s0 tk v s, accepts (.evrDivider hd p0) s0 = some (tk, v, s) →
     let p := ofEvrDivider v
     answers (.evrDivider hd p0) s0 tk v s { s with cfg := { s.cfg with dividers := tabPut s.cfg.dividers p.div p.n } } []) ∧
  (-- EVR_FIRE (R502): Publishes a software event on a channel.
   ∀ hd p0 s0 tk v s, accepts (.evrFire hd p0) s0 = some (tk, v, s) →
     let p := ofEvrFire v
     answers (.evrFire hd p0) s0 tk v s (swFire (2 ^ 31 + p.ch) s) []) ∧
  (-- EVR_STATUS (R505): Returns channel settings and counts.
   ∀ hd p0 s0 tk v s, accepts (.evrStatus hd p0) s0 = some (tk, v, s) →
     let p := ofEvrStatus v
     answers (.evrStatus hd p0) s0 tk v s s (((List.range p.count).map fun i => p.first + i).flatMap fun c => let x := (tabGet s.cfg.chans c).getD ⟨c, 0, 0, 0, 0, 0, []⟩; [.align 4, u16 x.source, u8 x.enable, u8 x.loopOk, u32 (rget (evrBase + 0x1000 + c * 4) s), u8 (boolNat (bit (rget (evrBase + 0x100 + c / 32 * 4) s) (c % 32))), u8 (boolNat (bit (rget (evrBase + 0x140 + c / 32 * 4) s) (c % 32))), .align 4])) ∧
  (-- EVR_TASK_STATUS (R505): Returns a task input's mode, busy, pending and counters.
   ∀ hd p0 s0 tk v s, accepts (.evrTaskStatus hd p0) s0 = some (tk, v, s) →
     let p := ofEvrTaskStatus v
     let x := taskIn s p.task
     answers (.evrTaskStatus hd p0) s0 tk v s s [u8 ((tabGet s.cfg.taskMode p.task).getD 0), u8 (boolNat (taskBusy s p.task (sysCycle s))), u8 (boolNat x.pend.isSome), u8 (boolNat x.ovr), u32 x.delivered, u32 x.collide, u32 x.drop, u8 (x.pend.getD 0)]) ∧
  (-- EVR_TASK_CLEAR (R497): Clears a task input's OVR flag.
   ∀ hd p0 s0 tk v s, accepts (.evrTaskClear hd p0) s0 = some (tk, v, s) →
     let p := ofEvrTaskClear v
     answers (.evrTaskClear hd p0) s0 tk v s (setTask p.task (fun x => { x with ovr := false }) s) []) ∧
  (-- EVR_COUNTERS_CLEAR (R505): Sets the event router counters to 0.
   ∀ hd s0 tk v s, accepts (.evrCountersClear hd) s0 = some (tk, v, s) →
     answers (.evrCountersClear hd) s0 tk v s (evrCntClear s) [])

/-- What every command of family 0x0E (DRAM and DMA) does once it is accepted (14_dram_and_dma.md). -/
def Obligations.DramAndDmaCommandsComplete : Prop :=
  (-- DMC_LAYOUT (R512): Records grain, degraded mask and maximum rate for the next start that does not keep DRAM.
   ∀ hd p0 s0 tk v s, accepts (.dmcLayout hd p0) s0 = some (tk, v, s) →
     let p := ofDmcLayout v
     (match nvsWrite recSet [{ tk := tk, ps := [u32 (nextMib p.mask s)] }] (some (recHeld s recSet)) ((fun s => setDmc (fun d => { d with pending := true }) (setNvs (fun v => { v with set := { v.set with grain := p.grain, mask := p.mask, rate := p.rate } }) s)) s) with
       | some e => defers (.dmcLayout hd p0) s0 tk v e
       | none => declines (.dmcLayout hd p0) s0 tk eBusy [])) ∧
  (-- DMC_POLICY (R549): Sets DRAM retraining, row protection, scrub, ECC and scheduling parameters.
   ∀ hd p0 s0 tk v u, accepts (.dmcPolicy hd p0) s0 = some (tk, v, u) →
     let p := ofDmcPolicy v
     let s := u
     let s := { s with cfg := { s.cfg with dmcPolicy := p } }
     answers (.dmcPolicy hd p0) s0 tk v u (s.dmc.marked.foldl (fun s e => judgeCe 0 e.1 s) s) []) ∧
  (-- DMC_USER_REGION (R546): Sets the user buffer size.
   ∀ hd p0 s0 tk v s, accepts (.dmcUserRegion hd p0) s0 = some (tk, v, s) →
     let p := ofDmcUserRegion v
     answers (.dmcUserRegion hd p0) s0 tk v s { s with cfg := { s.cfg with userMib := p.mib } } []) ∧
  (-- DMC_RETRAIN (R527): Requests retraining of a DRAM channel.
   ∀ hd p0 s0 tk v s, accepts (.dmcRetrain hd p0) s0 = some (tk, v, s) →
     let p := ofDmcRetrain v
     ((dramCh s p.ch).retrain ∨ (dramCh s p.ch).queued → declines (.dmcRetrain hd p0) s0 tk eBusy []) ∧
     (¬ ((dramCh s p.ch).retrain ∨ (dramCh s p.ch).queued) →
       answers (.dmcRetrain hd p0) s0 tk v s (startRetrain p.ch s) [])) ∧
  (-- DMC_STATUS (R549): Returns a DRAM channel's state, counters and DIMM organisation.
   ∀ hd p0 s0 tk v s, accepts (.dmcStatus hd p0) s0 = some (tk, v, s) →
     let p := ofDmcStatus v
     let x := dramCh s p.ch
     answers (.dmcStatus hd p0) s0 tk v s s ([u32 (dmcStat s), u32 (dmcMask s), u64 (spaceMib s), u32 (rget (dmcBase + 0x100 + p.ch * 0x10) s), u32 (rget (dmcBase + 0x104 + p.ch * 0x10) s), u32 (dmcTemp s p.ch), u32 (dmcTrain s p.ch)] ++ (List.range 2).map fun i => u32 (match x.dimms[i]? with | some d => spdWord d | none => 0))) ∧
  (-- DMC_ECC_LOG (R522): Returns entries of the DRAM error log.
   ∀ hd p0 s0 tk v s, accepts (.dmcEccLog hd p0) s0 = some (tk, v, s) →
     let p := ofDmcEccLog v
     answers (.dmcEccLog hd p0) s0 tk v s s (u64 s.dmc.logNo :: ((s.dmc.log.drop p.first).take p.count).flatMap eccEntry)) ∧
  (-- DMC_COUNTERS_CLEAR (R549): Sets the DRAM counters to 0.
   ∀ hd s0 tk v s, accepts (.dmcCountersClear hd) s0 = some (tk, v, s) →
     answers (.dmcCountersClear hd) s0 tk v s (dmcCntClear s) []) ∧
  (-- DMA_CHANNEL (R549): Sets an idle DMA channel's descriptor space, first address and interrupt link.
   ∀ hd p0 s0 tk v s, accepts (.dmaChannel hd p0) s0 = some (tk, v, s) →
     let p := ofDmaChannel v
     ((dmaCh s p.ch).state ≠ 0 → declines (.dmaChannel hd p0) s0 tk eBusy []) ∧
     ((dmaCh s p.ch).state = 0 →
       answers (.dmaChannel hd p0) s0 tk v s (setDmaCh p.ch (fun x => { x with set := some p, session := some tk.session }) s) [])) ∧
  (-- DMA_START (R538): Starts a DMA channel or releases its waiting descriptor.
   ∀ hd p0 s0 tk v s, accepts (.dmaStart hd p0) s0 = some (tk, v, s) →
     let p := ofDmaStart v
     let x := dmaCh s p.ch
     (x.set.isNone → declines (.dmaStart hd p0) s0 tk eState []) ∧
     (x.set.isSome →
       (x.state = 1 ∨ x.state = 3 → declines (.dmaStart hd p0) s0 tk eBusy []) ∧
       (¬ (x.state = 1 ∨ x.state = 3) → answers (.dmaStart hd p0) s0 tk v s (dmaStart p.ch none s).2 []))) ∧
  (-- DMA_RESUME (R544): Re-runs a halted descriptor from its first byte.
   ∀ hd p0 s0 tk v u, accepts (.dmaResume hd p0) s0 = some (tk, v, u) →
     let p := ofDmaResume v
     let s := u
     let x := dmaCh s p.ch
     (x.state ≠ 3 → declines (.dmaResume hd p0) s0 tk eState []) ∧
     (x.state = 3 →
       (x.desc = none →
         answers (.dmaResume hd p0) s0 tk v u (dmaFetch p.ch x.addr (setDmaCh p.ch (fun x => { x with origin := none }) s)) []) ∧
       (∀ d, x.desc = some d →
         let s := setDmaCh p.ch (fun x => { x with state := 1, done := 0, retries := 0, left := false, waitTo := none, origin := none }) s
         answers (.dmaResume hd p0) s0 tk v u (match descFault s d with | some r => dmaHaltWith p.ch r s | none => s) []))) ∧
  (-- DMA_ABORT (R544): Ends a DMA chain and returns the channel to IDLE.
   ∀ hd p0 s0 tk v s, accepts (.dmaAbort hd p0) s0 = some (tk, v, s) →
     let p := ofDmaAbort v
     let x := dmaCh s p.ch
     (x.state = 0 → answers (.dmaAbort hd p0) s0 tk v s s []) ∧
     (x.state ≠ 0 →
       (x.state = 1 ∧ x.desc.isSome ∧ x.waitTo.isNone ∧ ! x.left →
         answers (.dmaAbort hd p0) s0 tk v s (setDmaCh p.ch (fun x => { x with abort := true }) s) []) ∧
       (¬ (x.state = 1 ∧ x.desc.isSome ∧ x.waitTo.isNone ∧ ! x.left) →
         answers (.dmaAbort hd p0) s0 tk v s (dmaAbortNow p.ch s) []))) ∧
  (-- DMA_STATUS (R549): Returns a DMA channel's state and counters.
   ∀ hd p0 s0 tk v s, accepts (.dmaStatus hd p0) s0 = some (tk, v, s) →
     let p := ofDmaStatus v
     let x := dmaCh s p.ch
     answers (.dmaStatus hd p0) s0 tk v s s [u32 (dmaStat s p.ch), u32 x.tag, u64 x.addr, u64 x.done, u32 (rget (dmaBase + 0x104 + p.ch * 0x10) s), u32 (rget (dmaBase + 0x108 + p.ch * 0x10) s)]) ∧
  (-- DMA_BUF_WRITE (R546): Writes bytes into the user buffer.
   ∀ hd p0 s0 tk v s, accepts (.dmaBufWrite hd p0) s0 = some (tk, v, s) →
     let p := ofDmaBufWrite v
     answers (.dmaBufWrite hd p0) s0 tk v s (spaceWrite 0 p.offset p.data s) []) ∧
  (-- DMA_BUF_READ (R546): Reads bytes from the user buffer.
   ∀ hd p0 s0 tk v s, accepts (.dmaBufRead hd p0) s0 = some (tk, v, s) →
     let p := ofDmaBufRead v
     let r := readUnits 0 p.offset p.length s
     (r.1 → defers (.dmaBufRead hd p0) s0 tk v (answer tk eDevice [] r.2)) ∧
     (¬ (r.1) → answers (.dmaBufRead hd p0) s0 tk v s r.2 [.block (bufRead r.2 0 p.offset p.length)])) ∧
  (-- DMA_COUNTERS_CLEAR (R549): Sets the DMA counters to 0.
   ∀ hd s0 tk v s, accepts (.dmaCountersClear hd) s0 = some (tk, v, s) →
     answers (.dmaCountersClear hd) s0 tk v s (dmaCntClear s) [])

/-- What every command of family 0x0F (envelopes, monitors and margins) does once it is accepted (17_health_margins_and_faults.md). -/
def Obligations.HealthCommandsComplete : Prop :=
  (-- ENVELOPE_SET (R50): Sets and stores the envelope, goal and power limit, forming a new plan.
   ∀ hd p0 s0 tk v s, accepts (.envelopeSet hd p0) s0 = some (tk, v, s) →
     let p := ofEnvelopeSet v
     (match nvsWrite recSet [{ tk := tk, next := 1 }] (some (recHeld s recSet)) ((fun s => envelopeChanged (setNvs (fun v => { v with set := { v.set with env := p.env, goal := p.goal, watts := p.watts } }) s)) s) with
       | some e => defers (.envelopeSet hd p0) s0 tk v e
       | none => declines (.envelopeSet hd p0) s0 tk eBusy [])) ∧
  (-- PLAN_RUN (R628): Forms and applies a new margin plan.
   ∀ hd s0 tk v s, accepts (.planRun hd) s0 = some (tk, v, s) →
     (inMeasured s →
       defers (.planRun hd) s0 tk v (setMon (fun m => { m with planning := true, planWait := m.planWait ++ [(tk, 1)] }) s)) ∧
     (¬ (inMeasured s) → answers (.planRun hd) s0 tk v s s (planPs s.mon.plan 1))) ∧
  (-- MON_STATUS (R650): Returns monitor, plan and sensor figures.
   ∀ hd s0 tk v s, accepts (.monStatus hd) s0 = some (tk, v, s) →
     let unread : Int := if s.dev.state = .boot then 0 else -32768
     let temps := (List.range 24).map fun n => if sensorHere s n ∧ (s.mon.sensors.getD n {}).read then s16 (centi (sensorTemp s n)) else s16 unread
     let tj := if s.dev.state = .boot ∧ (validSensors s).isEmpty then 0 else monTj s
     answers (.monStatus hd) s0 tk v s s ([monStat s, tj, monPower s, monPlan s, monMargin s, monAge s, monVolt s 0, monVolt s 1, monVolt s 2].map u32 ++ temps)) ∧
  (-- THERMAL_CONFIG (R638): Sets T_warn and T_throttle.
   ∀ hd p0 s0 tk v s, accepts (.thermalConfig hd p0) s0 = some (tk, v, s) →
     let p := ofThermalConfig v
     answers (.thermalConfig hd p0) s0 tk v s (judgeWarn (setMon (fun m => { m with warnAt := p.warn, throttleAt := p.throttle }) s)) []) ∧
  (-- MARGIN_CONFIG (R632): Sets DROOP_MV and DROOP_LIMIT.
   ∀ hd p0 s0 tk v s, accepts (.marginConfig hd p0) s0 = some (tk, v, s) →
     let p := ofMarginConfig v
     answers (.marginConfig hd p0) s0 tk v s (setMon (fun m => { m with droopMv := p.droopMv, droopLimit := p.droopLimit }) s) []) ∧
  (-- TELEMETRY_CONFIG (R634): Sets the PMBus regulator addresses and rails.
   ∀ hd p0 s0 tk v s, accepts (.telemetryConfig hd p0) s0 = some (tk, v, s) →
     let p := ofTelemetryConfig v
     answers (.telemetryConfig hd p0) s0 tk v s (setMon (fun m => { m with tele := some p, telem := [], readMv := [0, 0, 0] }) s) []) ∧
  (-- TELEMETRY_READ (R634): Returns a regulator's telemetry.
   ∀ hd p0 s0 tk v s, accepts (.telemetryRead hd p0) s0 = some (tk, v, s) →
     let p := ofTelemetryRead v
     let x := (tabGet s.mon.telem p.reg).getD ⟨0, 0, 0, 0⟩
     answers (.telemetryRead hd p0) s0 tk v s s [u16 x.mv, u32 x.ma, s16 x.temp, u16 x.status]) ∧
  (-- CAL_STATUS (R635): Returns a calibration item's run record.
   ∀ hd p0 s0 tk v s, accepts (.calStatus hd p0) s0 = some (tk, v, s) →
     let p := ofCalStatus v
     let x := (tabGet s.mon.cal (calKey p.kind p.which)).getD {}
     answers (.calStatus hd p0) s0 tk v s s [u32 x.count, u64 x.last, s32 x.quality, s16 x.tj, u8 x.cls, u8 (boolNat (calProv s p.kind p.which))]) ∧
  (-- FAULT_POLICY (R641): Sets and stores FAULT_HOLD.
   ∀ hd p0 s0 tk v s, accepts (.faultPolicy hd p0) s0 = some (tk, v, s) →
     let p := ofFaultPolicy v
     (match nvsWrite recSet [{ tk := tk, ps := [] }] (some (recHeld s recSet)) ((setNvs fun v => { v with set := { v.set with hold := p.hold } }) s) with
       | some e => defers (.faultPolicy hd p0) s0 tk v e
       | none => declines (.faultPolicy hd p0) s0 tk eBusy [])) ∧
  (-- ERRLOG_READ (R648): Returns entries of the main or backup error log.
   ∀ hd p0 s0 tk v s, accepts (.errlogRead hd p0) s0 = some (tk, v, s) →
     let p := ofErrlogRead v
     let log := if p.log = 0 then s.mon.log else s.mon.blog
     let no := if p.log = 0 then s.mon.logNo else s.mon.blogNo
     answers (.errlogRead hd p0) s0 tk v s s (u64 no :: ((log.reverse.filter fun e => decide (p.first ≤ e.no)).take p.count).map fun e => .block (logBytes e))) ∧
  (-- MON_COUNTERS_CLEAR (R650): Sets the monitor counters to 0.
   ∀ hd s0 tk v s, accepts (.monCountersClear hd) s0 = some (tk, v, s) →
     answers (.monCountersClear hd) s0 tk v s (monCntClear s) [])

/-- What every command of family 0x10 (firmware update and the stores) does once it is accepted (16_boot_firmware_and_stores.md). -/
def Obligations.StoreCommandsComplete : Prop :=
  (-- FW_STAGE_BEGIN (R606): Enters UPDATE and erases staging for a new image.
   ∀ hd p0 s0 tk v u, accepts (.fwStageBegin hd p0) s0 = some (tk, v, u) →
     let p := ofFwStageBegin v
     let s := u
     (! s.nvs.found → declines (.fwStageBegin hd p0) s0 tk eDevice []) ∧
     (s.nvs.found →
       (s.nvs.trial → declines (.fwStageBegin hd p0) s0 tk eBusy []) ∧
       (¬ (s.nvs.trial) →
         let s := setNvs (fun v => { v with stageLen := some p.length }) s
         (let e := if s.nvs.recovery then s else setState .update stOk s;
           (16 ≤ queuedWrites e → declines (.fwStageBegin hd p0) s0 tk eBusy []) ∧
           (queuedWrites e < 16 → defers (.fwStageBegin hd p0) s0 tk v (nvsKick (setNvs (fun x => { x with stage := x.stage ++ [{ tk := tk, act := .erase }] }) e))))))) ∧
  (-- FW_STAGE_WRITE (R606): Programs a piece of the staged image.
   ∀ hd p0 s0 tk v s, accepts (.fwStageWrite hd p0) s0 = some (tk, v, s) →
     let p := ofFwStageWrite v
     (s.nvs.stageLen = none →
       declines (.fwStageWrite hd p0) s0 tk eState []) ∧
     (∀ n, s.nvs.stageLen = some n →
       (n < p.offset + p.length → declines (.fwStageWrite hd p0) s0 tk eParam []) ∧
       (¬ (n < p.offset + p.length) →
         (let e := s;
           (16 ≤ queuedWrites e → declines (.fwStageWrite hd p0) s0 tk eBusy []) ∧
           (queuedWrites e < 16 → defers (.fwStageWrite hd p0) s0 tk v (nvsKick (setNvs (fun x => { x with stage := x.stage ++ [{ tk := tk, act := (.piece p.offset p.data) }] }) e))))))) ∧
  (-- FW_STAGE_END (R606): Checks the staged image and on success writes STAGED and returns to STANDBY.
   ∀ hd s0 tk v s, accepts (.fwStageEnd hd) s0 = some (tk, v, s) →
     (s.nvs.stageLen.isNone → declines (.fwStageEnd hd) s0 tk eState []) ∧
     (s.nvs.stageLen.isSome →
       (! s.nvs.stage.isEmpty →
         defers (.fwStageEnd hd) s0 tk v (setNvs (fun v => { v with stage := v.stage ++ [{ tk := tk, act := .check }] }) s)) ∧
       (s.nvs.stage.isEmpty →
         (let b := stagedImage s;
           let k := stagedCheck s;
           (k ≠ 0 → declines (.fwStageEnd hd) s0 tk (checkStatus k) [u8 k]) ∧
           (k = 0 → (match nvsWrite recSlot [{ tk := tk, ps := [u32 (imgVer b), u16 (imgSec b)], next := 2 }] (some (recHeld s recSlot)) ((setSlotImg (fun x => { x with staged := 1, tries := 0, stagedVer := imgVer b, stagedLen := b.length })) s) with
           | some e => defers (.fwStageEnd hd) s0 tk v e
           | none => declines (.fwStageEnd hd) s0 tk eBusy [])))))) ∧
  (-- FW_STAGE_ABORT (R618): Abandons staging and returns to STANDBY.
   ∀ hd s0 tk v s, accepts (.fwStageAbort hd) s0 = some (tk, v, s) →
     (s.nvs.fuse.isSome → declines (.fwStageAbort hd) s0 tk eBusy []) ∧
     (s.nvs.fuse.isNone →
       (! s.nvs.stage.isEmpty →
         defers (.fwStageAbort hd) s0 tk v (setNvs (fun v => { v with stage := v.stage ++ [{ tk := tk, act := .abort }] }) s)) ∧
       (s.nvs.stage.isEmpty → answers (.fwStageAbort hd) s0 tk v s (stageDrop s) []))) ∧
  (-- FW_STATUS (R618): Returns the slot state and firmware registers.
   ∀ hd s0 tk v s, accepts (.fwStatus hd) s0 = some (tk, v, s) →
     answers (.fwStatus hd) s0 tk v s s [.block (slotBytes s.nvs.slotImg), u32 (nvsFw s), u32 s.nvs.runVer, u32 (nvsSecver s)]) ∧
  (-- FW_CONFIRM (R609): Lets a trial firmware in HOST mode confirm itself.
   ∀ hd s0 tk v s, accepts (.fwConfirm hd) s0 = some (tk, v, s) →
     answers (.fwConfirm hd) s0 tk v s (if s.nvs.trial then setNvs (fun v => { v with hostOk := true }) s else s) []) ∧
  (-- FW_POLICY (R609): Sets and stores the confirmation window and mode.
   ∀ hd p0 s0 tk v s, accepts (.fwPolicy hd p0) s0 = some (tk, v, s) →
     let p := ofFwPolicy v
     (match nvsWrite recSet [{ tk := tk, ps := [] }] (some (recHeld s recSet)) ((setNvs fun v => { v with set := { v.set with window := p.window, mode := p.mode } }) s) with
       | some e => defers (.fwPolicy hd p0) s0 tk v e
       | none => declines (.fwPolicy hd p0) s0 tk eBusy [])) ∧
  (-- FW_ROLLBACK (R611): Arms the other slot for a trial boot at the next start.
   ∀ hd s0 tk v s, accepts (.fwRollback hd) s0 = some (tk, v, s) →
     let other := 1 - s.nvs.slotImg.active % 2
     let k := imgCheck s (slotImage s other)
     (s.nvs.trial → declines (.fwRollback hd) s0 tk eBusy []) ∧
     (¬ (s.nvs.trial) →
       (k ≠ 0 → declines (.fwRollback hd) s0 tk (checkStatus k) []) ∧
       (k = 0 →
         (match nvsWrite recSlot [{ tk := tk, ps := [] }] (some (recHeld s recSlot)) ((fun s => setSlotImg (fun x => { x with active := other, previous := s.nvs.running, trial := 1, result := 7 }) s) s) with
           | some e => defers (.fwRollback hd) s0 tk v e
           | none => declines (.fwRollback hd) s0 tk eBusy [])))) ∧
  (-- EFUSE_READ (R590): Returns bytes of the eFuse shadow.
   ∀ hd p0 s0 tk v s, accepts (.efuseRead hd p0) s0 = some (tk, v, s) →
     let p := ofEfuseRead v
     answers (.efuseRead hd p0) s0 tk v s s [.block ((List.range p.length).map fun i => fuseByte s ((fuseRegion p.region).1 + p.offset + i))]) ∧
  (-- EFUSE_SECVER_ADVANCE (R611): Programs the security minimum up to the running image's version.
   ∀ hd s0 tk v s, accepts (.efuseSecverAdvance hd) s0 = some (tk, v, s) →
     (s.nvs.trial → declines (.efuseSecverAdvance hd) s0 tk eBusy []) ∧
     (¬ (s.nvs.trial) →
       (let todo := ((List.range s.nvs.runSec).filter fun i => ! s.nvs.shadowSec.contains i);
         (todo.isEmpty → answers (.efuseSecverAdvance hd) s0 tk v s s [u16 (secMin s)]) ∧
         (¬ (todo.isEmpty) → defers (.efuseSecverAdvance hd) s0 tk v (setState .update stOk (setNvs (fun x => { x with fuse := some { tk := tk, key := none, bits := todo } }) s)))))) ∧
  (-- EFUSE_KEY_REVOKE (R592): Programs the revocation bits of a key slot.
   ∀ hd p0 s0 tk v s, accepts (.efuseKeyRevoke hd p0) s0 = some (tk, v, s) →
     let p := ofEfuseKeyRevoke v
     let used := usesKey s.nvs.slotA p.slot || usesKey s.nvs.slotB p.slot || (s.nvs.slotImg.staged == 1 && usesKey (stagedImage s) p.slot)
     let last := ([0, 1, 2, 3].filter fun k => k != p.slot).all fun k => keyRevoked s k
     (s.nvs.trial ∨ used ∨ last → declines (.efuseKeyRevoke hd p0) s0 tk eBusy []) ∧
     (¬ (s.nvs.trial ∨ used ∨ last) →
       (let todo := ((List.range 8).filter fun i => ! bit ((tabGet s.nvs.shadowKeys p.slot).getD 0) i);
         (todo.isEmpty → answers (.efuseKeyRevoke hd p0) s0 tk v s s []) ∧
         (¬ (todo.isEmpty) → defers (.efuseKeyRevoke hd p0) s0 tk v (setState .update stOk (setNvs (fun x => { x with fuse := some { tk := tk, key := (some p.slot), bits := todo } }) s)))))) ∧
  (-- CAL_WRITE (R612): Writes a record into the user calibration store.
   ∀ hd p0 s0 tk v s, accepts (.calWrite hd p0) s0 = some (tk, v, s) →
     let p := ofCalWrite v
     (p.type = 0x13 →
       let xs := trimEntries p.data
       let ys := xs.map trimClamp
       (let recs := (calPut 0x13 0 (tmuNs s) (trimBytes ys)) s.nvs.cal;
         (2097120 < calBytes recs → declines (.calWrite hd p0) s0 tk eParam [u32 (calFree s.nvs.cal)]) ∧
         (calBytes recs ≤ 2097120 → match nvsWrite recCal [{ tk := { tk with adj := if xs = ys then tk.adj else tk.adj ||| 8 } }] (some (recHeld s recCal)) (setNvs (fun x => { x with cal := recs }) s) with
           | some e => defers (.calWrite hd p0) s0 tk v e
           | none => declines (.calWrite hd p0) s0 tk eBusy []))) ∧
     (p.type ≠ 0x13 →
       (let recs := (calPut p.type p.inst (tmuNs s) p.data) s.nvs.cal;
         (2097120 < calBytes recs → declines (.calWrite hd p0) s0 tk eParam [u32 (calFree s.nvs.cal)]) ∧
         (calBytes recs ≤ 2097120 → match nvsWrite recCal [{ tk := tk }] (some (recHeld s recCal)) (setNvs (fun x => { x with cal := recs }) s) with
           | some e => defers (.calWrite hd p0) s0 tk v e
           | none => declines (.calWrite hd p0) s0 tk eBusy [])))) ∧
  (-- CAL_READ (R618): Returns bytes of a calibration record.
   ∀ hd p0 s0 tk v s, accepts (.calRead hd p0) s0 = some (tk, v, s) →
     let p := ofCalRead v
     (∀ r, calFind s.nvs.cal p.type p.inst = some r →
       answers (.calRead hd p0) s0 tk v s s [.block ((r.bytes.drop p.offset).take p.length)]) ∧
     (calFind s.nvs.cal p.type p.inst = none →
       declines (.calRead hd p0) s0 tk eParam [])) ∧
  (-- CAL_LIST (R618): Lists the records of the calibration store.
   ∀ hd p0 s0 tk v s, accepts (.calList hd p0) s0 = some (tk, v, s) →
     let p := ofCalList v
     answers (.calList hd p0) s0 tk v s s (((s.nvs.cal.drop p.first).take p.count).flatMap fun r => [.align 8, u8 r.typ, u8 0, u16 r.inst, u32 r.bytes.length, u32 r.gen, u64 r.time, .align 8])) ∧
  (-- CAL_ERASE (R618): Removes a calibration record.
   ∀ hd p0 s0 tk v s, accepts (.calErase hd p0) s0 = some (tk, v, s) →
     let p := ofCalErase v
     ((calFind s.nvs.cal p.type p.inst).isNone → declines (.calErase hd p0) s0 tk eParam []) ∧
     ((calFind s.nvs.cal p.type p.inst).isSome →
       (let recs := (fun xs => xs.filter fun r => ! (r.typ == p.type && r.inst == p.inst)) s.nvs.cal;
         (2097120 < calBytes recs → declines (.calErase hd p0) s0 tk eParam [u32 (calFree s.nvs.cal)]) ∧
         (calBytes recs ≤ 2097120 → match nvsWrite recCal [{ tk := tk }] (some (recHeld s recCal)) (setNvs (fun x => { x with cal := recs }) s) with
           | some e => defers (.calErase hd p0) s0 tk v e
           | none => declines (.calErase hd p0) s0 tk eBusy [])))) ∧
  (-- SETTINGS_SAVE (R615): Stores the settings in force with autoload slot and autocommit.
   ∀ hd p0 s0 tk v s, accepts (.settingsSave hd p0) s0 = some (tk, v, s) →
     let p := ofSettingsSave v
     (match nvsWrite recSet [{ tk := tk, ps := [] }] (some (recHeld s recSet)) ((fun s => setNvs (fun v => { v with set := { v.set with autoload := p.slot, autocommit := p.autocommit, rcpCfg := some (rget (rcpBase + 8) s) } }) s) s) with
       | some e => defers (.settingsSave hd p0) s0 tk v e
       | none => declines (.settingsSave hd p0) s0 tk eBusy [])) ∧
  (-- STORE_STATUS (R618): Returns store state and record generations.
   ∀ hd s0 tk v s, accepts (.storeStatus hd) s0 = some (tk, v, s) →
     let gens := (List.range 22).map fun i => u32 (match tabGet s.nvs.copies i with | some c => c.gen | none => 0)
     answers (.storeStatus hd) s0 tk v s s ([u32 (nvsStat s), u32 (rget (nvsBase + 4) s)] ++ gens ++ [u32 (calFree s.nvs.cal), u32 s.nvs.sizeMib]))

/-- What every command of family 0x11 (the register window, logs and diagnosis) does once it is accepted (17_health_margins_and_faults.md). -/
def Obligations.DiagnosisCommandsComplete : Prop :=
  (-- REG_READ (R651): Reads registers through the register window.
   ∀ hd p0 s0 tk v s, accepts (.regRead hd p0) s0 = some (tk, v, s) →
     let p := ofRegRead v
     let as := (List.range p.count).map fun i => p.addr + 4 * i
     let s' := as.foldl (fun s a => if shut s a then isoErr s else s) s
     answers (.regRead hd p0) s0 tk v s s' (as.map fun a => u32 (regView s a))) ∧
  (-- REG_WRITE (R651): Writes a register through the window with the owner's rights.
   ∀ hd p0 s0 tk v u, accepts (.regWrite hd p0) s0 = some (tk, v, u) →
     let p := ofRegWrite v
     let s := u
     let old := regView s p.addr
     let rw := (old - (old &&& p.mask)) + (p.value &&& p.mask)
     let s := regWrite p.addr ⟨true, p.link, rw, p.value &&& p.mask⟩ s
     answers (.regWrite hd p0) s0 tk v u s [u32 (regView s p.addr)]) ∧
  (-- DIAG_RESET (R652): Asserts a Block, System or Chip reset 10 ms after the reply.
   ∀ hd p0 s0 tk v s, accepts (.diagReset hd p0) s0 = some (tk, v, s) →
     let p := ofDiagReset v
     answers (.diagReset hd p0) s0 tk v s (setRcp (fun r => { r with diag := r.diag ++ [⟨s.now + 10 * ms, p.reach, p.wrapper, p.keep == 1, some (tk.session, tk.tag)⟩] }) s) []) ∧
  (-- DIAG_INJECT (R652): Corrupts check bits of a DRAM unit or the next SRAM word of a block.
   ∀ hd p0 s0 tk v s, accepts (.diagInject hd p0) s0 = some (tk, v, s) →
     let p := ofDiagInject v
     (p.kind < 2 →
       let keep := s.dmc.bad.filter fun e => ! (e.1 == 0 && e.2.1 == p.target / 64)
       answers (.diagInject hd p0) s0 tk v s (setDmc (fun d => { d with bad := keep ++ [(0, p.target / 64, p.kind)] }) s) []) ∧
     (¬ (p.kind < 2) →
       (p.kind = 2 → answers (.diagInject hd p0) s0 tk v s (sramCe p.target s) []) ∧
       (p.kind ≠ 2 → answers (.diagInject hd p0) s0 tk v s (sramUe p.target s) [])))

/-! ## What each register write and event does

Each clause is one row: where its hypotheses on the state and the operands hold, the row has the effect given (`becomes`). -/

/-- What each row about web lines, tiles and records in the Electrum array does where its hypotheses hold (06_electrum_defect_analysis.md). -/
def Obligations.ArrayEventsComplete : Prop :=
  (-- WEB_LINE_ARRIVAL (R255): A web line reaches a cluster's backlog or is skipped when full.
   ∀ tRow (k : Nat) (verify : Bool) sRow s, reaches tRow [16 + k] sRow s →
     (verify ∧ ! hostsVerify s k → becomes (.webLineArrival tRow k verify) tRow sRow s) ∧
     (¬ (verify ∧ ! hostsVerify s k) →
       let c := cluOf s verify k
       (match c.inq with
         | [] => becomes (.webLineArrival tRow k verify) tRow sRow s
         | l :: rest =>
             let parked := ! verify && s.elx.parked.contains k && ! l.first
             let s := if parked then s else setElx (fun x => if verify then x else { x with parked := x.parked.filter (· != k) }) s
             let full := decide (backlogMax s l.slot ≤ c.backlog.length)
             let skip := c.skipping || full
             let s := rset elxBase k s
             (parked ∨ skip →
               becomes (.webLineArrival tRow k verify) tRow sRow (advanceLabels verify (skipLine verify k (setClu verify k (fun c => { c with inq := rest, skipping := c.skipping || ! parked }) s) l))) ∧
             (¬ (parked ∨ skip) →
               becomes (.webLineArrival tRow k verify) tRow sRow (setClu verify k (fun c => { c with inq := rest, backlog := c.backlog ++ [{ l with restart := l.restart || c.owed }], owed := false, lastAt := s.now }) s))))) ∧
  (-- LINE_ANALYSED (R271): A cluster finishes analysing a web line, closing and merging components.
   ∀ tRow (k : Nat) (verify : Bool) (p : ElxPoison) sRow u, reaches tRow [16 + k] sRow u →
     let s := if (p.line || p.tiles || ! p.comps.isEmpty) then poisonRead u else u
     let rows : Int × List ((PGraphNode × Nat) × List Int) :=
         if ! verify ∨ (dotNodes s).isEmpty then (0, []) else
         match s.elx.ver.backlog, verifySlot s with
         | l :: _, some v =>
           let ns := gnodes s.cfg.graph v
           let bg := if l.restart then [] else s.elx.ver.bg
           let lines := if l.restart then 0 else s.elx.ver.lines
           let r := pixelRows ns true l p.line 0 (verifyWidth s ns) lines bg
           (l.q, (dotNodes s).map fun d => (d, owned (match tabGet s.cfg.streams d.2 with | some c => c.width | none => 0) ((tabGet r.1 (nth d.1.inputs 0)).getD [])))
         | _, _ => (0, [])
     let t := lineAnalysed k verify p s
     (t.elx.ver.backlog.length < s.elx.ver.backlog.length →
       becomes (.lineAnalysed tRow k verify p) tRow sRow (rows.2.foldl (measureLine rows.1) t)) ∧
     (¬ (t.elx.ver.backlog.length < s.elx.ver.backlog.length) → becomes (.lineAnalysed tRow k verify p) tRow sRow t)) ∧
  (-- CLASSIFY_DONE (R279): A model finishes classifying a tile and the record and mark decision follow.
   ∀ tRow (k : Nat) (poison : Bool) sRow u, reaches tRow [16 + k] sRow u →
     let s := if poison then poisonRead u else u
     (match s.elx.waiting.find? fun f => f.home == k with
       | none => becomes (.classifyDone tRow k poison) tRow sRow s
       | some f =>
           let s := setElx (fun e => { e with waiting := removeFirst (fun g => g.home == k) e.waiting }) s
           (poison →
             let s := elxNotify 2 k f.nc (bump (elxReg k 0x1C) 1 (rset (elxBase + 4) 2 s))
             becomes (.classifyDone tRow k poison) tRow sRow (emitFound { f with model := 0, flags := f.flags + flagShed } s)) ∧
           (¬ (poison) →
             (match tabGet s.models.loaded f.model, f.cut with
               | some m, some t =>
                   let r := classifyTile m.bytes t.tw t.th t.inputs
                   let least := match findKernel (gnodes (contentsOf s f.ver) f.slot) kClassify with | some n => npar n.2 1 | none => 0
                   let cls := if least ≤ (r.2.2.1 : Int) then r.2.1 else f.cls
                   becomes (.classifyDone tRow k poison) tRow sRow (emitFound { f with cls := cls, conf := r.2.2.1 } (setModels (fun x => { x with loaded := tabPut x.loaded f.model { m with tiles := m.tiles + 1 } }) s))
               | _, _ => becomes (.classifyDone tRow k poison) tRow sRow (emitFound { f with model := 0 } s))))) ∧
  (-- RECORD_WRITTEN (R321): The result writer writes a record into its queue ring and mirrors.
   ∀ tRow sRow s, reaches tRow [41] sRow s →
     let s := refill s
     let stalled := (s.res.writer.filter fun p => blocked s p.queue).map fun p => p.queue
     let s := if stalled.isEmpty then s else stalled.foldl (fun s q => resultNotify q 1 1 s) (rset resBase 1 s)
     (s.res.writer.find? (writable s) = none →
       becomes (.recordWritten tRow) tRow sRow s) ∧
     (∀ p, s.res.writer.find? (writable s) = some p →
       becomes (.recordWritten tRow) tRow sRow (refill (writeRec p (setRes (fun r => { r with writer := dropFirst (writable s) r.writer }) s))))) ∧
  (-- CLUSTER_GATE (R47): A cluster with no strip for its idle time is gated.
   ∀ tRow (k : Nat) sRow s, reaches tRow [16 + k] sRow s →
     let quiet : Clu → Bool := fun c => c.inq.isEmpty && c.backlog.isEmpty && decide (c.lastAt + s.cfg.gating * ms ≤ s.now)
     (quiet (cluOf s false k) ∧ (! hostsVerify s k ∨ quiet s.elx.ver) →
       becomes (.clusterGate tRow k) tRow sRow (rfield elxBase k 1 0 s)) ∧
     (¬ (quiet (cluOf s false k) ∧ (! hostsVerify s k ∨ quiet s.elx.ver)) → becomes (.clusterGate tRow k) tRow sRow s)) ∧
  (-- CLUSTER_HANG (R645): A cluster hung 10 ms with lines waiting is Block reset.
   ∀ tRow (k : Nat) sRow s, reaches tRow [16 + k] sRow s →
     ((cluOf s false k).backlog.isEmpty ∧ (cluOf s false k).inq.isEmpty ∧ ! (hostsVerify s k && ! (cluOf s true k).backlog.isEmpty) →
       becomes (.clusterHang tRow k) tRow sRow s) ∧
     (¬ ((cluOf s false k).backlog.isEmpty ∧ (cluOf s false k).inq.isEmpty ∧ ! (hostsVerify s k && ! (cluOf s true k).backlog.isEmpty)) →
       becomes (.clusterHang tRow k) tRow sRow (assertBlock (16 + k) causeSwBlock false false s))) ∧
  (-- COALESCING_INTERVAL_END (R332): A mirror's coalescing interval ends and the pending MSI-X vector 65 signal for records written meanwhile is sent.
   ∀ tRow link q sRow s, reaches tRow [41] sRow s → ∀ sid x m,
     ((subsOf s q).find? fun e => match e.2.mirror with | some m => m.link == link | none => false) = some (sid, x) → x.mirror = some m → m.owed → m.until_ ≤ s.now →
     becomes (.coalescingIntervalEnd tRow link q) tRow sRow (setSub sid q (fun x => { x with mirror := some { m with owed := false, until_ := s.now + m.coalesce * us } }) (emit (.msix link 65) s)))

/-- What each row about booting, firmware confirmation and the stores does where its hypotheses hold (16_boot_firmware_and_stores.md). -/
def Obligations.BootAndStoreEventsComplete : Prop :=
  (-- BOOT_ROM_START (R603): Management core 0 starts the boot ROM, chooses and checks a slot and starts firmware.
   ∀ tRow (flash : Option Nat) (factoryOk : Bool) (copyOk : Bool) (refclk : Bool) sRow s, arrive tRow sRow = s →
     (∀ r, s.rcp.rst = some r →
       (! r.released → becomes (.bootRomStart tRow flash factoryOk ⟨copyOk, refclk⟩) tRow sRow s) ∧
       (r.released →
         let s := rput (rcpBase + 0x48) (min 0xFFFFF ((s.now - r.freeAt) / us)) (setRcp (fun c => { c with rst := none, gate := false, sris := ! refclk }) s)
         let s := rfield (rcpBase + 0x10) 0 16 2000 (setNvs (fun v => { v with boot := 1 }) s)
         let s := emit (.pin pinFlashRst 0 true) (emit (.pin pinFlashRst 0 false) s)
         (flash = none →
           becomes (.bootRomStart tRow flash factoryOk ⟨copyOk, refclk⟩) tRow sRow (enterRecovery s)) ∧
         (∀ mib, flash = some mib →
           (mib < 32 → becomes (.bootRomStart tRow flash factoryOk ⟨copyOk, refclk⟩) tRow sRow (enterRecovery s)) ∧
           (¬ (mib < 32) →
             let s := setNvs (fun v => { v with found := true, sizeMib := mib }) s
             let c := chooseSlot (installStaged copyOk (readSlot s))
             (c.1 = none →
               becomes (.bootRomStart tRow flash factoryOk ⟨copyOk, refclk⟩) tRow sRow (enterRecovery c.2)) ∧
             (∀ k, c.1 = some k →
               becomes (.bootRomStart tRow flash factoryOk ⟨copyOk, refclk⟩) tRow sRow (startFirmware k factoryOk c.2)))))) ∧
     (s.rcp.rst = none →
       becomes (.bootRomStart tRow flash factoryOk ⟨copyOk, refclk⟩) tRow sRow s)) ∧
  (-- DRAM_READY (R514): DRAM initialisation and training or self-refresh exit complete during boot.
   ∀ tRow (fs : List DramFind) sRow s, reaches tRow [] sRow s →
     (s.dev.state ≠ .boot ∨ s.nvs.boot ≠ 7 → becomes (.dramReady tRow fs) tRow sRow s) ∧
     (¬ (s.dev.state ≠ .boot ∨ s.nvs.boot ≠ 7) →
       let r := if s.dmc.retained then (true, dramExit s) else dramInit fs s
       (r.1 → becomes (.dramReady tRow fs) tRow sRow (startPlan (setNvs (fun v => { v with boot := 8 }) r.2))) ∧
       (¬ (r.1) → becomes (.dramReady tRow fs) tRow sRow (faultEntry 2 unitDmc 0 r.2)))) ∧
  (-- BOOT_COMPLETE (R603): Engines and codecs are loaded, ports come up and the device reaches STANDBY.
   ∀ tRow (crcOk : Bool) sRow s, reaches tRow [] sRow s →
     (s.dev.state ≠ .boot ∨ s.nvs.boot ≠ 8 ∨ s.mon.planning → becomes (.bootComplete tRow crcOk) tRow sRow s) ∧
     (¬ (s.dev.state ≠ .boot ∨ s.nvs.boot ≠ 8 ∨ s.mon.planning) →
       (! crcOk → becomes (.bootComplete tRow crcOk) tRow sRow (faultEntry 2 unitDev 0 s)) ∧
       (crcOk →
         let s := rfield (rcpBase + 0x10) 16 1 0 (setRcp (fun c => { c with starting := false }) s)
         let s := setState .standby stOk (setNvs (fun v => { v with boot := 10 }) s)
         let s := match s.nvs.tell with
             | some (kind, result) => fwNotify kind result stOk s.nvs.runVer (setNvs (fun v => { v with tell := none }) s)
             | none => s
         let r := autoload s
         (∀ st, r.1 = some st →
           becomes (.bootComplete tRow crcOk) tRow sRow (fwNotify 3 0 st r.2.nvs.runVer r.2)) ∧
         (r.1 = none →
           becomes (.bootComplete tRow crcOk) tRow sRow r.2)))) ∧
  (-- TRIAL_CONFIRM (R609): A trial firmware's confirmation conditions hold and CONFIRMED is written.
   ∀ tRow (perst : Nat) (mgmt : Bool) sRow s, reaches tRow [] sRow s →
     let links := (List.range 4).all fun l => ! bit perst l || s.dev.trained.contains l
     (s.nvs.trial ∧ ! s.rcp.starting ∧ ! s.dmc.set.isEmpty ∧ links ∧ mgmt ∧ (s.nvs.set.mode = 0 ∨ s.nvs.hostOk) →
       let s := nvsPut recSlot (setSlotImg (fun x => { x with trial := 0, result := 6 }) (setNvs (fun v => { v with trial := false }) s))
       becomes (.trialConfirm tRow perst mgmt) tRow sRow (fwNotify 1 6 stOk s.nvs.runVer s)) ∧
     (¬ (s.nvs.trial ∧ ! s.rcp.starting ∧ ! s.dmc.set.isEmpty ∧ links ∧ mgmt ∧ (s.nvs.set.mode = 0 ∨ s.nvs.hostOk)) →
       becomes (.trialConfirm tRow perst mgmt) tRow sRow s)) ∧
  (-- CONFIRMATION_WINDOW_END (R610): The window ends unconfirmed and a Chip reset returns to the previous slot.
   ∀ tRow sRow s, reaches tRow [] sRow s →
     (s.nvs.trial ∧ s.nvs.trialEnd ≤ s.now → becomes (.confirmationWindowEnd tRow) tRow sRow (swReset 2 0 false s)) ∧
     (¬ (s.nvs.trial ∧ s.nvs.trialEnd ≤ s.now) → becomes (.confirmationWindowEnd tRow) tRow sRow s)) ∧
  (-- RECOVERY_RESET (R605): 100 ms after a successful FW_STAGE_END in recovery a Chip reset is asserted.
   ∀ tRow sRow s, reaches tRow [] sRow s →
     (∀ t, s.nvs.recoverAt = some t →
       (t ≤ s.now →
         becomes (.recoveryReset tRow) tRow sRow (swReset 2 0 false (setNvs (fun v => { v with recoverAt := none }) s))) ∧
       (¬ (t ≤ s.now) → becomes (.recoveryReset tRow) tRow sRow s)) ∧
     (s.nvs.recoverAt = none →
       becomes (.recoveryReset tRow) tRow sRow s)) ∧
  (-- NVS_WRITE_COMPLETE (R598): A two-copy flash record write finishes or fails and the next queued write starts.
   ∀ tRow (ok : Bool) (second : Bool) sRow s, reaches tRow [] sRow s →
     becomes (.nvsWriteComplete tRow ok second) tRow sRow (deferSeen (writeDone ok second storeWaiter settingsBack s))) ∧
  (-- EFUSE_PULSE (R591): An eFuse program pulse ends and the bit is read back.
   ∀ tRow (ok : Bool) sRow s, reaches tRow [] sRow s →
     (s.nvs.fuse = none →
       becomes (.efusePulse tRow ok) tRow sRow s) ∧
     (∀ f, s.nvs.fuse = some f →
       (! f.on ∨ s.now < f.at_ + 10 * us → becomes (.efusePulse tRow ok) tRow sRow s) ∧
       (¬ (! f.on ∨ s.now < f.at_ + 10 * us) →
         (match f.bits with
           | [] => becomes (.efusePulse tRow ok) tRow sRow (fuseEnd f stOk [u16 (secMin s)] s)
           | b :: rest =>
               let again : FusePgm → State → State := fun f s => nvsKick (setNvs (fun v => { v with fuse := some { f with on := false } }) s)
               becomes (.efusePulse tRow ok) tRow sRow (deferSeen (if ok then let s := shadowBit f b (fuseBit f b s); if rest.isEmpty then fuseEnd f stOk [u16 (secMin s)] s else again { f with bits := rest, tries := 0 } s else if f.tries < 2 then again { f with tries := f.tries + 1 } s else fuseEnd f eStore [] (rset (nvsBase + 4) 3 s))))))) ∧
  (-- PCIE_LINK_TRAINED (R603): A PCIe host link finishes training and becomes usable for queue pairs and confirmation.
   ∀ tRow (l : Nat) sRow s, reaches tRow [] sRow s →
     (4 ≤ l ∨ s.rcp.rst.isSome ∨ s.dev.trained.contains l → becomes (.pcieLinkTrained tRow l) tRow sRow s) ∧
     (¬ (4 ≤ l ∨ s.rcp.rst.isSome ∨ s.dev.trained.contains l) →
       becomes (.pcieLinkTrained tRow l) tRow sRow (setDev (fun d => { d with trained := d.trained ++ [l] }) s))) ∧
  (-- FLASH_READY (R606): The flash finishes erasing or programming staging sectors, and FW_STAGE_BEGIN or FW_STAGE_WRITE replies.
   ∀ tRow (ok : Bool) sRow s, reaches tRow [] sRow s →
     (match s.nvs.stage with
       | [] => becomes (.flashReady tRow ok) tRow sRow s
       | op :: _ =>
           (! op.on → becomes (.flashReady tRow ok) tRow sRow s) ∧
           (op.on →
             becomes (.flashReady tRow ok) tRow sRow (deferSeen (if ok then stageOn (answer op.tk stOk [] (stagePop (stagePut op.act s))) else if ! op.retried then setNvs (fun v => { v with stage := { op with retried := true, on := ! nvsHeld s } :: v.stage.tail }) s else stageOn (answer op.tk eStore [] (rset (nvsBase + 4) 0 (rset (nvsBase + 4) 2 (stagePop s)))))))))

/-- What each row about marks and marking heads does where its hypotheses hold (09_marking_heads.md). -/
def Obligations.FiringEventsComplete : Prop :=
  (-- MARK_DECISION (R359): A mark decision reaches the marking unit and is rasterised or listed pending.
   ∀ tRow sRow s, reaches tRow [39] sRow s →
     (match s.mrk.inbox with
       | [] => becomes (.markDecision tRow) tRow sRow s
       | d :: r => becomes (.markDecision tRow) tRow sRow (offer (.mark d) (setMrk (fun m => { m with inbox := r }) s)))) ∧
  (-- FIRE_INSTANT (R353): The web axis reaches a head's fire instant and it is fired, dropped, skipped or held.
   ∀ tRow (h : Nat) (j : Int) (fwd : Bool) sRow s, reaches tRow [39] sRow s →
     (tabGet s.cfg.heads h = none →
       becomes (.fireInstant tRow h j fwd) tRow sRow s) ∧
     (∀ c, tabGet s.cfg.heads h = some c →
       let x := mhead s h
       let held := match x.jr with | some r => j != r || decide (x.top < r) | none => false
       (! fwd ∨ j ≤ x.hwm ∨ ! webReaches s (fireAt s h j) true → becomes (.fireInstant tRow h j fwd) tRow sRow s) ∧
       (¬ (! fwd ∨ j ≤ x.hwm ∨ ! webReaches s (fireAt s h j) true) →
         (held → becomes (.fireInstant tRow h j fwd) tRow sRow (setMHead h (fun y => { y with seen := max y.seen j }) s)) ∧
         (¬ (held) →
           let before := bufLevel x
           let s := setMHead h (fun y => { y with jr := none, backed := false }) s
           (! runningState s.dev.state →
             becomes (.fireInstant tRow h j fwd) tRow sRow (countHot h (missInstant h j [] (setMHead h (fun y => { y with hwm := j, seen := max y.seen j, top := max y.top j }) s)))) ∧
           (runningState s.dev.state →
             (production s h ∧ x.top < j →
               (s.cfg.lineMode.mode = 0 ∨ s.mrk.skipMode →
                 becomes (.fireInstant tRow h j fwd) tRow sRow (afterInstant h before (passInstant h j (settleInstant h j (some 0)) (underrun h j s)))) ∧
               (¬ (s.cfg.lineMode.mode = 0 ∨ s.mrk.skipMode) →
                 let s := dropDots h 4 (fun d => decide (d.inst < j)) s
                 becomes (.fireInstant tRow h j fwd) tRow sRow (underrun h j (setMHead h (fun y => { y with jr := some j, hwm := j - 1, seen := max y.seen j, top := j - 1 }) s)))) ∧
             (¬ (production s h ∧ x.top < j) →
               becomes (.fireInstant tRow h j fwd) tRow sRow (afterInstant h before (passInstant h j (fireBuffered h c j) s)))))))) ∧
  (-- PREHEAT_START (R356): The position reaches q_j − PRE_ADV and the pre-heat train begins.
   ∀ tRow (h : Nat) (j : Int) sRow s, reaches tRow [39] sRow s →
     ((tabGet s.cfg.heads h).isNone ∨ (mhead s h).hwm ≥ j ∨ ! webReaches s (fireAt s h j - (preheatOf s h).adv) true →
       becomes (.preheatStart tRow h j) tRow sRow s) ∧
     (¬ ((tabGet s.cfg.heads h).isNone ∨ (mhead s h).hwm ≥ j ∨ ! webReaches s (fireAt s h j - (preheatOf s h).adv) true) →
       becomes (.preheatStart tRow h j) tRow sRow (flushTrain h (setMHead h (fun x => { x with crossed := (j, s.now) :: x.crossed.filter fun e => e.1 != j && decide (x.hwm < e.1), pre := match x.pre with | some q => if q.1 = j then none else x.pre | none => none }) s)))) ∧
  (-- MARK_FETCH_DONE (R368): Ring lines fetched by DMA enter a head's buffer.
   ∀ tRow (h : Nat) (count : Nat) (poison : List Int) sRow u, reaches tRow [39, 40] sRow u →
     let s := if (! poison.isEmpty) then poisonRead u else u
     ((tabGet s.cfg.heads h).isNone ∨ ! runningState s.dev.state →
       becomes (.markFetchDone tRow h count poison) tRow sRow s) ∧
     (¬ ((tabGet s.cfg.heads h).isNone ∨ ! runningState s.dev.state) →
       let bad : Dot → Dot := fun d => if d.cause = 255 ∧ poison.contains d.inst then { d with cause := 0 } else d
       becomes (.markFetchDone tRow h count poison) tRow sRow (reshift h (setMHead h (fun x => { x with top := min (max x.top x.hwm + count) (x.hwm + 256), dots := x.dots.map bad }) s)))) ∧
  (-- LDACK_CHANGE (R371): The line controller's LDACK input changes.
   ∀ tRow (level : Bool) sRow s, reaches tRow [39] sRow s →
     (s.mrk.ldack = level → becomes (.ldackChange tRow level) tRow sRow s) ∧
     (s.mrk.ldack ≠ level →
       let s := setMrk (fun m => { m with ldack := level, acked := m.acked || level }) s
       becomes (.ldackChange tRow level) tRow sRow (notifySubs 0x09F1 [u8 (boolNat s.mrk.slow), u8 (boolNat s.mrk.stop), u8 (boolNat s.mrk.rev), u8 (boolNat level), s64 (heldMd s)] s))) ∧
  (-- REVREQ_RELEASE (R371): The position falls to q_jr − REV_MARGIN and REVREQ is deasserted.
   ∀ tRow sRow s, reaches tRow [39] sRow s →
     let back := s.mrk.heads.all fun e => match e.2.jr with
         | some j => decide (webMd s ≤ fireQ s e.1 j - (s.cfg.lineMode.revMargin : Int))
         | none => true
     (s.mrk.rev ∧ back →
       becomes (.revreqRelease tRow) tRow sRow (setDrive s.mrk.slow s.mrk.stop false (setMrk (fun m => { m with heads := m.heads.map fun e => (e.1, { e.2 with backed := e.2.jr.isSome }) }) s))) ∧
     (¬ (s.mrk.rev ∧ back) → becomes (.revreqRelease tRow) tRow sRow s)) ∧
  (-- STOP_TIMEOUT (R372): LDACK did not rise within STOP_TIMEOUT; requests are dropped.
   ∀ tRow sRow s, reaches tRow [39] sRow s →
     (! s.mrk.stop ∨ s.mrk.acked ∨ s.now < s.mrk.stopAt + s.cfg.lineMode.stopMs * ms →
       becomes (.stopTimeout tRow) tRow sRow s) ∧
     (¬ (! s.mrk.stop ∨ s.mrk.acked ∨ s.now < s.mrk.stopAt + s.cfg.lineMode.stopMs * ms) →
       let s := setDrive s.mrk.slow false false (setMrk (fun m => { m with skipMode := true }) (rset (mrkBase + 4) 6 s))
       becomes (.stopTimeout tRow) tRow sRow (s.mrk.heads.foldl (fun s e => let s := setMHead e.1 (fun x => { x with asked := false }) s; match e.2.jr with | none => s | some r => let n := (e.2.seen - r).toNat; let s := setMHead e.1 (fun x => { x with jr := none, backed := false }) s; reshift e.1 ((List.range (n + 1)).foldl (fun s (i : Nat) => passInstant e.1 (r + i) (settleInstant e.1 (r + i) (some 0)) (if i = 0 then s else underrun e.1 (r + i) s)) s)) s))) ∧
  (-- SLOWREQ_RELEASE (R373): SLOWREQ is deasserted 10 ms after no cause holds.
   ∀ tRow sRow s, reaches tRow [39] sRow s →
     (∀ t, s.mrk.slowOff = some t →
       (s.mrk.slow ∧ t + 10 * ms ≤ s.now →
         becomes (.slowreqRelease tRow) tRow sRow (setDrive false s.mrk.stop s.mrk.rev (setMrk (fun m => { m with slowOff := none }) s))) ∧
       (¬ (s.mrk.slow ∧ t + 10 * ms ≤ s.now) → becomes (.slowreqRelease tRow) tRow sRow s)) ∧
     (s.mrk.slowOff = none →
       becomes (.slowreqRelease tRow) tRow sRow s)) ∧
  (-- HEAD_TEMP_READ (R348): A head temperature read completes and limits are judged.
   ∀ tRow (h : Nat) (ok : Bool) (word : Nat) sRow s, reaches tRow [39] sRow s →
     let c := thermalOf s h
     let early : Bool := match (mhead s h).tempAt with | some t => decide (s.now < t + c.tsPeriod * us) | none => false
     ((tabGet s.cfg.heads h).isNone ∨ early → becomes (.headTempRead tRow h ok word) tRow sRow s) ∧
     (¬ ((tabGet s.cfg.heads h).isNone ∨ early) →
       let s := flushTrain h s
       let s := emit (.spi h (s.now - ceilDiv 16000000000 c.spiKhz) c.spiKhz) (setMHead h (fun x => { x with tempAt := some s.now }) s)
       let bad := ! ok || word % 65536 == 0x8000
       let n := if bad then (mhead s h).badReads + 1 else 0
       let s := setMHead h (fun x => { x with badReads := n, temp := if ok then word % 65536 else x.temp }) s
       let hot := setMHead h (fun x => { x with hot := true, throttled := true })
       (bad →
         (n < 3 → becomes (.headTempRead tRow h ok word) tRow sRow s) ∧
         (¬ (n < 3) →
           becomes (.headTempRead tRow h ok word) tRow sRow (judgeSuspend h (hot (mrkNotify 5 h (mhead s h).hwm (rset (mrkBase + 4) 5 s)))))) ∧
       (¬ (bad) →
         let t100 := toSigned 16 word * 100
         (c.tlim * 256 < t100 → becomes (.headTempRead tRow h ok word) tRow sRow (judgeSuspend h (hot s))) ∧
         (¬ (c.tlim * 256 < t100) →
           let s := setMHead h (fun x => { x with hot := false, overN := 0 }) s
           let x := mhead s h
           ((x.throttled ∨ x.suspended) ∧ t100 ≤ (c.tlim - (c.hyst : Int)) * 256 →
             let s := setMHead h (fun y => { y with throttled := false, suspended := false }) s
             becomes (.headTempRead tRow h ok word) tRow sRow (reshift h (if x.suspended then mrkNotify 1 h x.hwm s else s))) ∧
           (¬ ((x.throttled ∨ x.suspended) ∧ t100 ≤ (c.tlim - (c.hyst : Int)) * 256) →
             becomes (.headTempRead tRow h ok word) tRow sRow s))))) ∧
  (-- EN_SETTLE_END (R346): EN_SETTLE after HEAD_EN rises expires and firing may begin.
   ∀ tRow (h : Nat) sRow s, reaches tRow [39] sRow s →
     becomes (.enSettleEnd tRow h) tRow sRow (reshift h s)) ∧
  (-- SERVICE_FIRE_TICK (R355): A FIXED-paced service fire instant comes due.
   ∀ tRow (h : Nat) sRow s, reaches tRow [39] sRow s →
     let x := mhead s h
     (match x.svc, tabGet s.cfg.heads h with
       | some v, some c =>
           (headMode s h ≠ 2 ∨ ! x.en ∨ s.now < x.settleTo + (20 + c.latchW) * ns ∨ x.suspended ∨ s.now < v.next →
             becomes (.serviceFireTick tRow h) tRow sRow s) ∧
           (¬ (headMode s h ≠ 2 ∨ ! x.en ∨ s.now < x.settleTo + (20 + c.latchW) * ns ∨ x.suspended ∨ s.now < v.next) →
             let map := (tabGet s.cfg.pattern h).getD []
             let noz := (List.range c.nozzles).filter fun i => nozPresent s h i && ! calDead (calOf s h) i && (! v.loaded || bit (nth map (i / 8)) (i % 8))
             let s := setMHead h (fun y => { y with svc := if v.left ≤ 1 then none else some { v with left := v.left - 1, next := v.next + secPs / v.rate } }) s
             becomes (.serviceFireTick tRow h) tRow sRow (countHot h (if noz.isEmpty then s else mainPulse h c ⟨0, s.now - (40 + c.latchW) * ns - shiftPs s h c, s.now - 20 * ns⟩ noz s)))
       | _, _ => becomes (.serviceFireTick tRow h) tRow sRow s)) ∧
  (-- MAIN_PULSE_END (R345): A head's main pulse of width W_MAIN ends, MH_FIRE falls and the next shift may start.
   ∀ tRow (h : Nat) sRow s, reaches tRow [39] sRow s →
     (match tabGet s.cfg.heads h, (mhead s h).lastFire with
       | some c, some t =>
           ((mhead s h).pulse ∧ t + c.wMain * ns ≤ s.now →
             becomes (.mainPulseEnd tRow h) tRow sRow (reshift h (emit (.pin pinMhFire h false) (setMHead h (fun x => { x with pulse := false }) s)))) ∧
           (¬ ((mhead s h).pulse ∧ t + c.wMain * ns ≤ s.now) → becomes (.mainPulseEnd tRow h) tRow sRow s)
       | _, _ => becomes (.mainPulseEnd tRow h) tRow sRow s))

/-- What each row about timeouts and keys that come due does where its hypotheses hold (02_command_interface.md). -/
def Obligations.LapseEventsComplete : Prop :=
  (-- SEQUENCE_HOLD_TIMEOUT (R71): A held command whose missing predecessors did not arrive in 100 ms is refused with E_SEQUENCE.
   ∀ tRow sRow s, reaches tRow [] sRow s →
     becomes (.sequenceHoldTimeout tRow) tRow sRow (s.dev.sessions.foldl (holdExpire fun t => decide (t ≤ s.now)) s)) ∧
  (-- SESSION_IDLE_TIMEOUT (R97): A session with no consumed command within its idle timeout closes.
   ∀ tRow sRow s, reaches tRow [] sRow s →
     let strict : Bool := false
     let overN : Sess → Bool := fun x => if strict then decide (x.last + x.idle * secPs < s.now) else decide (x.last + x.idle * secPs ≤ s.now)
     becomes (.sessionIdleTimeout tRow) tRow sRow (((s.dev.sessions.filter fun e => overN e.2).map fun e => e.1).foldl (fun s i => closeSess i s) s)) ∧
  (-- LEASE_END (R101): The owner's lease ends and ownership becomes vacant.
   ∀ tRow sRow s, reaches tRow [] sRow s →
     (s.dev.owner.isSome ∧ s.dev.leaseEnd ≤ s.now → becomes (.leaseEnd tRow) tRow sRow (vacate 3 s)) ∧
     (¬ (s.dev.owner.isSome ∧ s.dev.leaseEnd ≤ s.now) → becomes (.leaseEnd tRow) tRow sRow s)) ∧
  (-- SESSION_OPEN_KEEP_END (R106): The kept SESSION_OPEN reply is forgotten after 10 s.
   ∀ tRow sRow s, reaches tRow [] sRow s →
     becomes (.sessionOpenKeepEnd tRow) tRow sRow (setDev (fun d => { d with opens := d.opens.filter fun k => decide (s.now < k.upTo) }) s)) ∧
  (-- APPLY_AT_DUE (R91): A queued command comes due at its key and is applied or discarded.
   ∀ tRow sRow s, reaches tRow [] sRow s →
     becomes (.applyAtDue tRow) tRow sRow (applyQueued isDue s.dev.queue.length s)) ∧
  (-- DRAIN_COMPLETE (R79): The drain completes and the device returns from DRAINING to ARMED.
   ∀ tRow sRow s, reaches tRow [] sRow s →
     (s.dev.state = .draining ∧ drainOk s → becomes (.drainComplete tRow) tRow sRow (drainEnd s)) ∧
     (¬ (s.dev.state = .draining ∧ drainOk s) → becomes (.drainComplete tRow) tRow sRow s)) ∧
  (-- DRAIN_LIMIT (R79): The drain limit expires and every remaining component is closed TRUNCATED.
   ∀ tRow sRow s, reaches tRow [] sRow s →
     (∀ w1 t, s.dev.drain = some (w1, t) →
       (s.dev.state = .draining ∧ t ≤ s.now → becomes (.drainLimit tRow) tRow sRow (drainEnd (elxLimit s))) ∧
       (¬ (s.dev.state = .draining ∧ t ≤ s.now) → becomes (.drainLimit tRow) tRow sRow s)) ∧
     (s.dev.drain = none →
       becomes (.drainLimit tRow) tRow sRow s))

/-- What each row about packets and events of the camera links does where its hypotheses hold (03_rathal_camera_ports.md). -/
def Obligations.CameraLinkEventsComplete : Prop :=
  (-- LINE (R132): A LINE packet of a stream arrives whole and is ordered, corrected, registered and stitched.
   ∀ tRow (k : Pkt) sRow s, reaches tRow [k.port] sRow s →
     let ty : Nat := 1
     (! takes s k.port → becomes (.line tRow k) tRow sRow s) ∧
     (takes s k.port →
       (∀ rx, received (port s k.port) ty k = some rx →
         let s := wireCounts ty k s
         let s := if ! wrapClosed 32 s ∧ startsLine rx s then applyAtIndex 1 (rx.port * 8 + rx.stream % 8) rx.index s else s
         (rx.hcrc ≠ crc16 (pktHeader 1 rx) → becomes (.line tRow k) tRow sRow (lostEvent rx.port (pktDiscard 1 rx s))) ∧
         (rx.hcrc = crc16 (pktHeader 1 rx) →
           (streamOf s rx.port (rx.stream % 8) = none →
             becomes (.line tRow k) tRow sRow (discardLine rx s)) ∧
           (∀ c, streamOf s rx.port (rx.stream % 8) = some c →
             (portKind s rx.port = 1 → becomes (.line tRow k) tRow sRow (areaLine rx c s)) ∧
             (portKind s rx.port ≠ 1 →
               becomes (.line tRow k) tRow sRow (enterLines (if c.trig = 255 then freeLine rx c s else triggeredLine rx c s)))))) ∧
       (received (port s k.port) ty k = none →
         becomes (.line tRow k) tRow sRow (wireCounts ty k s)))) ∧
  (-- FRAME_START (R391): A FRAME_START packet arrives and begins a frame of its context.
   ∀ tRow (k : Pkt) sRow s, reaches tRow [k.port] sRow s →
     let ty : Nat := 2
     (! takes s k.port → becomes (.frameStart tRow k) tRow sRow s) ∧
     (takes s k.port →
       (∀ rx, received (port s k.port) ty k = some rx →
         let s := wireCounts ty k s
         let s := if ! pktBad 2 12 rx then applyAtIndex 2 (rx.port * 8 + rx.stream % 8) rx.index s else s
         (pktBad 2 12 rx → becomes (.frameStart tRow k) tRow sRow (pktDiscard 2 rx s)) ∧
         (¬ (pktBad 2 12 rx) →
           ((streamOf s rx.port (rx.stream % 8)).isNone → becomes (.frameStart tRow k) tRow sRow s) ∧
           ((streamOf s rx.port (rx.stream % 8)).isSome →
             let s := noteFrame rx (publish (0x0110 + rx.port) s)
             (runningState s.dev.state →
               becomes (.frameStart tRow k) tRow sRow (toBlock 32 (toBlock 33 (fun s => frameStart (rx.port * 8 + rx.stream % 8) rx.index (leAt rx.data 0 4) (leAt rx.data 4 4) (leAt rx.data 8 4) s) fun s => s) (fun s => s) s)) ∧
             (¬ (runningState s.dev.state) → becomes (.frameStart tRow k) tRow sRow s)))) ∧
       (received (port s k.port) ty k = none →
         becomes (.frameStart tRow k) tRow sRow (wireCounts ty k s)))) ∧
  (-- FRAME_END (R391): A FRAME_END packet arrives and ends its frame, repairing missing rows.
   ∀ tRow (k : Pkt) sRow s, reaches tRow [k.port] sRow s →
     let ty : Nat := 3
     (! takes s k.port → becomes (.frameEnd tRow k) tRow sRow s) ∧
     (takes s k.port →
       (∀ rx, received (port s k.port) ty k = some rx →
         let s := wireCounts ty k s
         (pktBad 3 8 rx → becomes (.frameEnd tRow k) tRow sRow (pktDiscard 3 rx s)) ∧
         (¬ (pktBad 3 8 rx) →
           (runningState s.dev.state →
             becomes (.frameEnd tRow k) tRow sRow (toBlock 32 (toBlock 33 (frameEnd (rx.port * 8 + rx.stream % 8)) fun s => s) (fun s => s) s)) ∧
           (¬ (runningState s.dev.state) → becomes (.frameEnd tRow k) tRow sRow s))) ∧
       (received (port s k.port) ty k = none →
         becomes (.frameEnd tRow k) tRow sRow (wireCounts ty k s)))) ∧
  (-- METADATA (R184): A METADATA packet arrives and may switch a bank through a metadata key.
   ∀ tRow (k : Pkt) sRow s, reaches tRow [k.port] sRow s →
     let ty : Nat := 4
     (! takes s k.port → becomes (.metadata tRow k) tRow sRow s) ∧
     (takes s k.port →
       (∀ rx, received (port s k.port) ty k = some rx →
         let s := wireCounts ty k s
         (pktBad 4 4096 rx → becomes (.metadata tRow k) tRow sRow (pktDiscard 4 rx s)) ∧
         (¬ (pktBad 4 4096 rx) →
           becomes (.metadata tRow k) tRow sRow (toBlock 32 (metaSwitch rx.port (rx.stream % 8) rx.index rx.data) (fun s => s) s))) ∧
       (received (port s k.port) ty k = none →
         becomes (.metadata tRow k) tRow sRow (wireCounts ty k s)))) ∧
  (-- REG_ECHO (R138): A head's REG_ECHO packet arrives and answers a register access.
   ∀ tRow (k : Pkt) sRow s, reaches tRow [k.port] sRow s →
     let ty : Nat := 5
     (! takes s k.port → becomes (.regEcho tRow k) tRow sRow s) ∧
     (takes s k.port →
       (∀ rx, received (port s k.port) ty k = some rx →
         let s := wireCounts ty k s
         (pktBad 5 12 rx → becomes (.regEcho tRow k) tRow sRow (pktDiscard 5 rx s)) ∧
         (¬ (pktBad 5 12 rx) →
           ((port s rx.port).acc = none →
             becomes (.regEcho tRow k) tRow sRow s) ∧
           (∀ a, (port s rx.port).acc = some a →
             (a.tag ≠ nth rx.data 8 → becomes (.regEcho tRow k) tRow sRow s) ∧
             (a.tag = nth rx.data 8 →
               (∀ got, a.probe = some got →
                 becomes (.regEcho tRow k) tRow sRow (probeEcho rx a got s)) ∧
               (a.probe = none →
                 let s := setPort rx.port (fun p => { p with acc := none }) s
                 (nth rx.data 9 = 0 → becomes (.regEcho tRow k) tRow sRow (answer a.tk stOk [u32 (leAt rx.data 4 4)] s)) ∧
                 (nth rx.data 9 ≠ 0 → becomes (.regEcho tRow k) tRow sRow (answer a.tk eParam [u8 (nth rx.data 9)] s))))))) ∧
       (received (port s k.port) ty k = none →
         becomes (.regEcho tRow k) tRow sRow (wireCounts ty k s)))) ∧
  (-- ECHO (R684): A head's ECHO arrives; after 16 the device forms D.
   ∀ tRow (n : Nat) (tag : Nat) (turn : Nat) (rtt : Nat) (crc : Nat) sRow s, reaches tRow [n] sRow s →
     let ty : Nat := 0x41
     let fields : List Nat := (leBytes 2 tag ++ leBytes 4 turn)
     (leBytes 2 crc = (ctrlBytes ty fields).drop 14 →
       ((port s n).echo = none →
         becomes (.echo tRow n tag turn ⟨rtt, crc⟩) tRow sRow s) ∧
       (∀ e, (port s n).echo = some e →
         (tag ≠ e.got.length ∨ (port s n).mode = 2 → becomes (.echo tRow n tag turn ⟨rtt, crc⟩) tRow sRow s) ∧
         (¬ (tag ≠ e.got.length ∨ (port s n).mode = 2) →
           let got := e.got ++ [(rtt, turn)]
           (got.length < 16 →
             becomes (.echo tRow n tag turn ⟨rtt, crc⟩) tRow sRow (sendEchoReq n got.length (setPort n (fun p => { p with echo := some { e with got := got, deadline := s.now + ms } }) s))) ∧
           (¬ (got.length < 16) →
             let x := selectEcho got
             let d := echoD x + (tabGet s.cfg.trims n).getD 0
             let fits : Bool := d + lHead s n + 25600 ≤ (s.lnk.eUse : Int) * 1000 || ! runningState s.dev.state
             let s := setPort n (fun p => { p with echo := none }) s
             let s := if fits then adoptD n (setPort n fun p => { p with d0 := echoD x, dSet := true }) s else s
             becomes (.echo tRow n tag turn ⟨rtt, crc⟩) tRow sRow (answer e.tk stOk [u32 x.1, u32 x.2, .num 4 d, u8 (boolNat fits)] s))))) ∧
     (leBytes 2 crc ≠ (ctrlBytes ty fields).drop 14 →
       becomes (.echo tRow n tag turn ⟨rtt, crc⟩) tRow sRow (rset (cptBase n + 4) 6 (bump (cptBase n + 0x50) 1 s)))) ∧
  (-- LANE_ACK (R145): A head acknowledges a lane state change.
   ∀ tRow (n : Nat) (state : Nat) (rate : Nat) (fec : Nat) (lanes : Nat) (crc : Nat) sRow s, reaches tRow [n] sRow s →
     let ty : Nat := 0x51
     let fields : List Nat := [state, rate, fec, lanes]
     (leBytes 2 crc = (ctrlBytes ty fields).drop 14 →
       ((port s n).link = 2 ∧ state ≤ 2 →
         let legal : Bool := 1 ≤ rate && rate ≤ 3 && fec ≤ 1 && (lanes == 1 || lanes == 2 || lanes == 4)
         becomes (.laneAck tRow n state rate fec ⟨lanes, crc⟩) tRow sRow (setPort n (fun p => let p := if legal then { p with rate := rate, fec := fec, nLanes := lanes } else p; { p with mode := state, clkOk := state != 2 }) s)) ∧
       (¬ ((port s n).link = 2 ∧ state ≤ 2) → becomes (.laneAck tRow n state rate fec ⟨lanes, crc⟩) tRow sRow s)) ∧
     (leBytes 2 crc ≠ (ctrlBytes ty fields).drop 14 →
       becomes (.laneAck tRow n state rate fec ⟨lanes, crc⟩) tRow sRow (rset (cptBase n + 4) 6 (bump (cptBase n + 0x50) 1 s)))) ∧
  (-- FE_CAPTURE_TIMEOUT (R206): No line completes within 1 s of a capture and it is refused.
   ∀ tRow (stream : Nat) sRow s, reaches tRow [32] sRow s →
     becomes (.feCaptureTimeout tRow stream) tRow sRow (dropCaptures (fun k c => k / 4 == stream && decide (c.deadline ≤ s.now)) s)) ∧
  (-- PORT_UP (R149): A port's bring-up completes and the port becomes UP.
   ∀ tRow (n : Nat) (b : BringUp) sRow s, reaches tRow [n] sRow s →
     (match (port s n).bring, lanesFound (bringRx (port s n) b) (port s n).nLanes with
       | none, _ => becomes (.portUp tRow n b) tRow sRow s
       | _, none => becomes (.portUp tRow n b) tRow sRow s
       | some (why, t0), some found =>
           (t0 + 200 * ms < s.now → becomes (.portUp tRow n b) tRow sRow s) ∧
           (¬ (t0 + 200 * ms < s.now) →
             ((skewed (found.map fun e => e.2)) → becomes (.portUp tRow n b) tRow sRow (rset (cptBase n + 4) 4 s)) ∧
             (¬ ((skewed (found.map fun e => e.2))) →
               let s := backNow n (bringMessages n b s)
               let late : Bool := runningState s.dev.state && decide ((s.lnk.eUse : Int) * 1000 < bringReach s n b)
               (match why with
                 | .probe tk =>
                     (headIdOk b.head →
                       becomes (.portUp tRow n b) tRow sRow (answer tk stOk (headRegs b.head) (causedBy tk (bringDone n b found true (some tk.session)) s))) ∧
                     (¬ (headIdOk b.head) → becomes (.portUp tRow n b) tRow sRow (bringFailed n why s))
                 | .arm =>
                     let fits : Bool := match tabGet s.cfg.ports n with | some c => headIdOk b.head && headCapsOk s n c b.head | none => false
                     (fits → becomes (.portUp tRow n b) tRow sRow (causing (armCause s) (bringDone n b found false (armSession s)) s)) ∧
                     (¬ (fits) → becomes (.portUp tRow n b) tRow sRow (bringFailed n why s))
                 | .retry =>
                     (! headIdOk b.head → becomes (.portUp tRow n b) tRow sRow (bringFailed n why s)) ∧
                     (headIdOk b.head →
                       (late → becomes (.portUp tRow n b) tRow sRow (bringLate n s)) ∧
                       (¬ (late) → becomes (.portUp tRow n b) tRow sRow (bringDone n b found false none s)))
                 | .reset =>
                     (! headIdOk b.head → becomes (.portUp tRow n b) tRow sRow (bringFailed n why s)) ∧
                     (headIdOk b.head →
                       (late → becomes (.portUp tRow n b) tRow sRow (bringFailed n why (rset (cptBase n + 4) 7 s))) ∧
                       (¬ (late) → becomes (.portUp tRow n b) tRow sRow (bringDone n b found false none s)))))))) ∧
  (-- BRINGUP_TIMEOUT (R150): A port is not UP within 200 ms and ARM or PORT_PROBE is refused.
   ∀ tRow (n : Nat) (skew : Bool) sRow s, reaches tRow [n] sRow s →
     ((port s n).bring = none →
       becomes (.bringupTimeout tRow n skew) tRow sRow s) ∧
     (∀ why t0, (port s n).bring = some (why, t0) →
       (s.now < t0 + 200 * ms → becomes (.bringupTimeout tRow n skew) tRow sRow s) ∧
       (¬ (s.now < t0 + 200 * ms) →
         becomes (.bringupTimeout tRow n skew) tRow sRow (bringFailed n why (if skew then rset (cptBase n + 4) 4 s else s))))) ∧
  (-- LINK_DOWN (R151): An UP port loses marker lock or its forwarded clock and enters DOWN.
   ∀ tRow (n : Nat) (clock : Bool) (heard : List (List Heard)) sRow s, reaches tRow [n] sRow s →
     ((port s n).link ≠ 2 ∨ (port s n).mode = 2 → becomes (.linkDown tRow n ⟨clock, heard⟩) tRow sRow s) ∧
     (¬ ((port s n).link ≠ 2 ∨ (port s n).mode = 2) →
       let s := hearLanes n heard s
       ((! clock ∧ ((port s n).lanes.take (port s n).nLanes).all (fun l => l.locked)) →
         becomes (.linkDown tRow n ⟨clock, heard⟩) tRow sRow s) ∧
       (¬ ((! clock ∧ ((port s n).lanes.take (port s n).nLanes).all (fun l => l.locked))) →
         let s := dropWaits n (setLink n 3 eDevice none s)
         let s := publish (0x0130 + n) (rset (cptBase n + 4) 0 (bump (cptBase n + 0x68) 1 s))
         becomes (.linkDown tRow n ⟨clock, heard⟩) tRow sRow (loseOutstanding n (setPort n (fun p => { p with clkOk := p.clkOk && ! clock, deskewed := false, retryAt := s.now + 100 * ms, lanes := p.lanes.map fun l => { l with locked := l.locked && ! clock } }) s))))) ∧
  (-- BRINGUP_RETRY (R151): Every 100 ms a DOWN port retries bring-up with stored coefficients.
   ∀ tRow (n : Nat) sRow s, reaches tRow [n] sRow s →
     let p := port s n
     (p.link = 3 ∧ runningState s.dev.state ∧ ! p.noRetry ∧ p.retryAt ≤ s.now →
       becomes (.bringupRetry tRow n) tRow sRow (startBring n .retry p.rate p.fec p.nLanes (setPort n (fun p => { p with retryAt := s.now + 100 * ms }) s))) ∧
     (¬ (p.link = 3 ∧ runningState s.dev.state ∧ ! p.noRetry ∧ p.retryAt ≤ s.now) →
       becomes (.bringupRetry tRow n) tRow sRow s)) ∧
  (-- REG_ECHO_TIMEOUT (R138): No REG_ECHO within 1 ms and the command fails with E_DEVICE.
   ∀ tRow (n : Nat) sRow s, reaches tRow [n] sRow s →
     (∀ a, (port s n).acc = some a →
       (s.now < a.deadline → becomes (.regEchoTimeout tRow n) tRow sRow s) ∧
       (¬ (s.now < a.deadline) →
         let s := setPort n (fun p => { p with acc := none }) s
         (a.probe.isSome →
           becomes (.regEchoTimeout tRow n) tRow sRow (answer a.tk eDevice [u8 n, u8 (port s n).link] (probeEnd n a s))) ∧
         (a.probe.isNone → becomes (.regEchoTimeout tRow n) tRow sRow (answer a.tk eDevice [] s)))) ∧
     ((port s n).acc = none →
       becomes (.regEchoTimeout tRow n) tRow sRow s)) ∧
  (-- ECHO_TIMEOUT (R685): No ECHO within 1 ms and LATENCY_MEASURE fails.
   ∀ tRow (n : Nat) sRow s, reaches tRow [n] sRow s →
     (∀ e, (port s n).echo = some e →
       (e.deadline ≤ s.now →
         becomes (.echoTimeout tRow n) tRow sRow (answer e.tk eDevice [] (setPort n (fun p => { p with echo := none }) s))) ∧
       (¬ (e.deadline ≤ s.now) → becomes (.echoTimeout tRow n) tRow sRow s)) ∧
     ((port s n).echo = none →
       becomes (.echoTimeout tRow n) tRow sRow s)) ∧
  (-- TIME_MESSAGE_DUE (R137): A back-channel TIME message is sent at least once per millisecond.
   ∀ tRow (n : Nat) sRow s, reaches tRow [n] sRow s →
     ((port s n).link = 0 → becomes (.timeMessageDue tRow n) tRow sRow s) ∧
     ((port s n).link ≠ 0 → becomes (.timeMessageDue tRow n) tRow sRow (sendTime n s))) ∧
  (-- QUALITY_UPDATE (R153): Each second the lane quality figures are updated and recalibration triggers judged.
   ∀ tRow (n : Nat) (q : List LaneQ) sRow s, reaches tRow [n] sRow s →
     ((port s n).link = 2 →
       becomes (.qualityUpdate tRow n q) tRow sRow (((q.take (port s n).nLanes).mapIdx fun k x => (k, x)).foldl (laneUpdate n) s)) ∧
     ((port s n).link ≠ 2 → becomes (.qualityUpdate tRow n q) tRow sRow s)) ∧
  (-- RECAL_PERIOD (R155): A lane's recalibration period elapses.
   ∀ tRow (n : Nat) (lane : Nat) sRow s, reaches tRow [n, 42] sRow s →
     (s.cfg.calPolicy.period = 0 ∨ (port s n).link ≠ 2 → becomes (.recalPeriod tRow n lane) tRow sRow s) ∧
     (¬ (s.cfg.calPolicy.period = 0 ∨ (port s n).link ≠ 2) →
       becomes (.recalPeriod tRow n lane) tRow sRow (startRecal n (2 ^ lane) none s))) ∧
  (-- CAL_CANDIDATE_READY (R157): Shadow adaptation finishes and a commit marker is chosen or the candidate dropped.
   ∀ tRow (n : Nat) (mseq : Nat) (pred : List Nat) (coefs : List (List Int)) sRow s, reaches tRow [n, 42] sRow s →
     ((port s n).recal = none →
       becomes (.calCandidateReady tRow n mseq pred coefs) tRow sRow s) ∧
     (∀ r, (port s n).recal = some r →
       (r.stage ≠ 0 → becomes (.calCandidateReady tRow n mseq pred coefs) tRow sRow s) ∧
       (r.stage = 0 →
         (calHeld n s → becomes (.calCandidateReady tRow n mseq pred coefs) tRow sRow s) ∧
         (¬ (calHeld n s) →
           let adopt := (maskLanes r.lanes).filter fun k => laneQf s n k + 1 ≤ nth pred k || laneQf s n k < s.cfg.calPolicy.qfThr
           (adopt.isEmpty → becomes (.calCandidateReady tRow n mseq pred coefs) tRow sRow (endRecal n s)) ∧
           (¬ (adopt.isEmpty) →
             becomes (.calCandidateReady tRow n mseq pred coefs) tRow sRow (setPort n (fun p => { p with recal := some { r with lanes := adopt.foldl (fun m k => m + 2 ^ k) 0, target := adopt.map fun k => (k, coefs.getD k []), mseq := (mseq + 2) % 2 ^ 32, stage := 1, qfBefore := adopt.foldl (fun m k => min m (laneQf s n k)) 255 } }) s)))))) ∧
  (-- COEF_COMMIT (R157): At the chosen marker all affected lanes switch coefficients together.
   ∀ tRow (n : Nat) (corrected : Nat) sRow s, reaches tRow [n] sRow s →
     let lanes := match (port s n).recal with | some r => maskLanes r.lanes | none => []
     let before := match (port s n).recal with | some r => r.stage | none => 9
     let s := coefCommit n corrected s
     let done : Bool := match (port s n).recal with | some r => before == 1 && r.stage == 2 | none => false
     (done →
       becomes (.coefCommit tRow n corrected) tRow sRow (saveCoefs n (lanes.filter fun k => match tabGet s.lnk.coefAt (n * 4 + k) with | some t => decide (t + 3600 * secPs ≤ s.now) | none => true) s)) ∧
     (¬ (done) → becomes (.coefCommit tRow n corrected) tRow sRow s)) ∧
  (-- COEF_REVERT_CHECK (R157): 50 ms after a commit QF is compared and the commit may be reverted.
   ∀ tRow (n : Nat) (qf : Nat) sRow s, reaches tRow [n] sRow s →
     ((port s n).recal = none →
       becomes (.coefRevertCheck tRow n qf) tRow sRow s) ∧
     (∀ r, (port s n).recal = some r →
       (r.stage ≠ 2 → becomes (.coefRevertCheck tRow n qf) tRow sRow s) ∧
       (r.stage = 2 →
         (qf + 3 ≤ r.qfBefore →
           becomes (.coefRevertCheck tRow n qf) tRow sRow (setPort n (fun p => { p with recal := some { r with stage := 3, qfAfter := qf } }) s)) ∧
         (¬ (qf + 3 ≤ r.qfBefore) →
           becomes (.coefRevertCheck tRow n qf) tRow sRow (endRecal n (causing r.cause (notifySubs 0x02F1 [u8 n, u8 r.lanes, u32 r.mseq, u8 r.qfBefore, u8 qf, u8 0]) s)))))) ∧
  (-- PROVISIONAL_REMEASURE (R625): A provisional calibration's quality is re-measured within 50 ms.
   ∀ tRow (kind : Nat) (unit : Nat) (lane : Nat) (qf : Nat) sRow s, reaches tRow [] sRow s →
     (kind = 0 → becomes (.provisionalRemeasure tRow kind unit lane qf) tRow sRow (provisionalRemeasure unit lane qf s)) ∧
     (kind ≠ 0 → becomes (.provisionalRemeasure tRow kind unit lane qf) tRow sRow (dramRemeasure unit qf s))) ∧
  (-- EYE_SCAN_DONE (R165): An eye scan completes and the offset-0 reply is sent.
   ∀ tRow (n : Nat) (points : List Nat) sRow s, reaches tRow [n, 42] sRow s →
     ((port s n).scan = none →
       becomes (.eyeScanDone tRow n points) tRow sRow s) ∧
     (∀ sc, (port s n).scan = some sc →
       (points.length ≠ 16384 → becomes (.eyeScanDone tRow n points) tRow sRow s) ∧
       (points.length = 16384 →
         becomes (.eyeScanDone tRow n points) tRow sRow (answer sc.tk stOk [.block (scanBytes points 0 sc.length)] (setPort n (fun p => { p with scan := none, scans := tabPut p.scans (sc.lane * 3 + sc.eye) points }) s))))) ∧
  (-- LANE_STANDBY_TIME (R147): No trigger for the standby time moves a port to STANDBY.
   ∀ tRow (n : Nat) sRow s, reaches tRow [n] sRow s →
     (∀ lp, autoMode s n = some lp →
       ((port s n).link = 2 ∧ (port s n).mode = 0 ∧ (port s n).lastTrig + lp.standbyMs * ms ≤ s.now →
         becomes (.laneStandbyTime tRow n) tRow sRow (laneCtrl n 1 s)) ∧
       (¬ ((port s n).link = 2 ∧ (port s n).mode = 0 ∧ (port s n).lastTrig + lp.standbyMs * ms ≤ s.now) →
         becomes (.laneStandbyTime tRow n) tRow sRow s)) ∧
     (autoMode s n = none →
       becomes (.laneStandbyTime tRow n) tRow sRow s)) ∧
  (-- LANE_DORMANT_TIME (R147): No trigger for the dormant time moves a port to DORMANT.
   ∀ tRow (n : Nat) sRow s, reaches tRow [n] sRow s →
     (∀ lp, autoMode s n = some lp →
       ((port s n).link = 2 ∧ (port s n).mode ≠ 2 ∧ dormantOk s n ∧ (port s n).lastTrig + lp.dormantMs * ms ≤ s.now →
         becomes (.laneDormantTime tRow n) tRow sRow (laneCtrl n 2 s)) ∧
       (¬ ((port s n).link = 2 ∧ (port s n).mode ≠ 2 ∧ dormantOk s n ∧ (port s n).lastTrig + lp.dormantMs * ms ≤ s.now) →
         becomes (.laneDormantTime tRow n) tRow sRow s)) ∧
     (autoMode s n = none →
       becomes (.laneDormantTime tRow n) tRow sRow s))

/-- What each row about frames, slices, lines and packets of the colour, video and compression engines does where its hypotheses hold (10_area_capture_and_colour.md). -/
def Obligations.MediaEventsComplete : Prop :=
  (-- CLP_FRAME_DONE (R404): The colour pipeline completes a frame and hands it to its heads.
   ∀ tRow (k : Nat) (poison : Bool) sRow u, reaches tRow [33] sRow u →
     let s := if poison then poisonRead u else u
     let take : List AFrame → Option AFrame := fun l => match l with
         | f :: _ => if f.ctx = k ∧ f.ended then some f else none
         | [] => none
     let finish : AFrame → State → State := fun f s =>
         let s := setClp (fun c => { c with load := meterAdd (s.now / secPs) 10000000000 (f.w * f.h) c.load }) s
         if poison then clpNotify k 0 f.idx (publish 0x0700 (rset (clpBase + 4) 0 (bump (clpReg k 4) 1 (s.cfg.heads2.foldl (undelivered f) s))))
         else s.cfg.heads2.foldl (deliver f) (bump (clpReg k 0) 1 s)
     (match take s.clp.prim, take s.clp.buf with
       | some f, _ => becomes (.clpFrameDone tRow k poison) tRow sRow (finish f (setClp (fun c => { c with prim := c.prim.drop 1 }) s))
       | none, some f => becomes (.clpFrameDone tRow k poison) tRow sRow (finish f (setClp (fun c => { c with buf := c.buf.drop 1 }) s))
       | none, none => becomes (.clpFrameDone tRow k poison) tRow sRow s)) ∧
  (-- LIVE_VIEW_FRAME (R419): Every 1/F the live view begins a frame of its latest lines.
   ∀ tRow (k : Nat) sRow s, reaches tRow [33] sRow s →
     (liveOf s k = none →
       becomes (.liveViewFrame tRow k) tRow sRow s) ∧
     (∀ l, liveOf s k = some l →
       let x := cctx s k
       let now := tmuNs s
       let early : Bool := match x.viewAt with | some t => decide (t ≤ now ∧ now < t + 1000000000000 / max 1 l.f) | none => false
       (! runningState s.dev.state ∨ early → becomes (.liveViewFrame tRow k) tRow sRow s) ∧
       (¬ (! runningState s.dev.state ∨ early) →
         let w := (viewWidth s l.dc).toNat
         let b := takeBank k x.nextIdx s
         let s := b.2
         let n := (viewPlanes l).length
         let fill := takeBytes (2 * w * l.hv * n) s
         let s := if x.ring.length < l.hv then fill.2 else s
         let lineAt : Nat → Nat → List Nat := fun i p => match x.ring[i]? with
             | some r => r.2.2.getD p []
             | none => (List.range w).map fun u => leAt fill.1 (2 * ((p * l.hv + i) * w + u)) 2
         let rowOf : Nat → Nat := fun y => if l.orient = 0 then l.hv - 1 - y else y
         let rows := (List.range n).flatMap fun p => (List.range l.hv).map fun y => (p * l.hv + y, lineAt (rowOf y) p)
         let t := match x.ring with | r :: _ => (r.1, r.2.1) | [] => (tmuSec s, tmuSub s)
         let lut := (tabGet s.clp.luts b.1.lut).getD []
         let f : AFrame := { ctx := k, idx := x.nextIdx, sec := t.1, ns := t.2, expo := 0, w := w, h := l.hv, live := true, cfa := 0, bank := b.1, lut := lut, curves := s.cfg.curves, rows := rows, ended := true }
         becomes (.liveViewFrame tRow k) tRow sRow (pushFrame l.role l.bk f (setCctx k (fun x => { x with viewAt := some now, nextIdx := (x.nextIdx + 1) % 2 ^ 48 }) s))))) ∧
  (-- ST2110_PACKET_DUE (R412): A paced ST 2110-20 packet is sent.
   ∀ tRow (i : Nat) sRow s, reaches tRow [33] sRow s →
     let x := (tabGet s.clp.senders i).getD {}
     (match tabGet s.cfg.senders i, x.frame with
       | some c, some f =>
           let per := ceilDiv f.w (pgroup f.fmt f.n).1
           let r := takeNat s
           let s := r.2
           let n := 1 + r.1 % max 1 per
           let v6 := c.ipVer == 6
           let s := emit (.frame c.iface 1 (udpFrame s c.iface v6 c.ttl (if v6 then c.dst.take 16 else c.dst.take 4) c.sport c.dport 1 (rtpPacket c f x.seq x.at_ n))) s
           let done := decide (per * f.h ≤ x.at_ + n)
           becomes (.st2110PacketDue tRow i) tRow sRow (setClp (fun cl => { cl with senders := tabPut cl.senders i { frame := if done then none else some f, at_ := if done then 0 else x.at_ + n, seq := (x.seq + 1) % 2 ^ 32 } }) s)
       | _, _ => becomes (.st2110PacketDue tRow i) tRow sRow s)) ∧
  (-- VCU_SLICE_DONE (R430): The codec completes a slice, writes its chunk and switches context.
   ∀ tRow (k : Nat) (e : EncSlice) (d : DecSlice) (poison : Bool) sRow u, reaches tRow [34] sRow u →
     let s := if poison then poisonRead u else u
     (s.vcu.current ≠ some k ∨ (! poison ∧ ! sliceFits s k e) → becomes (.vcuSliceDone tRow k e d poison) tRow sRow s) ∧
     (¬ (s.vcu.current ≠ some k ∨ (! poison ∧ ! sliceFits s k e)) →
       let s := setVcu (fun v => { v with current := none }) s
       (tabGet s.cfg.vctx k = none →
         becomes (.vcuSliceDone tRow k e d poison) tRow sRow s) ∧
       (∀ c, tabGet s.cfg.vctx k = some c →
         let s := setVcu (fun v => { v with load := meterAdd (s.now / secPs) 6000000000 (sliceWork s k c d) v.load, done := some k }) s
         let s := if c.kind = 3 then
               let s := decSlice k c d s
               flushSlots k (vctx s k).outq.length s
             else match (vctx s k).cur with
               | none => s
               | some v =>
                 if poison then setVctx k (fun x => { x with cur := none, gap := x.gap + v.gap + 1, force := x.force || v.irap }) s
                 else encSliceDone k c v e s
         becomes (.vcuSliceDone tRow k e d poison) tRow sRow (vcuRun s)))) ∧
  (-- TBC_LINE_DONE (R453): The Tombac engine completes a line and passes to the highest ready source.
   ∀ tRow (bad : Bool) sRow s, reaches tRow [35] sRow s →
     (∀ j, lineJob bad s = some j →
       (j.src.isNone ∧ jobSrc j.desc = 0 →
         let r := readUnits 5 (leAt j.desc 32 8) (jobSrcLen j.desc) s
         becomes (.tbcLineDone tRow bad) tRow sRow (tbcLineDone r.1 r.2)) ∧
       (¬ (j.src.isNone ∧ jobSrc j.desc = 0) → becomes (.tbcLineDone tRow bad) tRow sRow (tbcLineDone false s))) ∧
     (lineJob bad s = none →
       becomes (.tbcLineDone tRow bad) tRow sRow (tbcLineDone bad s)))

/-- What each row about DRAM and DMA does where its hypotheses hold (14_dram_and_dma.md). -/
def Obligations.DramAndDmaEventsComplete : Prop :=
  (-- PENDING_DELIVERY (R496): A pending event is delivered when its task input stops being busy.
   ∀ tRow (c : Nat) sRow s, reaches tRow [36] sRow s →
     (∀ d, pendCycle s (c, taskIn s c) = some d →
       (d ≤ sysCycle s → becomes (.pendingDelivery tRow c) tRow sRow (deliverPend c s)) ∧
       (¬ (d ≤ sysCycle s) → becomes (.pendingDelivery tRow c) tRow sRow s)) ∧
     (pendCycle s (c, taskIn s c) = none →
       becomes (.pendingDelivery tRow c) tRow sRow s)) ∧
  (-- DMA_TRANSFER_DONE (R540): A DMA read or write request completes or fails.
   ∀ tRow (c : Nat) (ok : Bool) (n : Nat) (data : List Nat) (acts : List RowAct) sRow s, reaches tRow [40] sRow s →
     becomes (.dmaTransferDone tRow c ok n ⟨data, acts⟩) tRow sRow (dmaTransferDone c ok n data (acts.foldl activate s))) ∧
  (-- DMA_RETRY_WAIT (R541): A retry wait expires and the failing request is reissued.
   ∀ tRow (c : Nat) sRow s, reaches tRow [40] sRow s →
     (∀ t, (dmaCh s c).waitTo = some t →
       (t ≤ s.now →
         becomes (.dmaRetryWait tRow c) tRow sRow (bump (dmaBase + 0x108 + c * 0x10) 1 (setDmaCh c (fun x => { x with waitTo := none }) s))) ∧
       (¬ (t ≤ s.now) → becomes (.dmaRetryWait tRow c) tRow sRow s)) ∧
     ((dmaCh s c).waitTo = none →
       becomes (.dmaRetryWait tRow c) tRow sRow s)) ∧
  (-- DESCRIPTOR_COMPLETE (R542): A descriptor's last write leaves the engine and write-back, event and interrupt follow.
   ∀ tRow (c : Nat) sRow s, reaches tRow [40] sRow s →
     let x := dmaCh s c
     (match x.set, x.desc with
       | some p, some d =>
           (x.state = 1 ∧ x.left ∧ x.waitTo.isNone ∧ ! dCtrl d 0 →
             becomes (.descriptorComplete tRow c) tRow sRow (dmaComplete c p d s)) ∧
           (¬ (x.state = 1 ∧ x.left ∧ x.waitTo.isNone ∧ ! dCtrl d 0) → becomes (.descriptorComplete tRow c) tRow sRow s)
       | _, _ => becomes (.descriptorComplete tRow c) tRow sRow s)) ∧
  (-- FENCE_DONE (R543): A fence read completes and the descriptor completes.
   ∀ tRow (c : Nat) (ok : Bool) sRow s, reaches tRow [40] sRow s →
     let x := dmaCh s c
     (match x.set, x.desc with
       | some p, some d =>
           (x.state = 1 ∧ x.left ∧ x.waitTo.isNone ∧ dCtrl d 0 →
             let r := fenceRead d s
             (ok ∧ ! r.1 → becomes (.fenceDone tRow c ok) tRow sRow (dmaComplete c p d r.2)) ∧
             (¬ (ok ∧ ! r.1) →
               becomes (.fenceDone tRow c ok) tRow sRow (dmaFail c (if r.1 then r.2 else poisonUnit (dDstSp d) (dDst d + dLen d - 1) r.2)))) ∧
           (¬ (x.state = 1 ∧ x.left ∧ x.waitTo.isNone ∧ dCtrl d 0) → becomes (.fenceDone tRow c ok) tRow sRow s)
       | _, _ => becomes (.fenceDone tRow c ok) tRow sRow s)) ∧
  (-- PATROL_SCRUB (R521): The patrol scrub reads the next locations.
   ∀ tRow (es : List EccFound) sRow s, reaches tRow [] sRow s →
     (s.cfg.dmcPolicy.scrub = 0 → becomes (.patrolScrub tRow es) tRow sRow s) ∧
     (s.cfg.dmcPolicy.scrub ≠ 0 →
       let a := s.dmc.scrubAt.1
       let n := scrubSpan s
       let hit := s.dmc.bad.filter fun e => inSpan s a n (unitAddr s e.1 e.2.1)
       let s := if n = 0 then s else touch 255 a n (setDmc (fun d => { d with scrubAt := ((a + n) % (spaceMib s * 1048576), s.now) }) s)
       becomes (.patrolScrub tRow es) tRow sRow (es.foldl eccFound (hit.foldl readBad s)))) ∧
  (-- REFRESH_DUE (R523): A same-bank refresh interval expires.
   ∀ tRow (c : Nat) sRow s, reaches tRow [] sRow s →
     (! s.dmc.set.contains c ∨ refreshEarly (dramCh s c) s.now → becomes (.refreshDue tRow c) tRow sRow s) ∧
     (¬ (! s.dmc.set.contains c ∨ refreshEarly (dramCh s c) s.now) →
       let b := (dramCh s c).refBank
       becomes (.refreshDue tRow c) tRow sRow (emit (.dram c 0 b 0) (setDramCh c (fun x => { x with refAt := some s.now, refBank := (b + 1) % 4, acts := x.acts.map fun e => if e.1 % 4 = b then (e.1, e.2 - (rfmOf x e.1).perRefresh) else e }) s)))) ∧
  (-- DIMM_TEMP_READ (R523): Every 32 ms DIMM temperatures are read and refresh and retraining judged.
   ∀ tRow (c : Nat) (temps : List Int) sRow s, reaches tRow [] sRow s →
     (! s.dmc.set.contains c ∨ temps.isEmpty → becomes (.dimmTempRead tRow c temps) tRow sRow s) ∧
     (¬ (! s.dmc.set.contains c ∨ temps.isEmpty) →
       let x := dramCh s c
       let hot := temps.foldl max (temps.headD 0)
       let s := setDramCh c (fun x => { x with temp := toUnsigned 16 hot, hot := if 95 * 256 < hot then true else if hot ≤ 90 * 256 then false else x.hot }) s
       let s := if 95 * 256 < hot ∧ ! x.hot then dmcNotify 3 c 0 (rset (dmcBase + 4) 4 s) else s
       let moved := temps.any fun t => decide (s.cfg.dmcPolicy.tdelta * 256 ≤ (t - toSigned 16 x.trained).natAbs)
       (moved → becomes (.dimmTempRead tRow c temps) tRow sRow (startRetrain c s)) ∧
       (¬ (moved) → becomes (.dimmTempRead tRow c temps) tRow sRow s))) ∧
  (-- SPD_HUB_TIMEOUT (R515): An SPD hub silent for 1 s fails its channel.
   ∀ tRow (c : Nat) sRow s, reaches tRow [] sRow s →
     (s.dmc.set.contains c → becomes (.spdHubTimeout tRow c) tRow sRow (channelFail c s)) ∧
     (¬ (s.dmc.set.contains c) → becomes (.spdHubTimeout tRow c) tRow sRow s)) ∧
  (-- NEIGHBOUR_REFRESH (R524): A scheduled neighbour refresh of an activated row is issued.
   ∀ tRow (c : Nat) sRow s, reaches tRow [] sRow s →
     (match s.dmc.set.contains c, (dramCh s c).nbr with
       | true, (place, row, _) :: r =>
           let s := setDramCh c (fun x => { x with nbr := r }) s
           ((rfmOf (dramCh s c) place).directed → becomes (.neighbourRefresh tRow c) tRow sRow (emit (.dram c 1 place row) s)) ∧
           (¬ ((rfmOf (dramCh s c) place).directed) →
             becomes (.neighbourRefresh tRow c) tRow sRow (((if row = 0 then [] else [row - 1]) ++ [row + 1]).foldl (fun s r => activate s ⟨c, place / 64, place / 32 % 2, place % 32, r⟩) (emit (.dram c 4 place row) s)))
       | _, _ => becomes (.neighbourRefresh tRow c) tRow sRow s)) ∧
  (-- DQS_DRIFT_READ (R527): Every 100 ms DQS oscillators are read and read delays adjusted.
   ∀ tRow (c : Nat) (drift : Int) sRow s, reaches tRow [] sRow s →
     (s.dmc.set.contains c →
       becomes (.dqsDriftRead tRow c drift) tRow sRow (calRan 2 c drift (setDramCh c (fun x => { x with rdDelay := x.rdDelay + drift }) s))) ∧
     (¬ (s.dmc.set.contains c) → becomes (.dqsDriftRead tRow c drift) tRow sRow s)) ∧
  (-- RETRAIN_SLICE (R527): A retraining slice runs on a channel.
   ∀ tRow (c : Nat) sRow s, reaches tRow [] sRow s →
     let early := match (dramCh s c).sliceAt with | some t => decide (s.now < t + 100 * us) | none => false
     (s.dmc.set.contains c ∧ (dramCh s c).retrain ∧ early = false →
       becomes (.retrainSlice tRow c) tRow sRow (emit (.dram c 2 0 0) (setDramCh c (fun x => { x with sliceAt := some s.now }) s))) ∧
     (¬ (s.dmc.set.contains c ∧ (dramCh s c).retrain ∧ early = false) → becomes (.retrainSlice tRow c) tRow sRow s)) ∧
  (-- RETRAIN_COMPLETE (R527): A retraining completes and new delays are adopted or old ones kept.
   ∀ tRow (c : Nat) (qf : Nat) (temp : Nat) sRow s, reaches tRow [] sRow s →
     let x := dramCh s c
     (! x.retrain → becomes (.retrainComplete tRow c qf temp) tRow sRow s) ∧
     (x.retrain →
       let s := setDramCh c (fun x => { x with retrain := false, retrains := min (x.retrains + 1) 0xFFFF }) s
       let s := dmcNotify 4 c 0 (rset (dmcBase + 4) 5 (calRan 1 c qf s))
       let s := if qf = 0 then channelFail c s
           else if qf < x.qf then s
           else
             let d := takeInt s
             let e := takeInt d.2
             setDramCh c (fun x => { x with qf := qf, trained := temp % 65536, tj := s.mon.tj, cls := s.mon.loadClass, prov := false, rdDelay := d.1, wrDelay := e.1 }) e.2
       becomes (.retrainComplete tRow c qf temp) tRow sRow (nextRetrain s))) ∧
  (-- DDR_ALERT (R515): DDR_ALERT_N reports a command/address parity error, which is retried and may fail the channel.
   ∀ tRow (c : Nat) (addr : Nat) (persists : Bool) sRow s, reaches tRow [] sRow s →
     (! s.dmc.set.contains c → becomes (.ddrAlert tRow c addr persists) tRow sRow s) ∧
     (s.dmc.set.contains c →
       let s := eccLog ⟨addr, c, 0, 0, 255, 2, tmuNs s⟩ s
       (persists → becomes (.ddrAlert tRow c addr persists) tRow sRow (channelFail c s)) ∧
       (¬ (persists) → becomes (.ddrAlert tRow c addr persists) tRow sRow s)))

/-- What each row about sensors, rails, plans and margins does where its hypotheses hold (17_health_margins_and_faults.md). -/
def Obligations.MonitorEventsComplete : Prop :=
  (-- FAULT_HOLD_EXPIRY (R641): The AON domain asserts the automatic reset after FAULT_HOLD.
   ∀ tRow sRow s, reaches tRow [] sRow s →
     (s.dev.state ≠ .fault ∨ s.nvs.set.hold = 0 ∨ s.now < s.mon.faultAt + s.nvs.set.hold * secPs →
       becomes (.faultHoldExpiry tRow) tRow sRow s) ∧
     (¬ (s.dev.state ≠ .fault ∨ s.nvs.set.hold = 0 ∨ s.now < s.mon.faultAt + s.nvs.set.hold * secPs) →
       (s.dev.faultClass = 2 ∨ s.dev.faultClass = 6 → becomes (.faultHoldExpiry tRow) tRow sRow (swReset 2 0 false s)) ∧
       (¬ (s.dev.faultClass = 2 ∨ s.dev.faultClass = 6) →
         (s.dev.faultClass = 3 ∨ s.dev.faultClass = 5 ∨ s.dev.faultClass = 7 →
           becomes (.faultHoldExpiry tRow) tRow sRow (swReset 1 0 false s)) ∧
         (¬ (s.dev.faultClass = 3 ∨ s.dev.faultClass = 5 ∨ s.dev.faultClass = 7) →
           becomes (.faultHoldExpiry tRow) tRow sRow s)))) ∧
  (-- THERMAL_SAMPLE (R639): Thermal sensors are read every 100 µs and warning and throttling judged.
   ∀ tRow (temps : List Int) sRow s, reaches tRow [] sRow s →
     let s := setMon (fun m => { m with sensors := m.sensors.mapIdx fun i x => match temps[i]? with
         | some t => if sensorHere s i then { x with temp := t + userTrim s i, read := true } else x
         | none => x }) s
     let s := match hottest s (validSensors s) with
         | some n => setMon (fun m => { m with tj := centi (sensorTemp s n), tjOk := true, tjSensor := n }) s
         | none => setMon (fun m => { m with tjOk := false }) s
     becomes (.thermalSample tRow temps) tRow sRow (judgeThrottle (judgeWarn s))) ∧
  (-- THROTTLE_ESCALATE (R639): A sensor 4 °C above T_throttle for 10 ms sets the divider to 4.
   ∀ tRow sRow s, reaches tRow [] sRow s →
     ((s.mon.divT = 1 ∧ s.mon.hotSince.any (fun e => decide (e.2 + 10 * ms ≤ s.now))) →
       becomes (.throttleEscalate tRow) tRow sRow (divUp (setMon (fun m => { m with divT := 2 }) s))) ∧
     (¬ ((s.mon.divT = 1 ∧ s.mon.hotSince.any (fun e => decide (e.2 + 10 * ms ≤ s.now)))) →
       becomes (.throttleEscalate tRow) tRow sRow s)) ∧
  (-- THROTTLE_RESTORE (R639): Sensors below T_throttle − 3 °C for 100 ms restore a divider stage.
   ∀ tRow sRow s, reaches tRow [] sRow s →
     (∀ t, s.mon.coolSince = some t →
       (s.mon.divT ≠ 0 ∧ t + 100 * ms ≤ s.now →
         becomes (.throttleRestore tRow) tRow sRow (monNotify 2 (max (s.mon.divT - 1) s.mon.divM : Nat) (setMon (fun m => { m with divT := m.divT - 1, coolSince := some s.now }) s))) ∧
       (¬ (s.mon.divT ≠ 0 ∧ t + 100 * ms ≤ s.now) → becomes (.throttleRestore tRow) tRow sRow s)) ∧
     (s.mon.coolSince = none →
       becomes (.throttleRestore tRow) tRow sRow s)) ∧
  (-- AGEING_MEASURE (R622): Every 600 s ageing pairs are measured and AGE_IDX may rise.
   ∀ tRow (shifts0 : List Nat) sRow s, reaches tRow [] sRow s →
     let shifts := shifts0
     let shifts := shifts.take 40
     let s := (shifts.mapIdx fun i x => (i, x)).foldl (fun s e => calRan 3 e.1 e.2 s) s
     let top := shifts.foldl max 0
     let idx := min 255 (top / 2500)
     let s := setMon (fun m => { m with shift := top }) s
     (idx ≤ s.mon.ageIdx →
       becomes (.ageingMeasure tRow shifts0) tRow sRow (setMon (fun m => { m with ageSeen := [] }) s)) ∧
     (¬ (idx ≤ s.mon.ageIdx) →
       (s.mon.ageSeen.length < 2 →
         becomes (.ageingMeasure tRow shifts0) tRow sRow (setMon (fun m => { m with ageSeen := idx :: m.ageSeen }) s)) ∧
       (¬ (s.mon.ageSeen.length < 2) →
         becomes (.ageingMeasure tRow shifts0) tRow sRow (startPlan (setMon (fun m => { m with ageIdx := idx, ageSeen := [] }) s))))) ∧
  (-- MARGIN_GUARD (R631): Every 1 ms the margin guard checks WM and raises rails or divides.
   ∀ tRow (tmm : List Int) sRow s, reaches tRow [] sRow s →
     let s := setMon (fun m => { m with tmm := tmm }) s
     let eng := leastTmm (railTmm s 0)
     let engLow : Bool := match eng with | some w => decide (w.2 < 5) && atLimit s 0 | none => false
     let lost := [1, 2].findSome? fun r => match leastTmm (railTmm s r) with
         | some w => if w.2 < 5 ∧ atLimit s r then some w.1 else none
         | none => none
     let s := [0, 1, 2].foldl guardRail s
     let s := if engLow ∧ s.mon.divAt.isNone then
           monFlag 3 (logMain 3 2 0 unitMon (match eng with | some w => toUnsigned 32 w.2 | none => 0) (match eng with | some w => w.1 | none => 0) (setMon (fun m => { m with divM := 1, divAt := some s.now }) s))
         else s
     let any := leastTmm ((s.mon.tmm.mapIdx fun i x => (i, x)).filter fun e => tmmHere s e.1)
     let late : Bool := match s.mon.divAt, any with | some t, some w => decide (t + 10 * ms ≤ s.now) && decide (w.2 < 5) | _, _ => false
     (∀ n, lost = some n →
       becomes (.marginGuard tRow tmm) tRow sRow (faultEntry 5 unitMon n s)) ∧
     (lost = none →
       (late →
         becomes (.marginGuard tRow tmm) tRow sRow (faultEntry 5 unitMon (match any with | some w => w.1 | none => 0) s)) ∧
       (¬ (late) → becomes (.marginGuard tRow tmm) tRow sRow s))) ∧
  (-- DROOP_EVENT (R632): A droop detector records an excursion and may raise its rail.
   ∀ tRow (r : Nat) sRow s, reaches tRow [] sRow s →
     (3 ≤ r → becomes (.droopEvent tRow r) tRow sRow s) ∧
     (¬ (3 ≤ r) →
       let times := (((tabGet s.mon.droops r).getD []) ++ [s.now]).filter fun t => decide (s.now < t + secPs)
       let s := bump (monBase + 0x44 + r * 4) 1 s
       (times.length ≤ s.mon.droopLimit →
         becomes (.droopEvent tRow r) tRow sRow (setMon (fun m => { m with droops := tabPut m.droops r times }) s)) ∧
       (¬ (times.length ≤ s.mon.droopLimit) →
         let s := setMon (fun m => { m with droops := tabDel m.droops r }) s
         let s := if atLimit s r then s else raiseRail r s
         becomes (.droopEvent tRow r) tRow sRow (monNotify 8 r (monFlag 4 (logMain 4 1 0 unitMon r 0 s)))))) ∧
  (-- POWER_ESTIMATE (R624): Every 1 ms P_est is formed and the load class judged.
   ∀ tRow (p : Nat) sRow s, reaches tRow [] sRow s →
     let c := s.mon.loadClass
     let up := (([1, 2, 3].filter fun k => decide (c < k ∧ classFloor k ≤ p)).map fun k => (k, (tabGet s.mon.rising k).getD s.now))
     let down := if p + 50 < classFloor c then some (s.mon.falling.getD s.now) else none
     let s := setMon (fun m => { m with pEst := p, rising := up, falling := down }) s
     (match (up.filter fun e => decide (e.2 + 10 * ms ≤ s.now)).getLast? with
       | some e => becomes (.powerEstimate tRow p) tRow sRow (setClass e.1 s)
       | none =>
           (∀ t, down = some t →
             (t + secPs ≤ s.now → becomes (.powerEstimate tRow p) tRow sRow (setClass (classOf p) s)) ∧
             (¬ (t + secPs ≤ s.now) → becomes (.powerEstimate tRow p) tRow sRow s)) ∧
           (down = none →
             becomes (.powerEstimate tRow p) tRow sRow s))) ∧
  (-- PLAN_FORMED (R630): The margin planner finishes a plan and applies or holds it.
   ∀ tRow (f : PlanScan) sRow s, reaches tRow [] sRow s →
     (! s.mon.planning → becomes (.planFormed tRow f) tRow sRow s) ∧
     (s.mon.planning →
       let r := formPlan s f
       let waiters := s.mon.planWait
       let vs := (engChoices s f).foldl (fun t e => tabPut t e.1 e.2) ([] : Tab Nat)
       let s := setMon (fun m => { m with planning := false, planWait := [], plan := r.1, vEng := vs }) s
       let s := if r.2 then monFlag 8 s else s
       let s := monNotify 4 r.1.mhz (logMain 13 0 0 unitMon r.1.mhz 0 s)
       let s := takePlan r.1 s
       becomes (.planFormed tRow f) tRow sRow (waiters.foldl (fun s w => answer w.1 stOk (planPs r.1 w.2) s) s))) ∧
  (-- AVS_COMMAND (R629): The next AVSBus setpoint command to a rail completes and is read back.
   ∀ tRow (ok : Bool) sRow s, reaches tRow [] sRow s →
     (match s.mon.moves with
       | [] =>
           (! ok → becomes (.avsCommand tRow ok) tRow sRow s) ∧
           (ok →
             let lost := s.mon.avsLost && ! s.mon.frozen
             let s := setMon (fun m => { m with avsOk := ! m.frozen, avsLost := m.avsLost && m.frozen }) s
             (lost → becomes (.avsCommand tRow ok) tRow sRow (startPlan s)) ∧
             (¬ (lost) → becomes (.avsCommand tRow ok) tRow sRow s))
       | (r, v) :: rest =>
           let early : Bool := match tabGet s.mon.avsAt r with | some t => decide (s.now < t + 20 * us) | none => false
           (early → becomes (.avsCommand tRow ok) tRow sRow s) ∧
           (¬ (early) →
             let s := emit (.bus 0 r v) (setMon (fun m => { m with avsAt := tabPut m.avsAt r s.now }) s)
             (ok →
               becomes (.avsCommand tRow ok) tRow sRow (runClock rest (setMon (fun m => { m with mv := listMod m.mv r fun _ => v, avsOk := true, avsFails := 0 }) s))) ∧
             (¬ (ok) →
               (2 ≤ s.mon.avsFails → becomes (.avsCommand tRow ok) tRow sRow (avsLostNow r s)) ∧
               (¬ (2 ≤ s.mon.avsFails) →
                 becomes (.avsCommand tRow ok) tRow sRow (setMon (fun m => { m with avsFails := m.avsFails + 1 }) s)))))) ∧
  (-- TELEMETRY_POLL (R634): Every 10 ms regulators are read over PMBus.
   ∀ tRow (rs : List (Nat × Nat × Int × Nat)) sRow s, reaches tRow [] sRow s →
     (s.mon.tele = none →
       becomes (.telemetryPoll tRow rs) tRow sRow s) ∧
     (∀ c, s.mon.tele = some c →
       let read := (rs.mapIdx fun i r => (i, r)).filter fun e => nth c.addrs e.1 != 0 && decide (e.1 < 8)
       let s := read.foldl (fun s e => pmbusReads.foldl (fun s k => emit (.bus 1 (nth c.addrs e.1) k) s) s) s
       let s := read.foldl (fun s e =>
           let x : Telem := ⟨e.2.1, e.2.2.1, e.2.2.2.1, e.2.2.2.2⟩
           let rail := nth c.rails e.1
           setMon (fun m => { m with telem := tabPut m.telem e.1 x, readMv := if rail < 3 then listMod m.readMv rail fun _ => x.mv else m.readMv }) s) s
       (match read.find? fun e => e.2.2.2.2 &&& railFaultBits != 0 with
         | some e =>
             becomes (.telemetryPoll tRow rs) tRow sRow (faultEntry 6 unitMon e.1 (monFlag 6 (logMain 6 2 0 unitMon e.1 e.2.2.2.2 s)))
         | none => becomes (.telemetryPoll tRow rs) tRow sRow s))) ∧
  (-- PMB_ALERT (R634): PMB_ALERT_N asserts and the regulators are read at once.
   ∀ tRow (rs : List (Nat × Nat × Int × Nat)) sRow s, reaches tRow [] sRow s →
     (s.mon.tele = none →
       becomes (.pmbAlert tRow rs) tRow sRow s) ∧
     (∀ c, s.mon.tele = some c →
       let read := (rs.mapIdx fun i r => (i, r)).filter fun e => nth c.addrs e.1 != 0 && decide (e.1 < 8)
       let s := read.foldl (fun s e => pmbusReads.foldl (fun s k => emit (.bus 1 (nth c.addrs e.1) k) s) s) s
       let s := read.foldl (fun s e =>
           let x : Telem := ⟨e.2.1, e.2.2.1, e.2.2.2.1, e.2.2.2.2⟩
           let rail := nth c.rails e.1
           setMon (fun m => { m with telem := tabPut m.telem e.1 x, readMv := if rail < 3 then listMod m.readMv rail fun _ => x.mv else m.readMv }) s) s
       (match read.find? fun e => e.2.2.2.2 &&& railFaultBits != 0 with
         | some e => becomes (.pmbAlert tRow rs) tRow sRow (faultEntry 6 unitMon e.1 (monFlag 6 (logMain 6 2 0 unitMon e.1 e.2.2.2.2 s)))
         | none => becomes (.pmbAlert tRow rs) tRow sRow s))) ∧
  (-- SENSOR_CROSS_CHECK (R637): Every 60 s sensors are cross-checked and a bad one marked.
   ∀ tRow sRow s, reaches tRow [] sRow s →
     let v := validSensors s
     let med := lowerMedian (v.map (sensorTemp s))
     let one : State → Nat → State := fun s n =>
         let d := sensorTemp s n - med
         let s := calRan 4 n (centi d) s
         let fails := if 240 < d.natAbs then (s.mon.sensors.getD n {}).fails + 1 else 0
         let bad := decide (3 ≤ fails)
         let s := setMon (fun m => { m with sensors := listMod m.sensors n fun x => { x with fails := fails, bad := bad } }) s
         if bad then monFlag 9 (logMain 11 1 0 unitMon 0 n s) else s
     becomes (.sensorCrossCheck tRow) tRow sRow (v.foldl one s)) ∧
  (-- THERMAL_TRIP (R640): A trip comparator trips and asserts the THERM_TRIP reset source.
   ∀ tRow sRow s, arrive tRow sRow = s →
     becomes (.thermalTrip tRow) tRow sRow (assertSource causeTherm 2 false true (some (causeTherm, 0)) (setRcp (fun r => { r with tripped := true }) s))) ∧
  (-- THERMAL_TRIP_END (R640): All comparators below 95 °C for 10 ms release the trip source.
   ∀ tRow sRow s, arrive tRow sRow = s →
     becomes (.thermalTripEnd tRow) tRow sRow (releaseSource (causeTherm, 0) (setRcp (fun r => { r with tripped := false }) s))) ∧
  (-- DIAG_RESET_ASSERT (R652): 10 ms after a DIAG_RESET reply the requested Block, System or Chip reset is asserted.
   ∀ tRow sRow s, reaches tRow [] sRow s →
     (match s.rcp.diag with
       | d :: rest =>
           (d.at_ ≤ s.now →
             becomes (.diagResetAssert tRow) tRow sRow (causing d.cause (swReset d.reach d.wrapper d.keep) (setRcp (fun r => { r with diag := rest }) s))) ∧
           (¬ (d.at_ ≤ s.now) → becomes (.diagResetAssert tRow) tRow sRow s)
       | [] => becomes (.diagResetAssert tRow) tRow sRow s))

/-- What each row about encoders, generators, latches and the time unit does where its hypotheses hold (05_encoders_and_web_time.md). -/
def Obligations.MotionAndTimeEventsComplete : Prop :=
  (-- ENCODER_EDGE (R208): An accepted quadrature transition moves the axis count.
   ∀ tRow (a : Nat) (x : Bool) (y : Bool) sRow s, reaches tRow [38] sRow s →
     becomes (.encoderEdge tRow a x y) tRow sRow (axisGuard a (encoderEdge a x y) s)) ∧
  (-- Z_EDGE (R209): A rising Z edge is checked against N_z and may set an origin or latch.
   ∀ tRow (a : Nat) (rising : Bool) sRow s, reaches tRow [38] sRow s →
     let s := if rising ∧ (axis s a).state = 1 then zRise a s else s
     becomes (.zEdge tRow ⟨a, rising⟩) tRow sRow (s.cfg.latches.foldl (fun s e => if e.2.source = 1 ∧ e.2.axis = a ∧ edgeOk e.2.edge rising then latchEdge e.1 none s else s) s)) ∧
  (-- SERIAL_SAMPLE (R210): The sample period expires and a serial frame is read.
   ∀ tRow (a : Nat) sRow s, reaches tRow [38] sRow s →
     ((axis s a).state = 0 ∨ (encCfg s a).type < 2 → becomes (.serialSample tRow a) tRow sRow s) ∧
     (¬ ((axis s a).state = 0 ∨ (encCfg s a).type < 2) →
       becomes (.serialSample tRow a) tRow sRow (setAxis a (fun x => { x with sampleAt := s.now + (encCfg s a).lineDelayNs * ns }) s))) ∧
  (-- SERIAL_FRAME (R211): A serial frame completes and is accepted or discarded.
   ∀ tRow (a : Nat) (f : SerialFrame) sRow s, reaches tRow [38] sRow s →
     becomes (.serialFrame tRow a f) tRow sRow (axisGuard a (serialFrame a f) s)) ∧
  (-- AXIS_FAULT_EXIT (R208): An axis in FAULT runs 10 ms without error and restarts with origin unset.
   ∀ tRow (a : Nat) sRow s, reaches tRow [38] sRow s →
     let x := axis s a
     (x.state = 2 ∧ x.lastBad + 10 * ms ≤ s.now →
       becomes (.axisFaultExit tRow a) tRow sRow (axisStart a (encCfg s a).type s)) ∧
     (¬ (x.state = 2 ∧ x.lastBad + 10 * ms ≤ s.now) → becomes (.axisFaultExit tRow a) tRow sRow s)) ∧
  (-- OBSERVER_UPDATE (R215): The tracking observer updates at 1 MHz.
   ∀ tRow (a : Nat) sRow s, reaches tRow [38] sRow s →
     let x := axis s a
     let early : Bool := match x.obsAt with | some t => decide (s.now < t + us) | none => false
     (x.state = 0 ∨ early → becomes (.observerUpdate tRow a) tRow sRow s) ∧
     (¬ (x.state = 0 ∨ early) →
       becomes (.observerUpdate tRow a) tRow sRow (setAxis a (fun x => { observe (obsCfg s a).bw (posAt x s.now * (encCfg s a).scale) x with obsAt := some s.now }) s))) ∧
  (-- MOTION_STOP (R218): An axis's count has stayed within START_DIST over STOP_TIME.
   ∀ tRow (a : Nat) sRow s, reaches tRow [38] sRow s →
     let t := motionStop a s
     (webAxis s = some a ∧ (axis s a).moving ∧ ! (axis t a).moving ∧ ! wrapClosed 39 t →
       becomes (.motionStop tRow a) tRow sRow (stopRev t)) ∧
     (¬ (webAxis s = some a ∧ (axis s a).moving ∧ ! (axis t a).moving ∧ ! wrapClosed 39 t) →
       becomes (.motionStop tRow a) tRow sRow t)) ∧
  (-- TICK (R219): The interpolated position reaches a generator boundary and triggers are sent.
   ∀ tRow (g : Nat) (n : Int) (fwd : Bool) sRow s, reaches tRow [38] sRow s →
     (ltgRuns s g = none →
       becomes (.tick tRow g n fwd) tRow sRow s) ∧
     (∀ c, ltgRuns s g = some c →
       let x := (tabGet s.pos.ltg g).getD {}
       (! ltgAllows c x n fwd ∨ ! reaches s c.axis (c.phase + n * c.pitch) fwd → becomes (.tick tRow g n fwd) tRow sRow s) ∧
       (¬ (! ltgAllows c x n fwd ∨ ! reaches s c.axis (c.phase + n * c.pitch) fwd) →
         let soon := match x.lastTick with | some t => decide (s.now < t + c.minInt * ns) | none => false
         let exp : Expo := { gen := g, line := n, t := s.now + ePs s, skip := soon }
         let s := { s with pos := { s.pos with exps := s.pos.exps ++ [exp] } }
         (soon →
           let s := { s with pos := { s.pos with ltg := tabPut s.pos.ltg g { x with skip := min (x.skip + 1) 0xFFFFFFFF } } }
           becomes (.tick tRow g n fwd) tRow sRow (rset (posBase + 0x10 + 4 * c.axis) 4 s)) ∧
         (¬ (soon) →
           let s := { s with pos := { s.pos with ltg := tabPut s.pos.ltg g { x with lastTick := some s.now, lastN := some n, top := some (match x.top with | some t => max t n | none => n) } } }
           let s := publish (0x0310 + g) s
           (runningState s.dev.state → becomes (.tick tRow g n fwd) tRow sRow (tickPorts g n s)) ∧
           (¬ (runningState s.dev.state) → becomes (.tick tRow g n fwd) tRow sRow s))))) ∧
  (-- EXPOSURE_LATCH (R222): At t_tick + E the position and time of the line are latched.
   ∀ tRow (g : Nat) sRow s, reaches tRow [38] sRow s →
     becomes (.exposureLatch tRow g) tRow sRow (expose (fun e => e.gen == g && decide (e.t ≤ s.now)) s)) ∧
  (-- MATCH (R226): An axis crosses a compare entry and the channel applies its action.
   ∀ tRow (ch : Nat) (k : Nat) (fwd : Bool) sRow s, reaches tRow [38] sRow s →
     (tabGet s.cfg.cmp ch = none →
       becomes (.matchEv tRow ch k fwd) tRow sRow s) ∧
     (∀ c, tabGet s.cfg.cmp ch = some c →
       (tabGet s.cfg.cmpOn ch ≠ some 1 ∨ (axis s c.axis).state ≠ 1 ∨ ! (axis s c.axis).origin →
         becomes (.matchEv tRow ch k fwd) tRow sRow s) ∧
       (¬ (tabGet s.cfg.cmpOn ch ≠ some 1 ∨ (axis s c.axis).state ≠ 1 ∨ ! (axis s c.axis).origin) →
         (c.mode = 1 →
           (fwd ∧ k < c.count ∧ reaches s c.axis (c.start + k * c.pitch) true →
             becomes (.matchEv tRow ch k fwd) tRow sRow (publish (0x0320 + ch) (cmpAction ch 3 c.pulse s))) ∧
           (¬ (fwd ∧ k < c.count ∧ reaches s c.axis (c.start + k * c.pitch) true) →
             becomes (.matchEv tRow ch k fwd) tRow sRow s)) ∧
         (c.mode ≠ 1 →
           (tabGet s.pos.cmpMem (c.base + k) = none →
             becomes (.matchEv tRow ch k fwd) tRow sRow s) ∧
           (∀ e, tabGet s.pos.cmpMem (c.base + k) = some e →
             let x := cmpCycle (sysCycle s) fwd ((tabGet s.pos.cmp ch).getD {})
             (c.len ≤ k ∨ (fwd ∧ k < x.ptr0) ∨ (! fwd ∧ x.ptr0 ≤ k) ∨ x.done.contains k ∨ ! reaches s c.axis e.md fwd →
               becomes (.matchEv tRow ch k fwd) tRow sRow s) ∧
             (¬ (c.len ≤ k ∨ (fwd ∧ k < x.ptr0) ∨ (! fwd ∧ x.ptr0 ≤ k) ∨ x.done.contains k ∨ ! reaches s c.axis e.md fwd) →
               let s := setCmp ch (fun _ => { x with ptr := if fwd then max x.ptr (k + 1) else min x.ptr k, done := insertNat k x.done }) s
               let s := if cmpTakes e.dir fwd then publish (0x0320 + ch) (driveCmp ch (cmpLevel s c ch) (cmpAction ch e.action c.pulse s)) else s
               (fwd ∧ k + 1 = c.len → becomes (.matchEv tRow ch k fwd) tRow sRow (publish (0x0330 + ch) s)) ∧
               (¬ (fwd ∧ k + 1 = c.len) → becomes (.matchEv tRow ch k fwd) tRow sRow s))))))) ∧
  (-- CMP_PULSE_END (R226): A compare channel's pulse timer ends.
   ∀ tRow (ch : Nat) sRow s, reaches tRow [38] sRow s →
     (∀ t, ((tabGet s.pos.cmp ch).getD {}).pulseEnd = some t →
       (t ≤ s.now →
         becomes (.cmpPulseEnd tRow ch) tRow sRow (driveCmp ch false (setCmp ch (fun x => { x with pulseEnd := none }) s))) ∧
       (¬ (t ≤ s.now) → becomes (.cmpPulseEnd tRow ch) tRow sRow s)) ∧
     (((tabGet s.pos.cmp ch).getD {}).pulseEnd = none →
       becomes (.cmpPulseEnd tRow ch) tRow sRow s)) ∧
  (-- LATCH_INPUT_EDGE (R229): An edge on a PLAT ball captures its latch.
   ∀ tRow (l : Nat) (rising : Bool) sRow s, reaches tRow [38] sRow s →
     (∀ c, tabGet s.cfg.latches l = some c →
       (c.source = 0 ∧ edgeOk c.edge rising → becomes (.latchInputEdge tRow l rising) tRow sRow (latchEdge l none s)) ∧
       (¬ (c.source = 0 ∧ edgeOk c.edge rising) → becomes (.latchInputEdge tRow l rising) tRow sRow s)) ∧
     (tabGet s.cfg.latches l = none →
       becomes (.latchInputEdge tRow l rising) tRow sRow s)) ∧
  (-- PTP_MESSAGE (R237): A PTP message arrives, is stamped and may yield an offset measurement.
   ∀ tRow (m : PtpMsg) sRow s, reaches tRow [37] sRow s →
     let p := s.tmu.ptp
     (s.dev.asleep ∨ m.domain ≠ p.p.domain ∨ m.iface ≠ p.p.iface ∨ m.transport ≠ p.p.transport ∨ m.sender = ptpSelf →
       becomes (.ptpMessage tRow m) tRow sRow s) ∧
     (¬ (s.dev.asleep ∨ m.domain ≠ p.p.domain ∨ m.iface ≠ p.p.iface ∨ m.transport ≠ p.p.transport ∨ m.sender = ptpSelf) →
       let t := tmuNs s
       let ofMaster := (p.parent.map fun x => x.1) = some m.sender
       let s := if ofMaster ∧ s.tmu.source = 1 then setTmu (fun x => { x with lastMsg := s.now }) s else s
       let delay : Int → State := fun d => setPtp (fun p => { p with t3 := none, pd := none, meanDelay := d, haveDelay := true }) s
       (match m.kind with
         | 0 | 1 =>
             (ofMaster ∧ ! p.master → becomes (.ptpMessage tRow m) tRow sRow (ptpSync m t s)) ∧
             (¬ (ofMaster ∧ ! p.master) → becomes (.ptpMessage tRow m) tRow sRow s)
         | 2 | 5 => becomes (.ptpMessage tRow m) tRow sRow (ptpAnswer m t s)
         | 3 =>
             (match p.t3, p.sync with
               | some (q, t3), some y =>
                   (m.req = ptpSelf ∧ m.seq = q ∧ p.p.profile = 0 ∧ ! y.await →
                     becomes (.ptpMessage tRow m) tRow sRow (delay (Int.fdiv ((y.t2 : Int) - y.t1 - y.corr + (m.ts - t3 - m.corr)) 2))) ∧
                   (¬ (m.req = ptpSelf ∧ m.seq = q ∧ p.p.profile = 0 ∧ ! y.await) → becomes (.ptpMessage tRow m) tRow sRow s)
               | _, _ => becomes (.ptpMessage tRow m) tRow sRow s)
         | 4 => becomes (.ptpMessage tRow m) tRow sRow (ptpAnnounce m s)
         | 6 =>
             (∀ q t3, p.t3 = some (q, t3) →
               (m.req ≠ ptpSelf ∨ m.seq ≠ q ∨ p.p.profile ≠ 1 → becomes (.ptpMessage tRow m) tRow sRow s) ∧
               (¬ (m.req ≠ ptpSelf ∨ m.seq ≠ q ∨ p.p.profile ≠ 1) →
                 (m.twoStep →
                   becomes (.ptpMessage tRow m) tRow sRow (setPtp (fun p => { p with pd := some ((m.ts : Int) - m.corr, t) }) s)) ∧
                 (¬ (m.twoStep) → becomes (.ptpMessage tRow m) tRow sRow (delay (Int.fdiv ((t : Int) - t3 - m.corr) 2))))) ∧
             (p.t3 = none →
               becomes (.ptpMessage tRow m) tRow sRow s)
         | 7 =>
             (match p.t3, p.pd with
               | some (q, t3), some (t2, t4) =>
                   (m.req = ptpSelf ∧ m.seq = q →
                     becomes (.ptpMessage tRow m) tRow sRow (delay (Int.fdiv (((t4 : Int) - t3) - ((m.ts : Int) - t2) - m.corr) 2))) ∧
                   (¬ (m.req = ptpSelf ∧ m.seq = q) → becomes (.ptpMessage tRow m) tRow sRow s)
               | _, _ => becomes (.ptpMessage tRow m) tRow sRow s)
         | _ => becomes (.ptpMessage tRow m) tRow sRow s))) ∧
  (-- PTP_TX_DUE (R237): A PTP message interval expires and the port sends its message.
   ∀ tRow (kind : Nat) sRow s, reaches tRow [37] sRow s →
     (s.dev.asleep → becomes (.ptpTxDue tRow kind) tRow sRow s) ∧
     (¬ (s.dev.asleep) →
       let s := announceTimeout s
       let p := s.tmu.ptp
       (! ptpDue kind p s.now → becomes (.ptpTxDue tRow kind) tRow sRow s) ∧
       (ptpDue kind p s.now →
         let t := tmuNs s
         let q := (tabGet p.seqs kind).getD 0
         let s := setPtp (fun p => { p with seqs := tabPut p.seqs kind ((q + 1) % 65536), sent := tabPut p.sent kind s.now, t3 := if kind = 2 ∨ kind = 5 then some (q, t) else p.t3, pd := if kind = 5 then none else p.pd }) s
         (match kind with
           | 0 =>
               (p.p.oneStep = 1 → becomes (.ptpTxDue tRow kind) tRow sRow (ptpSend 0 0 0 q p.p.syncLog (ptpStamp t) s)) ∧
               (p.p.oneStep ≠ 1 →
                 becomes (.ptpTxDue tRow kind) tRow sRow (ptpSend 8 0 0 q p.p.syncLog (ptpStamp t) (ptpSend 0 0x200 0 q p.p.syncLog (ptpStamp 0) s)))
           | 2 => becomes (.ptpTxDue tRow kind) tRow sRow (ptpSend 1 0 0 q 127 (ptpStamp 0) s)
           | 5 => becomes (.ptpTxDue tRow kind) tRow sRow (ptpSend 2 0 0 q 127 (ptpStamp 0 ++ List.replicate 10 0) s)
           | _ =>
               becomes (.ptpTxDue tRow kind) tRow sRow (ptpSend 11 0x0C 0 q p.p.annLog (ptpStamp 0 ++ beBytes 2 (toUnsigned 16 p.utc) ++ [0, p.p.prio1] ++ beBytes 4 Config.clockQuality.toNat ++ [p.p.prio2] ++ beBytes 8 Config.clockIdentity.toNat ++ [0, 0, 0xA0]) s))))) ∧
  (-- PPS_IN_EDGE (R240): A PPS_IN edge steps the counter once or supplies an offset measurement.
   ∀ tRow sRow s, reaches tRow [37] sRow s →
     (s.tmu.source ≠ 2 ∨ s.dev.asleep → becomes (.ppsInEdge tRow) tRow sRow s) ∧
     (¬ (s.tmu.source ≠ 2 ∨ s.dev.asleep) →
       let s := setTmu (fun x => { x with lastMsg := s.now }) s
       (∀ sec, s.tmu.ppsSec = some sec →
         (s.tmu.stepDone → becomes (.ppsInEdge tRow) tRow sRow s) ∧
         (¬ (s.tmu.stepDone) →
           becomes (.ppsInEdge tRow) tRow sRow (stepTmu (sec * 1000000000) (setTmu (fun x => { x with ppsSec := none }) s)))) ∧
       (s.tmu.ppsSec = none →
         let sub := tmuSub s
         let off : Int := if sub < 500000000 then sub else (sub : Int) - 1000000000
         (1000000 < off.natAbs →
           becomes (.ppsInEdge tRow) tRow sRow (setTmu (fun x => { x with ppsBad := x.ppsBad + 1 }) s)) ∧
         (¬ (1000000 < off.natAbs) →
           (s.tmu.stepDone → becomes (.ppsInEdge tRow) tRow sRow (offsetMeasure off s)) ∧
           (¬ (s.tmu.stepDone) → becomes (.ppsInEdge tRow) tRow sRow s))))) ∧
  (-- SOURCE_LOSS (R236): No valid source for 3 s or PPS for 1.5 s puts the unit in HOLDOVER.
   ∀ tRow sRow s, reaches tRow [37] sRow s →
     let limit := if s.tmu.source = 1 then 3 * secPs else 1500 * ms
     (s.tmu.source = 0 ∨ s.tmu.state = 0 ∨ s.tmu.state = 3 ∨ s.now < s.tmu.lastMsg + limit →
       becomes (.sourceLoss tRow) tRow sRow s) ∧
     (¬ (s.tmu.source = 0 ∨ s.tmu.state = 0 ∨ s.tmu.state = 3 ∨ s.now < s.tmu.lastMsg + limit) →
       becomes (.sourceLoss tRow) tRow sRow (holdover s))) ∧
  (-- PPS_OUT_EDGE (R241): PPS_OUT rises at each second plus offset and falls after its width.
   ∀ tRow (rise : Bool) sRow s, reaches tRow [37] sRow s →
     let out : Bool → State → State := fun v s => emit (.pin pinPpsOut 0 v) (setTmu (fun x => { x with ppsHigh := v }) s)
     (s.dev.asleep ∨ s.tmu.ppsHigh = rise → becomes (.ppsOutEdge tRow rise) tRow sRow s) ∧
     (¬ (s.dev.asleep ∨ s.tmu.ppsHigh = rise) →
       (! rise → becomes (.ppsOutEdge tRow rise) tRow sRow ((if s.tmu.ppsFall ≤ s.now then out false s else s))) ∧
       (rise →
         (∀ t, s.tmu.ppsNext = some t →
           (tmuNs s < t → becomes (.ppsOutEdge tRow rise) tRow sRow s) ∧
           (¬ (tmuNs s < t) →
             becomes (.ppsOutEdge tRow rise) tRow sRow (out true (setTmu (fun x => { x with ppsNext := ppsFirst x.pps (tmuNs s + 1), ppsFall := s.now + x.pps.width * ns }) s)))) ∧
         (s.tmu.ppsNext = none →
           becomes (.ppsOutEdge tRow rise) tRow sRow s)))) ∧
  (-- FIRE (R242): A time trigger fires at its time and may drive a pulse.
   ∀ tRow (k : Nat) sRow s, reaches tRow [37] sRow s →
     (∀ x, tabGet s.tmu.ttr k = some x →
       (∀ t, x.next = some t →
         (t ≤ tmuNs s ∧ ! s.dev.asleep → becomes (.fire tRow k) tRow sRow (fireTtr k t s)) ∧
         (¬ (t ≤ tmuNs s ∧ ! s.dev.asleep) → becomes (.fire tRow k) tRow sRow s)) ∧
       (x.next = none →
         becomes (.fire tRow k) tRow sRow s)) ∧
     (tabGet s.tmu.ttr k = none →
       becomes (.fire tRow k) tRow sRow s)) ∧
  (-- TIO_CAPTURE (R244): An edge on a TIO input is captured in TCP's FIFO.
   ∀ tRow (k : Nat) (rising : Bool) sRow s, reaches tRow [37] sRow s →
     (∀ x, tabGet s.tmu.tcp k = some x →
       (x.p.source = 0 ∧ edgeOk x.p.edge rising → becomes (.tioCapture tRow k rising) tRow sRow (tcpCapture k s)) ∧
       (¬ (x.p.source = 0 ∧ edgeOk x.p.edge rising) → becomes (.tioCapture tRow k rising) tRow sRow s)) ∧
     (tabGet s.tmu.tcp k = none →
       becomes (.tioCapture tRow k rising) tRow sRow s)) ∧
  (-- TIO_PULSE_END (R242): A time trigger's output pulse on TIO[k] ends and the ball returns low.
   ∀ tRow (k : Nat) sRow s, reaches tRow [37] sRow s →
     (∀ x, tabGet s.tmu.ttr k = some x →
       (∀ t, x.pulseEnd = some t →
         (t ≤ s.now →
           becomes (.tioPulseEnd tRow k) tRow sRow (emit (.pin pinTio k false) (setTmu (fun m => { m with ttr := tabPut m.ttr k { x with pulseEnd := none } }) s))) ∧
         (¬ (t ≤ s.now) → becomes (.tioPulseEnd tRow k) tRow sRow s)) ∧
       (x.pulseEnd = none →
         becomes (.tioPulseEnd tRow k) tRow sRow s)) ∧
     (tabGet s.tmu.ttr k = none →
       becomes (.tioPulseEnd tRow k) tRow sRow s))

/-- What each row about supplies, clocks, resets and wrappers does where its hypotheses hold (15_reset_and_clocks.md). -/
def Obligations.ResetAndClockEventsComplete : Prop :=
  (-- VBAT_POWER_ON (R561): The backup domain powers on; a Full reset.
   ∀ tRow sRow s, arrive tRow sRow = s →
     let s := pinsSafe s
     let s := coreReset 3 false (setRcp (fun r => { r with rst := some { since := s.now, reach := 3, keep := false, entered := 3, freeAt := s.now + us } }) (tearFuse (tearStage (tearWrite s))))
     becomes (.vbatPowerOn tRow) tRow sRow s) ∧
  (-- MAIN_POWER_ON (R669): The supervisor asserts and releases the main power-on source.
   ∀ tRow (on : Bool) sRow s, arrive tRow sRow = s →
     becomes (.mainPowerOn tRow on) tRow sRow (levelSource causePor 2 false false on 0 s)) ∧
  (-- BROWNOUT (R669): A supervised rail below threshold for 1 µs asserts a Chip reset.
   ∀ tRow (on : Bool) sRow s, arrive tRow sRow = s →
     becomes (.brownout tRow on) tRow sRow (levelSource causeBrown 2 false false on 0 s)) ∧
  (-- BACKUP_SWITCHOVER (R666): The backup domain switches between VDD_AON and VBAT.
   ∀ tRow (on : Bool) sRow s, arrive tRow sRow = s →
     becomes (.backupSwitchover tRow on) tRow sRow (setRcp (fun r => { r with onVbat := on }) s)) ∧
  (-- RST_N (R561): RST_N low asserts a Chip reset source.
   ∀ tRow (low : Bool) sRow s, arrive tRow sRow = s →
     becomes (.rstN tRow low) tRow sRow (levelSource causePin 2 false true low 0 s)) ∧
  (-- WATCHDOG_EXPIRY (R563): The management watchdog expires and asserts a System or Chip reset.
   ∀ tRow sRow s, arrive tRow sRow = s →
     (s.nvs.boot = 0 → becomes (.watchdogExpiry tRow) tRow sRow s) ∧
     (s.nvs.boot ≠ 0 →
       let esc := bit (rget (rcpBase + 0x10) s) 16
       let keep := bit (rget (rcpBase + 0x08) s) 4
       becomes (.watchdogExpiry tRow) tRow sRow (assertSource causeWdog (if esc then 2 else 1) (keep && ! esc) true none (rset (rcpBase + 0x10) 16 s)))) ∧
  (-- PCIE_RESET (R562): PCIe hot reset, link down or PERST_N resets the link function or the device.
   ∀ tRow (l : Nat) (on : Bool) sRow s, arrive tRow sRow = s →
     (on →
       let s := dropLink l s
       (bit (rget (rcpBase + 0x08) s) l →
         becomes (.pcieReset tRow l on) tRow sRow (assertSource causePcie 1 true true (some (causePcie, l)) s)) ∧
       (¬ (bit (rget (rcpBase + 0x08) s) l) → becomes (.pcieReset tRow l on) tRow sRow s)) ∧
     (¬ (on) → becomes (.pcieReset tRow l on) tRow sRow (releaseSource (causePcie, l) s))) ∧
  (-- DEBUG_RESET (R561): The test and debug port asserts or releases a reset.
   ∀ tRow (reach : Nat) (wrapper : Nat) (keep : Bool) (on : Bool) sRow s, arrive tRow sRow = s →
     (reach = 0 →
       (on → becomes (.debugReset tRow reach wrapper keep on) tRow sRow (assertBlock wrapper causeDebug true false s)) ∧
       (¬ (on) →
         let s := releaseSource (blockKey wrapper) s
         (∀ x, tabGet s.rcp.wraps wrapper = some x →
           becomes (.debugReset tRow reach wrapper keep on) tRow sRow (setWrap wrapper { x with level := false } s)) ∧
         (tabGet s.rcp.wraps wrapper = none →
           becomes (.debugReset tRow reach wrapper keep on) tRow sRow s))) ∧
     (reach ≠ 0 →
       (reach ≤ 2 →
         becomes (.debugReset tRow reach wrapper keep on) tRow sRow (levelSource causeDebug reach (keep && reach == 1) true on 0 s)) ∧
       (¬ (reach ≤ 2) → becomes (.debugReset tRow reach wrapper keep on) tRow sRow s))) ∧
  (-- FORCED_RELEASE (R580): The debug port forces a release before clocks are good, keeping wrappers closed.
   ∀ tRow sRow s, arrive tRow sRow = s →
     let shut := (List.range 44).filter fun w => wrapPresent w s && ! clockGood s (wrapDomain w)
     let hold : State → Nat → State := fun s w => setWrap w { stage := 3 } s
     (∀ r, s.rcp.rst = some r →
       ((r.entered = 0 ∨ ! (r.level.all fun k => k.1 == causeClk)) → becomes (.forcedRelease tRow) tRow sRow s) ∧
       (¬ ((r.entered = 0 ∨ ! (r.level.all fun k => k.1 == causeClk))) →
         becomes (.forcedRelease tRow) tRow sRow (shut.foldl hold (rset rstCause 11 (setRst (fun r => { r with level := [], released := true }) s))))) ∧
     (s.rcp.rst = none →
       let held := (s.rcp.wraps.filter fun e => e.2.stage == 1 && ! e.2.level).map fun e => e.1
       let bad := held.filter fun w => shut.contains w
       (bad.isEmpty → becomes (.forcedRelease tRow) tRow sRow s) ∧
       (¬ (bad.isEmpty) → becomes (.forcedRelease tRow) tRow sRow (bad.foldl hold (rset rstCause 11 s))))) ∧
  (-- REF_LOST (R644): REF loss is detected and a Chip reset held with heads forced off.
   ∀ tRow sRow s, arrive tRow sRow = s →
     let flags := rget (rcpBase + 4) s ||| 2 ||| s.rcp.lock % 128 * 4
     becomes (.refLost tRow) tRow sRow (assertSource causeClk 2 false true (some (causeClk, 7)) (rput (rcpBase + 4) flags (setRcp (fun r => { r with ref := false, lock := 0, good := 0 }) s)))) ∧
  (-- PLL_UNLOCK (R559): A PLL loses lock and the reset of its row in R559 follows.
   ∀ tRow (d : Nat) sRow s, arrive tRow sRow = s →
     (7 ≤ d ∨ ! bit s.rcp.lock d → becomes (.pllUnlock tRow d) tRow sRow s) ∧
     (¬ (7 ≤ d ∨ ! bit s.rcp.lock d) →
       let times := (s.rcp.unlocks.filter fun e => decide (s.now < e.2 + 10 * secPs)) ++ [(d, s.now)]
       let third := 3 ≤ (times.filter fun e => e.1 == d).length
       let lost := if d = 0 then s.rcp.lock % 128 else 2 ^ d
       let s := setRcp (fun r => { r with lock := if d = 0 then 0 else clearBit r.lock d, good := if d = 0 then 0 else clearBit r.good d, unlocks := times, heldPll := if third then r.heldPll ||| 2 ^ d else r.heldPll }) s
       becomes (.pllUnlock tRow d) tRow sRow (clockFail d (rput (rcpBase + 4) (rget (rcpBase + 4) s ||| lost * 4) s)))) ∧
  (-- CLOCK_MONITOR_BAD (R559): A domain monitor reports a cycle that is not good.
   ∀ tRow (d : Nat) sRow s, arrive tRow sRow = s →
     (d = 7 → becomes (.clockMonitorBad tRow d) tRow sRow (setRcp (fun r => { r with ref := false }) s)) ∧
     (d ≠ 7 →
       (7 ≤ d ∨ ! bit s.rcp.good d → becomes (.clockMonitorBad tRow d) tRow sRow s) ∧
       (¬ (7 ≤ d ∨ ! bit s.rcp.good d) →
         becomes (.clockMonitorBad tRow d) tRow sRow (clockFail d (rset (rcpBase + 4) (9 + d) (setRcp (fun r => { r with good := clearBit r.good d }) s)))))) ∧
  (-- CLOCK_MONITOR_GOOD (R557): A domain monitor reports its clock good after 64 good cycles.
   ∀ tRow (d : Nat) sRow s, arrive tRow sRow = s →
     (d = 7 →
       becomes (.clockMonitorGood tRow d) tRow sRow (releaseSource (causeClk, 7) (setRcp (fun r => { r with ref := true }) s))) ∧
     (d ≠ 7 →
       (7 ≤ d ∨ bit s.rcp.heldPll d ∨ ! s.rcp.ref ∨ (d ≠ 0 ∧ ! bit s.rcp.lock 0) →
         becomes (.clockMonitorGood tRow d) tRow sRow s) ∧
       (¬ (7 ≤ d ∨ bit s.rcp.heldPll d ∨ ! s.rcp.ref ∨ (d ≠ 0 ∧ ! bit s.rcp.lock 0)) →
         let s := setRcp (fun r => { r with lock := r.lock ||| 2 ^ d, good := r.good ||| 2 ^ d, wraps := r.wraps.map fun e => (e.1, if wrapDomain e.1 = d then { e.2 with clock := false } else e.2) }) s
         becomes (.clockMonitorGood tRow d) tRow sRow (releaseSource (causeClk, d) s)))) ∧
  (-- FORWARDED_CLOCK_LOSS (R553): A port's forwarded clock is lost and its domain moves to the substitute.
   ∀ tRow (n : Nat) sRow s, arrive tRow sRow = s →
     becomes (.forwardedClockLoss tRow n) tRow sRow (linkDown n true [] (setRcp (fun r => { r with sub := r.sub ||| 2 ^ n }) s))) ∧
  (-- XTAL_QUALIFY (R556): The crystal shows 64 good cycles and AON moves to it.
   ∀ tRow sRow s, arrive tRow sRow = s →
     becomes (.xtalQualify tRow) tRow sRow (setRcp (fun r => { r with xtal := true }) s)) ∧
  (-- XTAL_FAIL (R558): The crystal fails or does not qualify and AON runs on the RC.
   ∀ tRow sRow s, arrive tRow sRow = s →
     becomes (.xtalFail tRow) tRow sRow (rset (rcpBase + 4) 0 (setRcp (fun r => { r with xtal := false }) s))) ∧
  (-- DEFERRAL_END (R570): The flash reports ready, the eFuse pulse ends or 5 ms pass, and reset entry continues.
   ∀ tRow sRow s, arrive tRow sRow = s →
     let held := deferOf s true <|> deferOf s false
     (held = none →
       becomes (.deferralEnd tRow) tRow sRow s) ∧
     (∀ d, held = some d →
       let late := decide (d.since + 5 * ms ≤ s.now)
       (d.flash ∧ ! d.flashDone →
         (late → becomes (.deferralEnd tRow) tRow sRow ([true, false].foldl (deferStep true true s.now) s)) ∧
         (¬ (late) →
           (! clockGood s 0 → becomes (.deferralEnd tRow) tRow sRow s) ∧
           (clockGood s 0 →
             ((deferOf s true).isSome → becomes (.deferralEnd tRow) tRow sRow (flashReady true (nvsWriteComplete true false s))) ∧
             ((deferOf s true).isNone → becomes (.deferralEnd tRow) tRow sRow (deferStep true false s.now s false))))) ∧
       (¬ (d.flash ∧ ! d.flashDone) →
         (∀ f, s.nvs.fuse = some f →
           (f.at_ + 10 * us ≤ s.now →
             becomes (.deferralEnd tRow) tRow sRow (efusePulse (decide ((takeNat s).1 % 2 = 0)) (takeNat s).2)) ∧
           (¬ (f.at_ + 10 * us ≤ s.now) → becomes (.deferralEnd tRow) tRow sRow s)) ∧
         (s.nvs.fuse = none →
           becomes (.deferralEnd tRow) tRow sRow s)))) ∧
  (-- RESET_RELEASE (R575): Every overlapping source is released and the release sequence of the widest reach runs.
   ∀ tRow sRow s, arrive tRow sRow = s →
     (∀ r, s.rcp.rst = some r →
       (0 < r.entered ∧ r.level.isEmpty ∧ r.defer.isNone ∧ r.freeAt ≤ s.now ∧ s.rcp.ref ∧ s.rcp.lock % 128 = 127 ∧ s.rcp.good % 128 = 127 →
         becomes (.resetRelease tRow) tRow sRow (setRst (fun r => { r with released := true }) (if 2 ≤ r.entered then senseFuses s else s))) ∧
       (¬ (0 < r.entered ∧ r.level.isEmpty ∧ r.defer.isNone ∧ r.freeAt ≤ s.now ∧ s.rcp.ref ∧ s.rcp.lock % 128 = 127 ∧ s.rcp.good % 128 = 127) →
         becomes (.resetRelease tRow) tRow sRow s)) ∧
     (s.rcp.rst = none →
       becomes (.resetRelease tRow) tRow sRow s)) ∧
  (-- BLOCK_RESET (R584): A wrapper isolates its block and holds it in reset.
   ∀ tRow (w : Nat) sRow s, arrive tRow sRow = s →
     becomes (.blockReset tRow w) tRow sRow (blockReset nvsDrop w s)) ∧
  (-- BLOCK_RELEASE (R578): A Block reset is released and the block restores its configuration.
   ∀ tRow (w : Nat) sRow s, arrive tRow sRow = s →
     (∀ x, tabGet s.rcp.wraps w = some x →
       (x.stage = 1 ∧ ! x.level ∧ ! x.clock ∧ clockGood s (wrapDomain w) ∧ x.at_ + wrapHold s w ≤ s.now →
         becomes (.blockRelease tRow w) tRow sRow (setWrap w { x with stage := 2 } s)) ∧
       (¬ (x.stage = 1 ∧ ! x.level ∧ ! x.clock ∧ clockGood s (wrapDomain w) ∧ x.at_ + wrapHold s w ≤ s.now) →
         becomes (.blockRelease tRow w) tRow sRow s)) ∧
     (tabGet s.rcp.wraps w = none →
       becomes (.blockRelease tRow w) tRow sRow s)) ∧
  (-- WRAPPER_OPEN (R578): The block's restore completes and its wrapper opens.
   ∀ tRow (w : Nat) sRow s, arrive tRow sRow = s →
     (∀ x, tabGet s.rcp.wraps w = some x →
       (x.stage ≠ 2 ∨ x.level ∨ x.clock → becomes (.wrapperOpen tRow w) tRow sRow s) ∧
       (¬ (x.stage ≠ 2 ∨ x.level ∨ x.clock) →
         let s := setRcp (fun r => { r with wraps := tabDel r.wraps w }) s
         (w < 16 →
           (∀ c, tabGet s.cfg.ports w = some c →
             (runningState s.dev.state →
               becomes (.wrapperOpen tRow w) tRow sRow (startBring w .reset c.rate c.fec c.lanes (causing x.cause (setLink w 1 stOk none) s))) ∧
             (¬ (runningState s.dev.state) → becomes (.wrapperOpen tRow w) tRow sRow s)) ∧
           (tabGet s.cfg.ports w = none →
             becomes (.wrapperOpen tRow w) tRow sRow s)) ∧
         (¬ (w < 16) →
           (w < 32 →
             let s := rset elxBase (w - 16) s
             (runningState s.dev.state ∧ bit (bandMask s) (w - 16) → becomes (.wrapperOpen tRow w) tRow sRow (rset elxBase w s)) ∧
             (¬ (runningState s.dev.state ∧ bit (bandMask s) (w - 16)) → becomes (.wrapperOpen tRow w) tRow sRow s)) ∧
           (¬ (w < 32) →
             (w = 32 →
               becomes (.wrapperOpen tRow w) tRow sRow (enterLines (setFep (fun f => { f with bank := s.cfg.banks }) s))) ∧
             (w ≠ 32 →
               (w = 37 → becomes (.wrapperOpen tRow w) tRow sRow ((if s.tmu.source = 0 then s else setTmuState 1 s))) ∧
               (w ≠ 37 →
                 (w = 43 → becomes (.wrapperOpen tRow w) tRow sRow (nvsKick s)) ∧
                 (w ≠ 43 → becomes (.wrapperOpen tRow w) tRow sRow s))))))) ∧
     (tabGet s.rcp.wraps w = none →
       becomes (.wrapperOpen tRow w) tRow sRow s)) ∧
  (-- SLEEP_WAKE (R49): A wake cause ends SLEEP and the device returns to STANDBY.
   ∀ tRow sRow s, arrive tRow sRow = s →
     let held := s.dev.posted
     let s := sleepWake s
     becomes (.sleepWake tRow) tRow sRow (held.foldl (fun s e => barWrite e.1 e.2.1 e.2.2 s) { s with dev := { s.dev with posted := [] } }))

/-- What each row about BAR0 register writes and the time snapshot does where its hypotheses hold (15_reset_and_clocks.md). -/
def Obligations.RegisterWritesComplete : Prop :=
  (-- TMU_SNAP_COMPLETE (R247): The TMU snapshot completes and VALID is set.
   ∀ tRow (link : Nat) sRow s, reaches tRow [37] sRow s →
     (tabGet s.tmu.snap link = none →
       becomes (.tmuSnapComplete tRow link) tRow sRow s) ∧
     (∀ a, tabGet s.tmu.snap link = some a →
       let b := tmuBase + 0x1000 + link * 0x100
       let n := a / 2 ^ 32
       let sec := n / 1000000000 % 2 ^ 48
       let s := setTmu (fun x => { x with snap := tabDel x.snap link }) s
       becomes (.tmuSnapComplete tRow link) tRow sRow (rput (b + 0x10) (sec / 2 ^ 32) (rput (b + 0xC) sec (rput (b + 8) (n % 1000000000) (rput (b + 4) (a % 2 ^ 32 / 2 ^ 16 + 2 ^ 31) s)))))) ∧
  (-- REGISTER_WRITE (R23): A BAR0 write to a register without behaviour of its own sets, clears or ignores fields by access type.
   ∀ t0 (link addr value : Nat) s0 s, linked t0 s0 s → addr % 4 = 0 → shut s addr = false → value < 2 ^ 32 →
     becomes (.registerWrite t0 link addr value) t0 s0 (regAct addr ⟨false, link, value, value⟩ s)) ∧
  (-- OWN_CLAIM_GO (R104): Submits a CLAIM on behalf of a session through OWN_CLAIM.
   ∀ t0 (link value : Nat) s0 s, linked t0 s0 s → s.dev.state ≠ .boot → (sess s (value % 2048)).isSome →
     let s := rfield (devBase + 0x14) 0 11 (value % 2048) s
     (∀ e, claimFor (value % 2048) 2000 s = some e → becomes (.ownClaimGo t0 link value) t0 s0 (rfield (devBase + 0x14) 28 3 2 e)) ∧
     (claimFor (value % 2048) 2000 s = none → becomes (.ownClaimGo t0 link value) t0 s0 (rfield (devBase + 0x14) 28 3 3 s))) ∧
  (-- HQ_SUBMIT_TAIL_WRITE (R62): Host doorbell that lets the device fetch submission entries of a pair.
   ∀ t0 (link pair value : Nat) s0 s, linked t0 s0 s → link < 4 → pair < 64 → value < 4096 → ∀ q, qpair s link pair = some q → value < q.entries →
     becomes (.hqSubmitTailWrite t0 link link pair value) t0 s0 (setDev (fun d => { d with pairs := tabPut d.pairs (pairKey link pair) { q with sqTail := value } }) s)) ∧
  (-- HQ_DONE_HEAD_WRITE (R62): Host releases completion slots of a pair.
   ∀ t0 (link pair value : Nat) s0 s, linked t0 s0 s → link < 4 → pair < 64 → value < 4096 → ∀ q, qpair s link pair = some q → value < q.entries →
     let n := (value + q.entries - q.doneHead) % q.entries
     becomes (.hqDoneHeadWrite t0 link link pair value) t0 s0 (dropClosed link pair (flushPair link pair
       (setDev (fun d => { d with pairs := tabPut d.pairs (pairKey link pair) { q with doneHead := value, used := q.used - n } }) s)))) ∧
  (-- HQ_ADMIN_SIZE_WRITE (R109): Sets or disables pair 0's ring size, restarting the pair.
   ∀ t0 (link value : Nat) s0 s, linked t0 s0 s → link < 4 → value < 8192 → s.dev.owner = none →
     (value = 0 → becomes (.hqAdminSizeWrite t0 link link value) t0 s0
       (setDev (fun d => { d with pairs := tabDel d.pairs (pairKey link 0) }) (rput (0x1008 + link * 0x1000) 0 s))) ∧
     (0 < value →
       let n := ringSize value
       let base := rget (0x1000 + link * 0x1000) s + rget (0x1004 + link * 0x1000) s * 2 ^ 32
       becomes (.hqAdminSizeWrite t0 link link value) t0 s0 (setDev (fun d => { d with pairs := tabPut d.pairs (pairKey link 0) { entries := n, sq := base, cq := base + 32 * n, area := base + 48 * n } }) (rput (0x1008 + link * 0x1000) n s)))) ∧
  (-- CNT_CLEAR (R162): Sets every counter of a camera port to 0.
   ∀ t0 (port value : Nat) s0 s, linked t0 s0 s → port < 16 → present 16 port s → wrapClosed port s = false → s.dev.owner = none → value < 2 ^ 32 → bit value 0 →
     becomes (.cntClear t0 port value) t0 s0 (rclear (cptBase port + 0x40) (cptBase port + 0x6C) s)) ∧
  (-- FEP_CNT_CLEAR (R203): Sets every front-end counter to 0.
   ∀ t0 (value : Nat) s0 s, linked t0 s0 s → wrapClosed 32 s = false → s.dev.owner = none → value < 2 ^ 32 → bit value 0 →
     becomes (.fepCntClear t0 value) t0 s0 (fepCntClear s)) ∧
  (-- ELX_CNT_CLEAR (R287): Sets every ELX and LMU counter to 0.
   ∀ t0 (value : Nat) s0 s, linked t0 s0 s → s.dev.owner = none → value < 2 ^ 32 → bit value 0 →
     becomes (.elxCntClear t0 value) t0 s0 (elxCntClear s)) ∧
  (-- MRK_CNT_CLEAR (R387): Sets every marking counter to 0.
   ∀ t0 (value : Nat) s0 s, linked t0 s0 s → wrapClosed 39 s = false → s.dev.owner = none → value < 2 ^ 32 → bit value 0 →
     becomes (.mrkCntClear t0 value) t0 s0 (mrkCntClear s)) ∧
  (-- CLP_CNT_CLEAR (R420): Sets every colour pipeline counter to 0.
   ∀ t0 (value : Nat) s0 s, linked t0 s0 s → wrapClosed 33 s = false → s.dev.owner = none → value < 2 ^ 32 → bit value 0 →
     becomes (.clpCntClear t0 value) t0 s0 (clpCntClear s)) ∧
  (-- VCU_CNT_CLEAR (R449): Sets every HEVC counter to 0.
   ∀ t0 (value : Nat) s0 s, linked t0 s0 s → wrapClosed 34 s = false → s.dev.owner = none → value < 2 ^ 32 → bit value 0 →
     becomes (.vcuCntClear t0 value) t0 s0 (vcuCntClear s)) ∧
  (-- TBC_CNT_CLEAR (R486): Sets every Tombac counter to 0.
   ∀ t0 (value : Nat) s0 s, linked t0 s0 s → wrapClosed 35 s = false → s.dev.owner = none → value < 2 ^ 32 → bit value 0 →
     becomes (.tbcCntClear t0 value) t0 s0 (tbcCntClear s)) ∧
  (-- EVR_CNT_CLEAR (R503): Sets every event router counter to 0.
   ∀ t0 (value : Nat) s0 s, linked t0 s0 s → wrapClosed 36 s = false → s.dev.owner = none → value < 2 ^ 32 → bit value 0 →
     becomes (.evrCntClear t0 value) t0 s0 (evrCntClear s)) ∧
  (-- DMA_CNT_CLEAR (R548): Sets every DMA counter to 0.
   ∀ t0 (value : Nat) s0 s, linked t0 s0 s → wrapClosed 40 s = false → s.dev.owner = none → value < 2 ^ 32 → bit value 0 →
     becomes (.dmaCntClear t0 value) t0 s0 (dmaCntClear s)) ∧
  (-- DMC_CNT_CLEAR (R547): Sets every DRAM counter to 0.
   ∀ t0 (value : Nat) s0 s, linked t0 s0 s → s.dev.owner = none → value < 2 ^ 32 → bit value 0 →
     becomes (.dmcCntClear t0 value) t0 s0 (dmcCntClear s)) ∧
  (-- RCP_CNT_CLEAR (R587): Sets every reset counter to 0.
   ∀ t0 (value : Nat) s0 s, linked t0 s0 s → s.dev.owner = none → value < 2 ^ 32 → bit value 0 →
     becomes (.rcpCntClear t0 value) t0 s0 (rcpCntClear s)) ∧
  (-- MON_CNT_CLEAR (R649): Sets every monitor counter to 0.
   ∀ t0 (value : Nat) s0 s, linked t0 s0 s → s.dev.owner = none → value < 2 ^ 32 → bit value 0 →
     becomes (.monCntClear t0 value) t0 s0 (monCntClear s)) ∧
  (-- NVS_CNT_CLEAR (R617): Sets every store counter to 0.
   ∀ t0 (value : Nat) s0 s, linked t0 s0 s → wrapClosed 43 s = false → s.dev.owner = none → value < 2 ^ 32 → bit value 0 →
     becomes (.nvsCntClear t0 value) t0 s0 (rput (nvsBase + 0x40) 0 s)) ∧
  (-- TMU_SNAP_GO (R248): Takes a snapshot of time through a link's window.
   ∀ t0 (link : Nat) s0 s, linked t0 s0 s → link < 4 → wrapClosed 37 s = false → becomes (.tmuSnapGo t0 link link) t0 s0 (tmuSnapGo link s)) ∧
  (-- POS_SNAP_GO (R231): Takes a snapshot of every axis through a link's window.
   ∀ t0 (link : Nat) s0 s, linked t0 s0 s → link < 4 → wrapClosed 38 s = false → becomes (.posSnapGo t0 link link) t0 s0 (posSnapGo link s)) ∧
  (-- RES_MIR_HEAD_WRITE (R332): The host releases slots of a result mirror.
   ∀ t0 (link queue value : Nat) s0 s sid x m, linked t0 s0 s → link < 4 → queue < 64 → value < 2 ^ 24 → wrapClosed 41 s = false →
     ((subsOf s queue).find? fun e => match e.2.mirror with | some m => m.link == link | none => false) = some (sid, x) → x.mirror = some m →
     let n := (value + m.slots - m.head) % m.slots
     value < m.slots → n ≤ m.used.length →
     let freed := (List.range n).foldl (fun s i => serviceWr link (m.addr + 128 * ((m.head + i) % m.slots) + 124) [0, 0, 0, 0] s) s
     let r := match (m.used.take n).getLast? with | some e => e + 1 | none => x.r
     becomes (.resMirHeadWrite t0 link queue value link) t0 s0
       (pump queue (setSub sid queue (fun y => { y with r := max y.r r, mirror := some { m with head := value, used := m.used.drop n } }) freed) sid)) ∧
  (-- CLP_HOST_HEAD_WRITE (R413): The host releases slots of a head's host ring.
   ∀ t0 (head value : Nat) s0 s r, linked t0 s0 s → head < 4 → value < 4096 → wrapClosed 33 s = false → tabGet s.cfg.rings head = some r →
     let n := (value + r.slots - (chead s head).head % r.slots) % r.slots
     value < r.slots → n ≤ (chead s head).used →
     becomes (.clpHostHeadWrite t0 head value r.link) t0 s0 (setCHead head (fun x => { x with head := value, used := x.used - n }) s)) ∧
  (-- VCU_HOST_HEAD_WRITE (R450): The host releases slots of a codec context's host ring.
   ∀ t0 (ctx value : Nat) s0 s c, linked t0 s0 s → (vout s ctx).link < 4 → ctx < 64 → value < 2 ^ 24 → wrapClosed 34 s = false → tabGet s.cfg.vctx ctx = some c →
     let size := if c.kind = 3 then (vout s ctx).size else if (vout s ctx).mirror = 1 then (vout s ctx).size / 64 else 0
     let n := (value + size - (vctx s ctx).head) % max 1 size
     value < size → n ≤ (vctx s ctx).used →
     becomes (.vcuHostHeadWrite t0 (vout s ctx).link ctx value (vout s ctx).link) t0 s0
       (vcuRun (flushSlots ctx (vctx s ctx).outq.length (setVctx ctx (fun x => { x with head := value, used := x.used - n }) s)))) ∧
  (-- TBC_HOST_HEAD_WRITE (R473): The host releases slots of a Tombac head's host ring.
   ∀ t0 (head value : Nat) s0 s, linked t0 s0 s → (tbcHeadCfg s head).link < 4 → head < 4 → value < 2 ^ 24 → wrapClosed 35 s = false → (tbcHeadCfg s head).mirror = 1 →
     let size := (tbcHeadCfg s head).bytes / 64
     let n := (value + size - (thead s head).head) % max 1 size
     value < size → n ≤ (thead s head).used →
     becomes (.tbcHostHeadWrite t0 (tbcHeadCfg s head).link head value (tbcHeadCfg s head).link) t0 s0 (setTHead head (fun x => { x with head := value, used := x.used - n }) s)) ∧
  (-- EVR_SW_FIRE (R502): Publishes an event on a channel on behalf of software.
   ∀ t0 (value : Nat) s0 s, linked t0 s0 s → wrapClosed 36 s = false → s.dev.owner = none → value < 2 ^ 32 → bit value 31 →
     becomes (.evrSwFire t0 value) t0 s0 (setEvr (fun e => { e with emits := e.emits ++ [⟨sysCycle s + 1, 65536 + value % 256, none⟩] }) s)) ∧
  (-- DMA_DOORBELL (R538): Starts a DMA channel or releases its waiting descriptor.
   ∀ t0 (value : Nat) s0 s, linked t0 s0 s → wrapClosed 40 s = false → s.dev.owner = none → value < 2 ^ 32 → bit value 31 →
     ((dmaStart (value % 64) none s).1 = true → becomes (.dmaDoorbell t0 value) t0 s0 (dmaStart (value % 64) none s).2) ∧
     ((dmaStart (value % 64) none s).1 = false → becomes (.dmaDoorbell t0 value) t0 s0 (rset (dmaBase + 0x10) 2 (dmaStart (value % 64) none s).2))) ∧
  (-- SW_BLOCK_RESET (R561): Asserts a Block reset of one wrapper.
   ∀ t0 (value : Nat) s0 s, linked t0 s0 s → s.dev.owner = none → value < 2 ^ 32 → bit value 31 → bits value 9 8 = 0 →
     becomes (.swBlockReset t0 value) t0 s0 (assertBlock (value % 64) causeSwBlock false false s)) ∧
  (-- SW_SYSTEM_RESET (R561): Asserts a System reset, which keeps DRAM where KEEP_DRAM is written.
   ∀ t0 (value : Nat) s0 s, linked t0 s0 s → s.dev.owner = none → value < 2 ^ 32 → bit value 31 → bits value 9 8 = 1 →
     becomes (.swSystemReset t0 value) t0 s0 (assertSource causeSwSystem 1 (bit value 10) true none s)) ∧
  (-- SW_CHIP_RESET (R561): Asserts a Chip reset.
   ∀ t0 (value : Nat) s0 s, linked t0 s0 s → s.dev.owner = none → value < 2 ^ 32 → bit value 31 → bits value 9 8 = 2 →
     becomes (.swChipReset t0 value) t0 s0 (assertSource causeSwChip 2 false true none s))
end

