-- ==== Sys2Proof/Laws/State.lean ====
section
/-! SUPPORT. Sys2Proof/Laws/State.lean: one lemma per field of the state and update, true by unfolding. -/

namespace Sys2Proof.Machine

/-! ## setDev -/

@[simp] theorem setDev_now (f : Dev → Dev) (s : State) : (setDev f s).now = s.now := rfl
@[simp] theorem setDev_free (f : Dev → Dev) (s : State) : (setDev f s).free = s.free := rfl
@[simp] theorem setDev_dev (f : Dev → Dev) (s : State) : (setDev f s).dev = f s.dev := rfl
@[simp] theorem setDev_cfg (f : Dev → Dev) (s : State) : (setDev f s).cfg = s.cfg := rfl
@[simp] theorem setDev_regs (f : Dev → Dev) (s : State) : (setDev f s).regs = s.regs := rfl
@[simp] theorem setDev_limits (f : Dev → Dev) (s : State) : (setDev f s).limits = s.limits := rfl
@[simp] theorem setDev_lnk (f : Dev → Dev) (s : State) : (setDev f s).lnk = s.lnk := rfl
@[simp] theorem setDev_fep (f : Dev → Dev) (s : State) : (setDev f s).fep = s.fep := rfl
@[simp] theorem setDev_pos (f : Dev → Dev) (s : State) : (setDev f s).pos = s.pos := rfl
@[simp] theorem setDev_tmu (f : Dev → Dev) (s : State) : (setDev f s).tmu = s.tmu := rfl
@[simp] theorem setDev_evr (f : Dev → Dev) (s : State) : (setDev f s).evr = s.evr := rfl
@[simp] theorem setDev_elx (f : Dev → Dev) (s : State) : (setDev f s).elx = s.elx := rfl
@[simp] theorem setDev_models (f : Dev → Dev) (s : State) : (setDev f s).models = s.models := rfl
@[simp] theorem setDev_res (f : Dev → Dev) (s : State) : (setDev f s).res = s.res := rfl
@[simp] theorem setDev_mrk (f : Dev → Dev) (s : State) : (setDev f s).mrk = s.mrk := rfl
@[simp] theorem setDev_clp (f : Dev → Dev) (s : State) : (setDev f s).clp = s.clp := rfl
@[simp] theorem setDev_vcu (f : Dev → Dev) (s : State) : (setDev f s).vcu = s.vcu := rfl
@[simp] theorem setDev_tbc (f : Dev → Dev) (s : State) : (setDev f s).tbc = s.tbc := rfl
@[simp] theorem setDev_dmc (f : Dev → Dev) (s : State) : (setDev f s).dmc = s.dmc := rfl
@[simp] theorem setDev_dma (f : Dev → Dev) (s : State) : (setDev f s).dma = s.dma := rfl
@[simp] theorem setDev_rcp (f : Dev → Dev) (s : State) : (setDev f s).rcp = s.rcp := rfl
@[simp] theorem setDev_nvs (f : Dev → Dev) (s : State) : (setDev f s).nvs = s.nvs := rfl
@[simp] theorem setDev_mon (f : Dev → Dev) (s : State) : (setDev f s).mon = s.mon := rfl
@[simp] theorem setDev_out (f : Dev → Dev) (s : State) : (setDev f s).out = s.out := rfl
@[simp] theorem setDev_pending (f : Dev → Dev) (s : State) : (setDev f s).pending = s.pending := rfl

/-! ## setCfg -/

@[simp] theorem setCfg_now (f : Cfg → Cfg) (s : State) : (setCfg f s).now = s.now := rfl
@[simp] theorem setCfg_free (f : Cfg → Cfg) (s : State) : (setCfg f s).free = s.free := rfl
@[simp] theorem setCfg_dev (f : Cfg → Cfg) (s : State) : (setCfg f s).dev = s.dev := rfl
@[simp] theorem setCfg_cfg (f : Cfg → Cfg) (s : State) : (setCfg f s).cfg = f s.cfg := rfl
@[simp] theorem setCfg_regs (f : Cfg → Cfg) (s : State) : (setCfg f s).regs = s.regs := rfl
@[simp] theorem setCfg_limits (f : Cfg → Cfg) (s : State) : (setCfg f s).limits = s.limits := rfl
@[simp] theorem setCfg_lnk (f : Cfg → Cfg) (s : State) : (setCfg f s).lnk = s.lnk := rfl
@[simp] theorem setCfg_fep (f : Cfg → Cfg) (s : State) : (setCfg f s).fep = s.fep := rfl
@[simp] theorem setCfg_pos (f : Cfg → Cfg) (s : State) : (setCfg f s).pos = s.pos := rfl
@[simp] theorem setCfg_tmu (f : Cfg → Cfg) (s : State) : (setCfg f s).tmu = s.tmu := rfl
@[simp] theorem setCfg_evr (f : Cfg → Cfg) (s : State) : (setCfg f s).evr = s.evr := rfl
@[simp] theorem setCfg_elx (f : Cfg → Cfg) (s : State) : (setCfg f s).elx = s.elx := rfl
@[simp] theorem setCfg_models (f : Cfg → Cfg) (s : State) : (setCfg f s).models = s.models := rfl
@[simp] theorem setCfg_res (f : Cfg → Cfg) (s : State) : (setCfg f s).res = s.res := rfl
@[simp] theorem setCfg_mrk (f : Cfg → Cfg) (s : State) : (setCfg f s).mrk = s.mrk := rfl
@[simp] theorem setCfg_clp (f : Cfg → Cfg) (s : State) : (setCfg f s).clp = s.clp := rfl
@[simp] theorem setCfg_vcu (f : Cfg → Cfg) (s : State) : (setCfg f s).vcu = s.vcu := rfl
@[simp] theorem setCfg_tbc (f : Cfg → Cfg) (s : State) : (setCfg f s).tbc = s.tbc := rfl
@[simp] theorem setCfg_dmc (f : Cfg → Cfg) (s : State) : (setCfg f s).dmc = s.dmc := rfl
@[simp] theorem setCfg_dma (f : Cfg → Cfg) (s : State) : (setCfg f s).dma = s.dma := rfl
@[simp] theorem setCfg_rcp (f : Cfg → Cfg) (s : State) : (setCfg f s).rcp = s.rcp := rfl
@[simp] theorem setCfg_nvs (f : Cfg → Cfg) (s : State) : (setCfg f s).nvs = s.nvs := rfl
@[simp] theorem setCfg_mon (f : Cfg → Cfg) (s : State) : (setCfg f s).mon = s.mon := rfl
@[simp] theorem setCfg_out (f : Cfg → Cfg) (s : State) : (setCfg f s).out = s.out := rfl
@[simp] theorem setCfg_pending (f : Cfg → Cfg) (s : State) : (setCfg f s).pending = s.pending := rfl

/-! ## setFep -/

@[simp] theorem setFep_now (f : Fep → Fep) (s : State) : (setFep f s).now = s.now := rfl
@[simp] theorem setFep_free (f : Fep → Fep) (s : State) : (setFep f s).free = s.free := rfl
@[simp] theorem setFep_dev (f : Fep → Fep) (s : State) : (setFep f s).dev = s.dev := rfl
@[simp] theorem setFep_cfg (f : Fep → Fep) (s : State) : (setFep f s).cfg = s.cfg := rfl
@[simp] theorem setFep_regs (f : Fep → Fep) (s : State) : (setFep f s).regs = s.regs := rfl
@[simp] theorem setFep_limits (f : Fep → Fep) (s : State) : (setFep f s).limits = s.limits := rfl
@[simp] theorem setFep_lnk (f : Fep → Fep) (s : State) : (setFep f s).lnk = s.lnk := rfl
@[simp] theorem setFep_fep (f : Fep → Fep) (s : State) : (setFep f s).fep = f s.fep := rfl
@[simp] theorem setFep_pos (f : Fep → Fep) (s : State) : (setFep f s).pos = s.pos := rfl
@[simp] theorem setFep_tmu (f : Fep → Fep) (s : State) : (setFep f s).tmu = s.tmu := rfl
@[simp] theorem setFep_evr (f : Fep → Fep) (s : State) : (setFep f s).evr = s.evr := rfl
@[simp] theorem setFep_elx (f : Fep → Fep) (s : State) : (setFep f s).elx = s.elx := rfl
@[simp] theorem setFep_models (f : Fep → Fep) (s : State) : (setFep f s).models = s.models := rfl
@[simp] theorem setFep_res (f : Fep → Fep) (s : State) : (setFep f s).res = s.res := rfl
@[simp] theorem setFep_mrk (f : Fep → Fep) (s : State) : (setFep f s).mrk = s.mrk := rfl
@[simp] theorem setFep_clp (f : Fep → Fep) (s : State) : (setFep f s).clp = s.clp := rfl
@[simp] theorem setFep_vcu (f : Fep → Fep) (s : State) : (setFep f s).vcu = s.vcu := rfl
@[simp] theorem setFep_tbc (f : Fep → Fep) (s : State) : (setFep f s).tbc = s.tbc := rfl
@[simp] theorem setFep_dmc (f : Fep → Fep) (s : State) : (setFep f s).dmc = s.dmc := rfl
@[simp] theorem setFep_dma (f : Fep → Fep) (s : State) : (setFep f s).dma = s.dma := rfl
@[simp] theorem setFep_rcp (f : Fep → Fep) (s : State) : (setFep f s).rcp = s.rcp := rfl
@[simp] theorem setFep_nvs (f : Fep → Fep) (s : State) : (setFep f s).nvs = s.nvs := rfl
@[simp] theorem setFep_mon (f : Fep → Fep) (s : State) : (setFep f s).mon = s.mon := rfl
@[simp] theorem setFep_out (f : Fep → Fep) (s : State) : (setFep f s).out = s.out := rfl
@[simp] theorem setFep_pending (f : Fep → Fep) (s : State) : (setFep f s).pending = s.pending := rfl

/-! ## setTmu -/

@[simp] theorem setTmu_now (f : Tmu → Tmu) (s : State) : (setTmu f s).now = s.now := rfl
@[simp] theorem setTmu_free (f : Tmu → Tmu) (s : State) : (setTmu f s).free = s.free := rfl
@[simp] theorem setTmu_dev (f : Tmu → Tmu) (s : State) : (setTmu f s).dev = s.dev := rfl
@[simp] theorem setTmu_cfg (f : Tmu → Tmu) (s : State) : (setTmu f s).cfg = s.cfg := rfl
@[simp] theorem setTmu_regs (f : Tmu → Tmu) (s : State) : (setTmu f s).regs = s.regs := rfl
@[simp] theorem setTmu_limits (f : Tmu → Tmu) (s : State) : (setTmu f s).limits = s.limits := rfl
@[simp] theorem setTmu_lnk (f : Tmu → Tmu) (s : State) : (setTmu f s).lnk = s.lnk := rfl
@[simp] theorem setTmu_fep (f : Tmu → Tmu) (s : State) : (setTmu f s).fep = s.fep := rfl
@[simp] theorem setTmu_pos (f : Tmu → Tmu) (s : State) : (setTmu f s).pos = s.pos := rfl
@[simp] theorem setTmu_tmu (f : Tmu → Tmu) (s : State) : (setTmu f s).tmu = f s.tmu := rfl
@[simp] theorem setTmu_evr (f : Tmu → Tmu) (s : State) : (setTmu f s).evr = s.evr := rfl
@[simp] theorem setTmu_elx (f : Tmu → Tmu) (s : State) : (setTmu f s).elx = s.elx := rfl
@[simp] theorem setTmu_models (f : Tmu → Tmu) (s : State) : (setTmu f s).models = s.models := rfl
@[simp] theorem setTmu_res (f : Tmu → Tmu) (s : State) : (setTmu f s).res = s.res := rfl
@[simp] theorem setTmu_mrk (f : Tmu → Tmu) (s : State) : (setTmu f s).mrk = s.mrk := rfl
@[simp] theorem setTmu_clp (f : Tmu → Tmu) (s : State) : (setTmu f s).clp = s.clp := rfl
@[simp] theorem setTmu_vcu (f : Tmu → Tmu) (s : State) : (setTmu f s).vcu = s.vcu := rfl
@[simp] theorem setTmu_tbc (f : Tmu → Tmu) (s : State) : (setTmu f s).tbc = s.tbc := rfl
@[simp] theorem setTmu_dmc (f : Tmu → Tmu) (s : State) : (setTmu f s).dmc = s.dmc := rfl
@[simp] theorem setTmu_dma (f : Tmu → Tmu) (s : State) : (setTmu f s).dma = s.dma := rfl
@[simp] theorem setTmu_rcp (f : Tmu → Tmu) (s : State) : (setTmu f s).rcp = s.rcp := rfl
@[simp] theorem setTmu_nvs (f : Tmu → Tmu) (s : State) : (setTmu f s).nvs = s.nvs := rfl
@[simp] theorem setTmu_mon (f : Tmu → Tmu) (s : State) : (setTmu f s).mon = s.mon := rfl
@[simp] theorem setTmu_out (f : Tmu → Tmu) (s : State) : (setTmu f s).out = s.out := rfl
@[simp] theorem setTmu_pending (f : Tmu → Tmu) (s : State) : (setTmu f s).pending = s.pending := rfl

/-! ## setEvr -/

@[simp] theorem setEvr_now (f : Evr → Evr) (s : State) : (setEvr f s).now = s.now := rfl
@[simp] theorem setEvr_free (f : Evr → Evr) (s : State) : (setEvr f s).free = s.free := rfl
@[simp] theorem setEvr_dev (f : Evr → Evr) (s : State) : (setEvr f s).dev = s.dev := rfl
@[simp] theorem setEvr_cfg (f : Evr → Evr) (s : State) : (setEvr f s).cfg = s.cfg := rfl
@[simp] theorem setEvr_regs (f : Evr → Evr) (s : State) : (setEvr f s).regs = s.regs := rfl
@[simp] theorem setEvr_limits (f : Evr → Evr) (s : State) : (setEvr f s).limits = s.limits := rfl
@[simp] theorem setEvr_lnk (f : Evr → Evr) (s : State) : (setEvr f s).lnk = s.lnk := rfl
@[simp] theorem setEvr_fep (f : Evr → Evr) (s : State) : (setEvr f s).fep = s.fep := rfl
@[simp] theorem setEvr_pos (f : Evr → Evr) (s : State) : (setEvr f s).pos = s.pos := rfl
@[simp] theorem setEvr_tmu (f : Evr → Evr) (s : State) : (setEvr f s).tmu = s.tmu := rfl
@[simp] theorem setEvr_evr (f : Evr → Evr) (s : State) : (setEvr f s).evr = f s.evr := rfl
@[simp] theorem setEvr_elx (f : Evr → Evr) (s : State) : (setEvr f s).elx = s.elx := rfl
@[simp] theorem setEvr_models (f : Evr → Evr) (s : State) : (setEvr f s).models = s.models := rfl
@[simp] theorem setEvr_res (f : Evr → Evr) (s : State) : (setEvr f s).res = s.res := rfl
@[simp] theorem setEvr_mrk (f : Evr → Evr) (s : State) : (setEvr f s).mrk = s.mrk := rfl
@[simp] theorem setEvr_clp (f : Evr → Evr) (s : State) : (setEvr f s).clp = s.clp := rfl
@[simp] theorem setEvr_vcu (f : Evr → Evr) (s : State) : (setEvr f s).vcu = s.vcu := rfl
@[simp] theorem setEvr_tbc (f : Evr → Evr) (s : State) : (setEvr f s).tbc = s.tbc := rfl
@[simp] theorem setEvr_dmc (f : Evr → Evr) (s : State) : (setEvr f s).dmc = s.dmc := rfl
@[simp] theorem setEvr_dma (f : Evr → Evr) (s : State) : (setEvr f s).dma = s.dma := rfl
@[simp] theorem setEvr_rcp (f : Evr → Evr) (s : State) : (setEvr f s).rcp = s.rcp := rfl
@[simp] theorem setEvr_nvs (f : Evr → Evr) (s : State) : (setEvr f s).nvs = s.nvs := rfl
@[simp] theorem setEvr_mon (f : Evr → Evr) (s : State) : (setEvr f s).mon = s.mon := rfl
@[simp] theorem setEvr_out (f : Evr → Evr) (s : State) : (setEvr f s).out = s.out := rfl
@[simp] theorem setEvr_pending (f : Evr → Evr) (s : State) : (setEvr f s).pending = s.pending := rfl

/-! ## setElx -/

@[simp] theorem setElx_now (f : Elx → Elx) (s : State) : (setElx f s).now = s.now := rfl
@[simp] theorem setElx_free (f : Elx → Elx) (s : State) : (setElx f s).free = s.free := rfl
@[simp] theorem setElx_dev (f : Elx → Elx) (s : State) : (setElx f s).dev = s.dev := rfl
@[simp] theorem setElx_cfg (f : Elx → Elx) (s : State) : (setElx f s).cfg = s.cfg := rfl
@[simp] theorem setElx_regs (f : Elx → Elx) (s : State) : (setElx f s).regs = s.regs := rfl
@[simp] theorem setElx_limits (f : Elx → Elx) (s : State) : (setElx f s).limits = s.limits := rfl
@[simp] theorem setElx_lnk (f : Elx → Elx) (s : State) : (setElx f s).lnk = s.lnk := rfl
@[simp] theorem setElx_fep (f : Elx → Elx) (s : State) : (setElx f s).fep = s.fep := rfl
@[simp] theorem setElx_pos (f : Elx → Elx) (s : State) : (setElx f s).pos = s.pos := rfl
@[simp] theorem setElx_tmu (f : Elx → Elx) (s : State) : (setElx f s).tmu = s.tmu := rfl
@[simp] theorem setElx_evr (f : Elx → Elx) (s : State) : (setElx f s).evr = s.evr := rfl
@[simp] theorem setElx_elx (f : Elx → Elx) (s : State) : (setElx f s).elx = f s.elx := rfl
@[simp] theorem setElx_models (f : Elx → Elx) (s : State) : (setElx f s).models = s.models := rfl
@[simp] theorem setElx_res (f : Elx → Elx) (s : State) : (setElx f s).res = s.res := rfl
@[simp] theorem setElx_mrk (f : Elx → Elx) (s : State) : (setElx f s).mrk = s.mrk := rfl
@[simp] theorem setElx_clp (f : Elx → Elx) (s : State) : (setElx f s).clp = s.clp := rfl
@[simp] theorem setElx_vcu (f : Elx → Elx) (s : State) : (setElx f s).vcu = s.vcu := rfl
@[simp] theorem setElx_tbc (f : Elx → Elx) (s : State) : (setElx f s).tbc = s.tbc := rfl
@[simp] theorem setElx_dmc (f : Elx → Elx) (s : State) : (setElx f s).dmc = s.dmc := rfl
@[simp] theorem setElx_dma (f : Elx → Elx) (s : State) : (setElx f s).dma = s.dma := rfl
@[simp] theorem setElx_rcp (f : Elx → Elx) (s : State) : (setElx f s).rcp = s.rcp := rfl
@[simp] theorem setElx_nvs (f : Elx → Elx) (s : State) : (setElx f s).nvs = s.nvs := rfl
@[simp] theorem setElx_mon (f : Elx → Elx) (s : State) : (setElx f s).mon = s.mon := rfl
@[simp] theorem setElx_out (f : Elx → Elx) (s : State) : (setElx f s).out = s.out := rfl
@[simp] theorem setElx_pending (f : Elx → Elx) (s : State) : (setElx f s).pending = s.pending := rfl

/-! ## setModels -/

@[simp] theorem setModels_now (f : Models → Models) (s : State) : (setModels f s).now = s.now := rfl
@[simp] theorem setModels_free (f : Models → Models) (s : State) : (setModels f s).free = s.free := rfl
@[simp] theorem setModels_dev (f : Models → Models) (s : State) : (setModels f s).dev = s.dev := rfl
@[simp] theorem setModels_cfg (f : Models → Models) (s : State) : (setModels f s).cfg = s.cfg := rfl
@[simp] theorem setModels_regs (f : Models → Models) (s : State) : (setModels f s).regs = s.regs := rfl
@[simp] theorem setModels_limits (f : Models → Models) (s : State) : (setModels f s).limits = s.limits := rfl
@[simp] theorem setModels_lnk (f : Models → Models) (s : State) : (setModels f s).lnk = s.lnk := rfl
@[simp] theorem setModels_fep (f : Models → Models) (s : State) : (setModels f s).fep = s.fep := rfl
@[simp] theorem setModels_pos (f : Models → Models) (s : State) : (setModels f s).pos = s.pos := rfl
@[simp] theorem setModels_tmu (f : Models → Models) (s : State) : (setModels f s).tmu = s.tmu := rfl
@[simp] theorem setModels_evr (f : Models → Models) (s : State) : (setModels f s).evr = s.evr := rfl
@[simp] theorem setModels_elx (f : Models → Models) (s : State) : (setModels f s).elx = s.elx := rfl
@[simp] theorem setModels_models (f : Models → Models) (s : State) : (setModels f s).models = f s.models := rfl
@[simp] theorem setModels_res (f : Models → Models) (s : State) : (setModels f s).res = s.res := rfl
@[simp] theorem setModels_mrk (f : Models → Models) (s : State) : (setModels f s).mrk = s.mrk := rfl
@[simp] theorem setModels_clp (f : Models → Models) (s : State) : (setModels f s).clp = s.clp := rfl
@[simp] theorem setModels_vcu (f : Models → Models) (s : State) : (setModels f s).vcu = s.vcu := rfl
@[simp] theorem setModels_tbc (f : Models → Models) (s : State) : (setModels f s).tbc = s.tbc := rfl
@[simp] theorem setModels_dmc (f : Models → Models) (s : State) : (setModels f s).dmc = s.dmc := rfl
@[simp] theorem setModels_dma (f : Models → Models) (s : State) : (setModels f s).dma = s.dma := rfl
@[simp] theorem setModels_rcp (f : Models → Models) (s : State) : (setModels f s).rcp = s.rcp := rfl
@[simp] theorem setModels_nvs (f : Models → Models) (s : State) : (setModels f s).nvs = s.nvs := rfl
@[simp] theorem setModels_mon (f : Models → Models) (s : State) : (setModels f s).mon = s.mon := rfl
@[simp] theorem setModels_out (f : Models → Models) (s : State) : (setModels f s).out = s.out := rfl
@[simp] theorem setModels_pending (f : Models → Models) (s : State) : (setModels f s).pending = s.pending := rfl

/-! ## setRes -/

@[simp] theorem setRes_now (f : Res_ → Res_) (s : State) : (setRes f s).now = s.now := rfl
@[simp] theorem setRes_free (f : Res_ → Res_) (s : State) : (setRes f s).free = s.free := rfl
@[simp] theorem setRes_dev (f : Res_ → Res_) (s : State) : (setRes f s).dev = s.dev := rfl
@[simp] theorem setRes_cfg (f : Res_ → Res_) (s : State) : (setRes f s).cfg = s.cfg := rfl
@[simp] theorem setRes_regs (f : Res_ → Res_) (s : State) : (setRes f s).regs = s.regs := rfl
@[simp] theorem setRes_limits (f : Res_ → Res_) (s : State) : (setRes f s).limits = s.limits := rfl
@[simp] theorem setRes_lnk (f : Res_ → Res_) (s : State) : (setRes f s).lnk = s.lnk := rfl
@[simp] theorem setRes_fep (f : Res_ → Res_) (s : State) : (setRes f s).fep = s.fep := rfl
@[simp] theorem setRes_pos (f : Res_ → Res_) (s : State) : (setRes f s).pos = s.pos := rfl
@[simp] theorem setRes_tmu (f : Res_ → Res_) (s : State) : (setRes f s).tmu = s.tmu := rfl
@[simp] theorem setRes_evr (f : Res_ → Res_) (s : State) : (setRes f s).evr = s.evr := rfl
@[simp] theorem setRes_elx (f : Res_ → Res_) (s : State) : (setRes f s).elx = s.elx := rfl
@[simp] theorem setRes_models (f : Res_ → Res_) (s : State) : (setRes f s).models = s.models := rfl
@[simp] theorem setRes_res (f : Res_ → Res_) (s : State) : (setRes f s).res = f s.res := rfl
@[simp] theorem setRes_mrk (f : Res_ → Res_) (s : State) : (setRes f s).mrk = s.mrk := rfl
@[simp] theorem setRes_clp (f : Res_ → Res_) (s : State) : (setRes f s).clp = s.clp := rfl
@[simp] theorem setRes_vcu (f : Res_ → Res_) (s : State) : (setRes f s).vcu = s.vcu := rfl
@[simp] theorem setRes_tbc (f : Res_ → Res_) (s : State) : (setRes f s).tbc = s.tbc := rfl
@[simp] theorem setRes_dmc (f : Res_ → Res_) (s : State) : (setRes f s).dmc = s.dmc := rfl
@[simp] theorem setRes_dma (f : Res_ → Res_) (s : State) : (setRes f s).dma = s.dma := rfl
@[simp] theorem setRes_rcp (f : Res_ → Res_) (s : State) : (setRes f s).rcp = s.rcp := rfl
@[simp] theorem setRes_nvs (f : Res_ → Res_) (s : State) : (setRes f s).nvs = s.nvs := rfl
@[simp] theorem setRes_mon (f : Res_ → Res_) (s : State) : (setRes f s).mon = s.mon := rfl
@[simp] theorem setRes_out (f : Res_ → Res_) (s : State) : (setRes f s).out = s.out := rfl
@[simp] theorem setRes_pending (f : Res_ → Res_) (s : State) : (setRes f s).pending = s.pending := rfl

/-! ## setMrk -/

@[simp] theorem setMrk_now (f : Mrk → Mrk) (s : State) : (setMrk f s).now = s.now := rfl
@[simp] theorem setMrk_free (f : Mrk → Mrk) (s : State) : (setMrk f s).free = s.free := rfl
@[simp] theorem setMrk_dev (f : Mrk → Mrk) (s : State) : (setMrk f s).dev = s.dev := rfl
@[simp] theorem setMrk_cfg (f : Mrk → Mrk) (s : State) : (setMrk f s).cfg = s.cfg := rfl
@[simp] theorem setMrk_regs (f : Mrk → Mrk) (s : State) : (setMrk f s).regs = s.regs := rfl
@[simp] theorem setMrk_limits (f : Mrk → Mrk) (s : State) : (setMrk f s).limits = s.limits := rfl
@[simp] theorem setMrk_lnk (f : Mrk → Mrk) (s : State) : (setMrk f s).lnk = s.lnk := rfl
@[simp] theorem setMrk_fep (f : Mrk → Mrk) (s : State) : (setMrk f s).fep = s.fep := rfl
@[simp] theorem setMrk_pos (f : Mrk → Mrk) (s : State) : (setMrk f s).pos = s.pos := rfl
@[simp] theorem setMrk_tmu (f : Mrk → Mrk) (s : State) : (setMrk f s).tmu = s.tmu := rfl
@[simp] theorem setMrk_evr (f : Mrk → Mrk) (s : State) : (setMrk f s).evr = s.evr := rfl
@[simp] theorem setMrk_elx (f : Mrk → Mrk) (s : State) : (setMrk f s).elx = s.elx := rfl
@[simp] theorem setMrk_models (f : Mrk → Mrk) (s : State) : (setMrk f s).models = s.models := rfl
@[simp] theorem setMrk_res (f : Mrk → Mrk) (s : State) : (setMrk f s).res = s.res := rfl
@[simp] theorem setMrk_mrk (f : Mrk → Mrk) (s : State) : (setMrk f s).mrk = f s.mrk := rfl
@[simp] theorem setMrk_clp (f : Mrk → Mrk) (s : State) : (setMrk f s).clp = s.clp := rfl
@[simp] theorem setMrk_vcu (f : Mrk → Mrk) (s : State) : (setMrk f s).vcu = s.vcu := rfl
@[simp] theorem setMrk_tbc (f : Mrk → Mrk) (s : State) : (setMrk f s).tbc = s.tbc := rfl
@[simp] theorem setMrk_dmc (f : Mrk → Mrk) (s : State) : (setMrk f s).dmc = s.dmc := rfl
@[simp] theorem setMrk_dma (f : Mrk → Mrk) (s : State) : (setMrk f s).dma = s.dma := rfl
@[simp] theorem setMrk_rcp (f : Mrk → Mrk) (s : State) : (setMrk f s).rcp = s.rcp := rfl
@[simp] theorem setMrk_nvs (f : Mrk → Mrk) (s : State) : (setMrk f s).nvs = s.nvs := rfl
@[simp] theorem setMrk_mon (f : Mrk → Mrk) (s : State) : (setMrk f s).mon = s.mon := rfl
@[simp] theorem setMrk_out (f : Mrk → Mrk) (s : State) : (setMrk f s).out = s.out := rfl
@[simp] theorem setMrk_pending (f : Mrk → Mrk) (s : State) : (setMrk f s).pending = s.pending := rfl

/-! ## setClp -/

@[simp] theorem setClp_now (f : Clp → Clp) (s : State) : (setClp f s).now = s.now := rfl
@[simp] theorem setClp_free (f : Clp → Clp) (s : State) : (setClp f s).free = s.free := rfl
@[simp] theorem setClp_dev (f : Clp → Clp) (s : State) : (setClp f s).dev = s.dev := rfl
@[simp] theorem setClp_cfg (f : Clp → Clp) (s : State) : (setClp f s).cfg = s.cfg := rfl
@[simp] theorem setClp_regs (f : Clp → Clp) (s : State) : (setClp f s).regs = s.regs := rfl
@[simp] theorem setClp_limits (f : Clp → Clp) (s : State) : (setClp f s).limits = s.limits := rfl
@[simp] theorem setClp_lnk (f : Clp → Clp) (s : State) : (setClp f s).lnk = s.lnk := rfl
@[simp] theorem setClp_fep (f : Clp → Clp) (s : State) : (setClp f s).fep = s.fep := rfl
@[simp] theorem setClp_pos (f : Clp → Clp) (s : State) : (setClp f s).pos = s.pos := rfl
@[simp] theorem setClp_tmu (f : Clp → Clp) (s : State) : (setClp f s).tmu = s.tmu := rfl
@[simp] theorem setClp_evr (f : Clp → Clp) (s : State) : (setClp f s).evr = s.evr := rfl
@[simp] theorem setClp_elx (f : Clp → Clp) (s : State) : (setClp f s).elx = s.elx := rfl
@[simp] theorem setClp_models (f : Clp → Clp) (s : State) : (setClp f s).models = s.models := rfl
@[simp] theorem setClp_res (f : Clp → Clp) (s : State) : (setClp f s).res = s.res := rfl
@[simp] theorem setClp_mrk (f : Clp → Clp) (s : State) : (setClp f s).mrk = s.mrk := rfl
@[simp] theorem setClp_clp (f : Clp → Clp) (s : State) : (setClp f s).clp = f s.clp := rfl
@[simp] theorem setClp_vcu (f : Clp → Clp) (s : State) : (setClp f s).vcu = s.vcu := rfl
@[simp] theorem setClp_tbc (f : Clp → Clp) (s : State) : (setClp f s).tbc = s.tbc := rfl
@[simp] theorem setClp_dmc (f : Clp → Clp) (s : State) : (setClp f s).dmc = s.dmc := rfl
@[simp] theorem setClp_dma (f : Clp → Clp) (s : State) : (setClp f s).dma = s.dma := rfl
@[simp] theorem setClp_rcp (f : Clp → Clp) (s : State) : (setClp f s).rcp = s.rcp := rfl
@[simp] theorem setClp_nvs (f : Clp → Clp) (s : State) : (setClp f s).nvs = s.nvs := rfl
@[simp] theorem setClp_mon (f : Clp → Clp) (s : State) : (setClp f s).mon = s.mon := rfl
@[simp] theorem setClp_out (f : Clp → Clp) (s : State) : (setClp f s).out = s.out := rfl
@[simp] theorem setClp_pending (f : Clp → Clp) (s : State) : (setClp f s).pending = s.pending := rfl

/-! ## setVcu -/

@[simp] theorem setVcu_now (f : Vcu → Vcu) (s : State) : (setVcu f s).now = s.now := rfl
@[simp] theorem setVcu_free (f : Vcu → Vcu) (s : State) : (setVcu f s).free = s.free := rfl
@[simp] theorem setVcu_dev (f : Vcu → Vcu) (s : State) : (setVcu f s).dev = s.dev := rfl
@[simp] theorem setVcu_cfg (f : Vcu → Vcu) (s : State) : (setVcu f s).cfg = s.cfg := rfl
@[simp] theorem setVcu_regs (f : Vcu → Vcu) (s : State) : (setVcu f s).regs = s.regs := rfl
@[simp] theorem setVcu_limits (f : Vcu → Vcu) (s : State) : (setVcu f s).limits = s.limits := rfl
@[simp] theorem setVcu_lnk (f : Vcu → Vcu) (s : State) : (setVcu f s).lnk = s.lnk := rfl
@[simp] theorem setVcu_fep (f : Vcu → Vcu) (s : State) : (setVcu f s).fep = s.fep := rfl
@[simp] theorem setVcu_pos (f : Vcu → Vcu) (s : State) : (setVcu f s).pos = s.pos := rfl
@[simp] theorem setVcu_tmu (f : Vcu → Vcu) (s : State) : (setVcu f s).tmu = s.tmu := rfl
@[simp] theorem setVcu_evr (f : Vcu → Vcu) (s : State) : (setVcu f s).evr = s.evr := rfl
@[simp] theorem setVcu_elx (f : Vcu → Vcu) (s : State) : (setVcu f s).elx = s.elx := rfl
@[simp] theorem setVcu_models (f : Vcu → Vcu) (s : State) : (setVcu f s).models = s.models := rfl
@[simp] theorem setVcu_res (f : Vcu → Vcu) (s : State) : (setVcu f s).res = s.res := rfl
@[simp] theorem setVcu_mrk (f : Vcu → Vcu) (s : State) : (setVcu f s).mrk = s.mrk := rfl
@[simp] theorem setVcu_clp (f : Vcu → Vcu) (s : State) : (setVcu f s).clp = s.clp := rfl
@[simp] theorem setVcu_vcu (f : Vcu → Vcu) (s : State) : (setVcu f s).vcu = f s.vcu := rfl
@[simp] theorem setVcu_tbc (f : Vcu → Vcu) (s : State) : (setVcu f s).tbc = s.tbc := rfl
@[simp] theorem setVcu_dmc (f : Vcu → Vcu) (s : State) : (setVcu f s).dmc = s.dmc := rfl
@[simp] theorem setVcu_dma (f : Vcu → Vcu) (s : State) : (setVcu f s).dma = s.dma := rfl
@[simp] theorem setVcu_rcp (f : Vcu → Vcu) (s : State) : (setVcu f s).rcp = s.rcp := rfl
@[simp] theorem setVcu_nvs (f : Vcu → Vcu) (s : State) : (setVcu f s).nvs = s.nvs := rfl
@[simp] theorem setVcu_mon (f : Vcu → Vcu) (s : State) : (setVcu f s).mon = s.mon := rfl
@[simp] theorem setVcu_out (f : Vcu → Vcu) (s : State) : (setVcu f s).out = s.out := rfl
@[simp] theorem setVcu_pending (f : Vcu → Vcu) (s : State) : (setVcu f s).pending = s.pending := rfl

/-! ## setTbc -/

@[simp] theorem setTbc_now (f : Tbc → Tbc) (s : State) : (setTbc f s).now = s.now := rfl
@[simp] theorem setTbc_free (f : Tbc → Tbc) (s : State) : (setTbc f s).free = s.free := rfl
@[simp] theorem setTbc_dev (f : Tbc → Tbc) (s : State) : (setTbc f s).dev = s.dev := rfl
@[simp] theorem setTbc_cfg (f : Tbc → Tbc) (s : State) : (setTbc f s).cfg = s.cfg := rfl
@[simp] theorem setTbc_regs (f : Tbc → Tbc) (s : State) : (setTbc f s).regs = s.regs := rfl
@[simp] theorem setTbc_limits (f : Tbc → Tbc) (s : State) : (setTbc f s).limits = s.limits := rfl
@[simp] theorem setTbc_lnk (f : Tbc → Tbc) (s : State) : (setTbc f s).lnk = s.lnk := rfl
@[simp] theorem setTbc_fep (f : Tbc → Tbc) (s : State) : (setTbc f s).fep = s.fep := rfl
@[simp] theorem setTbc_pos (f : Tbc → Tbc) (s : State) : (setTbc f s).pos = s.pos := rfl
@[simp] theorem setTbc_tmu (f : Tbc → Tbc) (s : State) : (setTbc f s).tmu = s.tmu := rfl
@[simp] theorem setTbc_evr (f : Tbc → Tbc) (s : State) : (setTbc f s).evr = s.evr := rfl
@[simp] theorem setTbc_elx (f : Tbc → Tbc) (s : State) : (setTbc f s).elx = s.elx := rfl
@[simp] theorem setTbc_models (f : Tbc → Tbc) (s : State) : (setTbc f s).models = s.models := rfl
@[simp] theorem setTbc_res (f : Tbc → Tbc) (s : State) : (setTbc f s).res = s.res := rfl
@[simp] theorem setTbc_mrk (f : Tbc → Tbc) (s : State) : (setTbc f s).mrk = s.mrk := rfl
@[simp] theorem setTbc_clp (f : Tbc → Tbc) (s : State) : (setTbc f s).clp = s.clp := rfl
@[simp] theorem setTbc_vcu (f : Tbc → Tbc) (s : State) : (setTbc f s).vcu = s.vcu := rfl
@[simp] theorem setTbc_tbc (f : Tbc → Tbc) (s : State) : (setTbc f s).tbc = f s.tbc := rfl
@[simp] theorem setTbc_dmc (f : Tbc → Tbc) (s : State) : (setTbc f s).dmc = s.dmc := rfl
@[simp] theorem setTbc_dma (f : Tbc → Tbc) (s : State) : (setTbc f s).dma = s.dma := rfl
@[simp] theorem setTbc_rcp (f : Tbc → Tbc) (s : State) : (setTbc f s).rcp = s.rcp := rfl
@[simp] theorem setTbc_nvs (f : Tbc → Tbc) (s : State) : (setTbc f s).nvs = s.nvs := rfl
@[simp] theorem setTbc_mon (f : Tbc → Tbc) (s : State) : (setTbc f s).mon = s.mon := rfl
@[simp] theorem setTbc_out (f : Tbc → Tbc) (s : State) : (setTbc f s).out = s.out := rfl
@[simp] theorem setTbc_pending (f : Tbc → Tbc) (s : State) : (setTbc f s).pending = s.pending := rfl

/-! ## setDmc -/

@[simp] theorem setDmc_now (f : Dmc → Dmc) (s : State) : (setDmc f s).now = s.now := rfl
@[simp] theorem setDmc_free (f : Dmc → Dmc) (s : State) : (setDmc f s).free = s.free := rfl
@[simp] theorem setDmc_dev (f : Dmc → Dmc) (s : State) : (setDmc f s).dev = s.dev := rfl
@[simp] theorem setDmc_cfg (f : Dmc → Dmc) (s : State) : (setDmc f s).cfg = s.cfg := rfl
@[simp] theorem setDmc_regs (f : Dmc → Dmc) (s : State) : (setDmc f s).regs = s.regs := rfl
@[simp] theorem setDmc_limits (f : Dmc → Dmc) (s : State) : (setDmc f s).limits = s.limits := rfl
@[simp] theorem setDmc_lnk (f : Dmc → Dmc) (s : State) : (setDmc f s).lnk = s.lnk := rfl
@[simp] theorem setDmc_fep (f : Dmc → Dmc) (s : State) : (setDmc f s).fep = s.fep := rfl
@[simp] theorem setDmc_pos (f : Dmc → Dmc) (s : State) : (setDmc f s).pos = s.pos := rfl
@[simp] theorem setDmc_tmu (f : Dmc → Dmc) (s : State) : (setDmc f s).tmu = s.tmu := rfl
@[simp] theorem setDmc_evr (f : Dmc → Dmc) (s : State) : (setDmc f s).evr = s.evr := rfl
@[simp] theorem setDmc_elx (f : Dmc → Dmc) (s : State) : (setDmc f s).elx = s.elx := rfl
@[simp] theorem setDmc_models (f : Dmc → Dmc) (s : State) : (setDmc f s).models = s.models := rfl
@[simp] theorem setDmc_res (f : Dmc → Dmc) (s : State) : (setDmc f s).res = s.res := rfl
@[simp] theorem setDmc_mrk (f : Dmc → Dmc) (s : State) : (setDmc f s).mrk = s.mrk := rfl
@[simp] theorem setDmc_clp (f : Dmc → Dmc) (s : State) : (setDmc f s).clp = s.clp := rfl
@[simp] theorem setDmc_vcu (f : Dmc → Dmc) (s : State) : (setDmc f s).vcu = s.vcu := rfl
@[simp] theorem setDmc_tbc (f : Dmc → Dmc) (s : State) : (setDmc f s).tbc = s.tbc := rfl
@[simp] theorem setDmc_dmc (f : Dmc → Dmc) (s : State) : (setDmc f s).dmc = f s.dmc := rfl
@[simp] theorem setDmc_dma (f : Dmc → Dmc) (s : State) : (setDmc f s).dma = s.dma := rfl
@[simp] theorem setDmc_rcp (f : Dmc → Dmc) (s : State) : (setDmc f s).rcp = s.rcp := rfl
@[simp] theorem setDmc_nvs (f : Dmc → Dmc) (s : State) : (setDmc f s).nvs = s.nvs := rfl
@[simp] theorem setDmc_mon (f : Dmc → Dmc) (s : State) : (setDmc f s).mon = s.mon := rfl
@[simp] theorem setDmc_out (f : Dmc → Dmc) (s : State) : (setDmc f s).out = s.out := rfl
@[simp] theorem setDmc_pending (f : Dmc → Dmc) (s : State) : (setDmc f s).pending = s.pending := rfl

/-! ## setDma -/

@[simp] theorem setDma_now (f : Dma → Dma) (s : State) : (setDma f s).now = s.now := rfl
@[simp] theorem setDma_free (f : Dma → Dma) (s : State) : (setDma f s).free = s.free := rfl
@[simp] theorem setDma_dev (f : Dma → Dma) (s : State) : (setDma f s).dev = s.dev := rfl
@[simp] theorem setDma_cfg (f : Dma → Dma) (s : State) : (setDma f s).cfg = s.cfg := rfl
@[simp] theorem setDma_regs (f : Dma → Dma) (s : State) : (setDma f s).regs = s.regs := rfl
@[simp] theorem setDma_limits (f : Dma → Dma) (s : State) : (setDma f s).limits = s.limits := rfl
@[simp] theorem setDma_lnk (f : Dma → Dma) (s : State) : (setDma f s).lnk = s.lnk := rfl
@[simp] theorem setDma_fep (f : Dma → Dma) (s : State) : (setDma f s).fep = s.fep := rfl
@[simp] theorem setDma_pos (f : Dma → Dma) (s : State) : (setDma f s).pos = s.pos := rfl
@[simp] theorem setDma_tmu (f : Dma → Dma) (s : State) : (setDma f s).tmu = s.tmu := rfl
@[simp] theorem setDma_evr (f : Dma → Dma) (s : State) : (setDma f s).evr = s.evr := rfl
@[simp] theorem setDma_elx (f : Dma → Dma) (s : State) : (setDma f s).elx = s.elx := rfl
@[simp] theorem setDma_models (f : Dma → Dma) (s : State) : (setDma f s).models = s.models := rfl
@[simp] theorem setDma_res (f : Dma → Dma) (s : State) : (setDma f s).res = s.res := rfl
@[simp] theorem setDma_mrk (f : Dma → Dma) (s : State) : (setDma f s).mrk = s.mrk := rfl
@[simp] theorem setDma_clp (f : Dma → Dma) (s : State) : (setDma f s).clp = s.clp := rfl
@[simp] theorem setDma_vcu (f : Dma → Dma) (s : State) : (setDma f s).vcu = s.vcu := rfl
@[simp] theorem setDma_tbc (f : Dma → Dma) (s : State) : (setDma f s).tbc = s.tbc := rfl
@[simp] theorem setDma_dmc (f : Dma → Dma) (s : State) : (setDma f s).dmc = s.dmc := rfl
@[simp] theorem setDma_dma (f : Dma → Dma) (s : State) : (setDma f s).dma = f s.dma := rfl
@[simp] theorem setDma_rcp (f : Dma → Dma) (s : State) : (setDma f s).rcp = s.rcp := rfl
@[simp] theorem setDma_nvs (f : Dma → Dma) (s : State) : (setDma f s).nvs = s.nvs := rfl
@[simp] theorem setDma_mon (f : Dma → Dma) (s : State) : (setDma f s).mon = s.mon := rfl
@[simp] theorem setDma_out (f : Dma → Dma) (s : State) : (setDma f s).out = s.out := rfl
@[simp] theorem setDma_pending (f : Dma → Dma) (s : State) : (setDma f s).pending = s.pending := rfl

/-! ## setRcp -/

@[simp] theorem setRcp_now (f : Rcp → Rcp) (s : State) : (setRcp f s).now = s.now := rfl
@[simp] theorem setRcp_free (f : Rcp → Rcp) (s : State) : (setRcp f s).free = s.free := rfl
@[simp] theorem setRcp_dev (f : Rcp → Rcp) (s : State) : (setRcp f s).dev = s.dev := rfl
@[simp] theorem setRcp_cfg (f : Rcp → Rcp) (s : State) : (setRcp f s).cfg = s.cfg := rfl
@[simp] theorem setRcp_regs (f : Rcp → Rcp) (s : State) : (setRcp f s).regs = s.regs := rfl
@[simp] theorem setRcp_limits (f : Rcp → Rcp) (s : State) : (setRcp f s).limits = s.limits := rfl
@[simp] theorem setRcp_lnk (f : Rcp → Rcp) (s : State) : (setRcp f s).lnk = s.lnk := rfl
@[simp] theorem setRcp_fep (f : Rcp → Rcp) (s : State) : (setRcp f s).fep = s.fep := rfl
@[simp] theorem setRcp_pos (f : Rcp → Rcp) (s : State) : (setRcp f s).pos = s.pos := rfl
@[simp] theorem setRcp_tmu (f : Rcp → Rcp) (s : State) : (setRcp f s).tmu = s.tmu := rfl
@[simp] theorem setRcp_evr (f : Rcp → Rcp) (s : State) : (setRcp f s).evr = s.evr := rfl
@[simp] theorem setRcp_elx (f : Rcp → Rcp) (s : State) : (setRcp f s).elx = s.elx := rfl
@[simp] theorem setRcp_models (f : Rcp → Rcp) (s : State) : (setRcp f s).models = s.models := rfl
@[simp] theorem setRcp_res (f : Rcp → Rcp) (s : State) : (setRcp f s).res = s.res := rfl
@[simp] theorem setRcp_mrk (f : Rcp → Rcp) (s : State) : (setRcp f s).mrk = s.mrk := rfl
@[simp] theorem setRcp_clp (f : Rcp → Rcp) (s : State) : (setRcp f s).clp = s.clp := rfl
@[simp] theorem setRcp_vcu (f : Rcp → Rcp) (s : State) : (setRcp f s).vcu = s.vcu := rfl
@[simp] theorem setRcp_tbc (f : Rcp → Rcp) (s : State) : (setRcp f s).tbc = s.tbc := rfl
@[simp] theorem setRcp_dmc (f : Rcp → Rcp) (s : State) : (setRcp f s).dmc = s.dmc := rfl
@[simp] theorem setRcp_dma (f : Rcp → Rcp) (s : State) : (setRcp f s).dma = s.dma := rfl
@[simp] theorem setRcp_rcp (f : Rcp → Rcp) (s : State) : (setRcp f s).rcp = f s.rcp := rfl
@[simp] theorem setRcp_nvs (f : Rcp → Rcp) (s : State) : (setRcp f s).nvs = s.nvs := rfl
@[simp] theorem setRcp_mon (f : Rcp → Rcp) (s : State) : (setRcp f s).mon = s.mon := rfl
@[simp] theorem setRcp_out (f : Rcp → Rcp) (s : State) : (setRcp f s).out = s.out := rfl
@[simp] theorem setRcp_pending (f : Rcp → Rcp) (s : State) : (setRcp f s).pending = s.pending := rfl

/-! ## setNvs -/

@[simp] theorem setNvs_now (f : Nvs → Nvs) (s : State) : (setNvs f s).now = s.now := rfl
@[simp] theorem setNvs_free (f : Nvs → Nvs) (s : State) : (setNvs f s).free = s.free := rfl
@[simp] theorem setNvs_dev (f : Nvs → Nvs) (s : State) : (setNvs f s).dev = s.dev := rfl
@[simp] theorem setNvs_cfg (f : Nvs → Nvs) (s : State) : (setNvs f s).cfg = s.cfg := rfl
@[simp] theorem setNvs_regs (f : Nvs → Nvs) (s : State) : (setNvs f s).regs = s.regs := rfl
@[simp] theorem setNvs_limits (f : Nvs → Nvs) (s : State) : (setNvs f s).limits = s.limits := rfl
@[simp] theorem setNvs_lnk (f : Nvs → Nvs) (s : State) : (setNvs f s).lnk = s.lnk := rfl
@[simp] theorem setNvs_fep (f : Nvs → Nvs) (s : State) : (setNvs f s).fep = s.fep := rfl
@[simp] theorem setNvs_pos (f : Nvs → Nvs) (s : State) : (setNvs f s).pos = s.pos := rfl
@[simp] theorem setNvs_tmu (f : Nvs → Nvs) (s : State) : (setNvs f s).tmu = s.tmu := rfl
@[simp] theorem setNvs_evr (f : Nvs → Nvs) (s : State) : (setNvs f s).evr = s.evr := rfl
@[simp] theorem setNvs_elx (f : Nvs → Nvs) (s : State) : (setNvs f s).elx = s.elx := rfl
@[simp] theorem setNvs_models (f : Nvs → Nvs) (s : State) : (setNvs f s).models = s.models := rfl
@[simp] theorem setNvs_res (f : Nvs → Nvs) (s : State) : (setNvs f s).res = s.res := rfl
@[simp] theorem setNvs_mrk (f : Nvs → Nvs) (s : State) : (setNvs f s).mrk = s.mrk := rfl
@[simp] theorem setNvs_clp (f : Nvs → Nvs) (s : State) : (setNvs f s).clp = s.clp := rfl
@[simp] theorem setNvs_vcu (f : Nvs → Nvs) (s : State) : (setNvs f s).vcu = s.vcu := rfl
@[simp] theorem setNvs_tbc (f : Nvs → Nvs) (s : State) : (setNvs f s).tbc = s.tbc := rfl
@[simp] theorem setNvs_dmc (f : Nvs → Nvs) (s : State) : (setNvs f s).dmc = s.dmc := rfl
@[simp] theorem setNvs_dma (f : Nvs → Nvs) (s : State) : (setNvs f s).dma = s.dma := rfl
@[simp] theorem setNvs_rcp (f : Nvs → Nvs) (s : State) : (setNvs f s).rcp = s.rcp := rfl
@[simp] theorem setNvs_nvs (f : Nvs → Nvs) (s : State) : (setNvs f s).nvs = f s.nvs := rfl
@[simp] theorem setNvs_mon (f : Nvs → Nvs) (s : State) : (setNvs f s).mon = s.mon := rfl
@[simp] theorem setNvs_out (f : Nvs → Nvs) (s : State) : (setNvs f s).out = s.out := rfl
@[simp] theorem setNvs_pending (f : Nvs → Nvs) (s : State) : (setNvs f s).pending = s.pending := rfl

/-! ## setMon -/

@[simp] theorem setMon_now (f : Mon → Mon) (s : State) : (setMon f s).now = s.now := rfl
@[simp] theorem setMon_free (f : Mon → Mon) (s : State) : (setMon f s).free = s.free := rfl
@[simp] theorem setMon_dev (f : Mon → Mon) (s : State) : (setMon f s).dev = s.dev := rfl
@[simp] theorem setMon_cfg (f : Mon → Mon) (s : State) : (setMon f s).cfg = s.cfg := rfl
@[simp] theorem setMon_regs (f : Mon → Mon) (s : State) : (setMon f s).regs = s.regs := rfl
@[simp] theorem setMon_limits (f : Mon → Mon) (s : State) : (setMon f s).limits = s.limits := rfl
@[simp] theorem setMon_lnk (f : Mon → Mon) (s : State) : (setMon f s).lnk = s.lnk := rfl
@[simp] theorem setMon_fep (f : Mon → Mon) (s : State) : (setMon f s).fep = s.fep := rfl
@[simp] theorem setMon_pos (f : Mon → Mon) (s : State) : (setMon f s).pos = s.pos := rfl
@[simp] theorem setMon_tmu (f : Mon → Mon) (s : State) : (setMon f s).tmu = s.tmu := rfl
@[simp] theorem setMon_evr (f : Mon → Mon) (s : State) : (setMon f s).evr = s.evr := rfl
@[simp] theorem setMon_elx (f : Mon → Mon) (s : State) : (setMon f s).elx = s.elx := rfl
@[simp] theorem setMon_models (f : Mon → Mon) (s : State) : (setMon f s).models = s.models := rfl
@[simp] theorem setMon_res (f : Mon → Mon) (s : State) : (setMon f s).res = s.res := rfl
@[simp] theorem setMon_mrk (f : Mon → Mon) (s : State) : (setMon f s).mrk = s.mrk := rfl
@[simp] theorem setMon_clp (f : Mon → Mon) (s : State) : (setMon f s).clp = s.clp := rfl
@[simp] theorem setMon_vcu (f : Mon → Mon) (s : State) : (setMon f s).vcu = s.vcu := rfl
@[simp] theorem setMon_tbc (f : Mon → Mon) (s : State) : (setMon f s).tbc = s.tbc := rfl
@[simp] theorem setMon_dmc (f : Mon → Mon) (s : State) : (setMon f s).dmc = s.dmc := rfl
@[simp] theorem setMon_dma (f : Mon → Mon) (s : State) : (setMon f s).dma = s.dma := rfl
@[simp] theorem setMon_rcp (f : Mon → Mon) (s : State) : (setMon f s).rcp = s.rcp := rfl
@[simp] theorem setMon_nvs (f : Mon → Mon) (s : State) : (setMon f s).nvs = s.nvs := rfl
@[simp] theorem setMon_mon (f : Mon → Mon) (s : State) : (setMon f s).mon = f s.mon := rfl
@[simp] theorem setMon_out (f : Mon → Mon) (s : State) : (setMon f s).out = s.out := rfl
@[simp] theorem setMon_pending (f : Mon → Mon) (s : State) : (setMon f s).pending = s.pending := rfl

/-! ## emit -/

@[simp] theorem emit_now (o : Out) (s : State) : (emit o s).now = s.now := rfl
@[simp] theorem emit_free (o : Out) (s : State) : (emit o s).free = s.free := rfl
@[simp] theorem emit_dev (o : Out) (s : State) : (emit o s).dev = s.dev := rfl
@[simp] theorem emit_cfg (o : Out) (s : State) : (emit o s).cfg = s.cfg := rfl
@[simp] theorem emit_regs (o : Out) (s : State) : (emit o s).regs = s.regs := rfl
@[simp] theorem emit_limits (o : Out) (s : State) : (emit o s).limits = s.limits := rfl
@[simp] theorem emit_lnk (o : Out) (s : State) : (emit o s).lnk = s.lnk := rfl
@[simp] theorem emit_fep (o : Out) (s : State) : (emit o s).fep = s.fep := rfl
@[simp] theorem emit_pos (o : Out) (s : State) : (emit o s).pos = s.pos := rfl
@[simp] theorem emit_tmu (o : Out) (s : State) : (emit o s).tmu = s.tmu := rfl
@[simp] theorem emit_evr (o : Out) (s : State) : (emit o s).evr = s.evr := rfl
@[simp] theorem emit_elx (o : Out) (s : State) : (emit o s).elx = s.elx := rfl
@[simp] theorem emit_models (o : Out) (s : State) : (emit o s).models = s.models := rfl
@[simp] theorem emit_res (o : Out) (s : State) : (emit o s).res = s.res := rfl
@[simp] theorem emit_mrk (o : Out) (s : State) : (emit o s).mrk = s.mrk := rfl
@[simp] theorem emit_clp (o : Out) (s : State) : (emit o s).clp = s.clp := rfl
@[simp] theorem emit_vcu (o : Out) (s : State) : (emit o s).vcu = s.vcu := rfl
@[simp] theorem emit_tbc (o : Out) (s : State) : (emit o s).tbc = s.tbc := rfl
@[simp] theorem emit_dmc (o : Out) (s : State) : (emit o s).dmc = s.dmc := rfl
@[simp] theorem emit_dma (o : Out) (s : State) : (emit o s).dma = s.dma := rfl
@[simp] theorem emit_rcp (o : Out) (s : State) : (emit o s).rcp = s.rcp := rfl
@[simp] theorem emit_nvs (o : Out) (s : State) : (emit o s).nvs = s.nvs := rfl
@[simp] theorem emit_mon (o : Out) (s : State) : (emit o s).mon = s.mon := rfl
@[simp] theorem emit_out (o : Out) (s : State) : (emit o s).out = if outHeld s.rcp o then s.out else o :: s.out := rfl
@[simp] theorem emit_pending (o : Out) (s : State) : (emit o s).pending = s.pending := rfl

/-! ## rput -/

@[simp] theorem rput_now (a v : Nat) (s : State) : (rput a v s).now = s.now := rfl
@[simp] theorem rput_free (a v : Nat) (s : State) : (rput a v s).free = s.free := rfl
@[simp] theorem rput_dev (a v : Nat) (s : State) : (rput a v s).dev = s.dev := rfl
@[simp] theorem rput_cfg (a v : Nat) (s : State) : (rput a v s).cfg = s.cfg := rfl
@[simp] theorem rput_limits (a v : Nat) (s : State) : (rput a v s).limits = s.limits := rfl
@[simp] theorem rput_lnk (a v : Nat) (s : State) : (rput a v s).lnk = s.lnk := rfl
@[simp] theorem rput_fep (a v : Nat) (s : State) : (rput a v s).fep = s.fep := rfl
@[simp] theorem rput_pos (a v : Nat) (s : State) : (rput a v s).pos = s.pos := rfl
@[simp] theorem rput_tmu (a v : Nat) (s : State) : (rput a v s).tmu = s.tmu := rfl
@[simp] theorem rput_evr (a v : Nat) (s : State) : (rput a v s).evr = s.evr := rfl
@[simp] theorem rput_elx (a v : Nat) (s : State) : (rput a v s).elx = s.elx := rfl
@[simp] theorem rput_models (a v : Nat) (s : State) : (rput a v s).models = s.models := rfl
@[simp] theorem rput_res (a v : Nat) (s : State) : (rput a v s).res = s.res := rfl
@[simp] theorem rput_mrk (a v : Nat) (s : State) : (rput a v s).mrk = s.mrk := rfl
@[simp] theorem rput_clp (a v : Nat) (s : State) : (rput a v s).clp = s.clp := rfl
@[simp] theorem rput_vcu (a v : Nat) (s : State) : (rput a v s).vcu = s.vcu := rfl
@[simp] theorem rput_tbc (a v : Nat) (s : State) : (rput a v s).tbc = s.tbc := rfl
@[simp] theorem rput_dmc (a v : Nat) (s : State) : (rput a v s).dmc = s.dmc := rfl
@[simp] theorem rput_dma (a v : Nat) (s : State) : (rput a v s).dma = s.dma := rfl
@[simp] theorem rput_rcp (a v : Nat) (s : State) : (rput a v s).rcp = s.rcp := rfl
@[simp] theorem rput_nvs (a v : Nat) (s : State) : (rput a v s).nvs = s.nvs := rfl
@[simp] theorem rput_mon (a v : Nat) (s : State) : (rput a v s).mon = s.mon := rfl
@[simp] theorem rput_out (a v : Nat) (s : State) : (rput a v s).out = s.out := rfl
@[simp] theorem rput_pending (a v : Nat) (s : State) : (rput a v s).pending = s.pending := rfl

/-! ## bump -/

@[simp] theorem bump_now (a n : Nat) (s : State) : (bump a n s).now = s.now := rfl
@[simp] theorem bump_free (a n : Nat) (s : State) : (bump a n s).free = s.free := rfl
@[simp] theorem bump_dev (a n : Nat) (s : State) : (bump a n s).dev = s.dev := rfl
@[simp] theorem bump_cfg (a n : Nat) (s : State) : (bump a n s).cfg = s.cfg := rfl
@[simp] theorem bump_limits (a n : Nat) (s : State) : (bump a n s).limits = s.limits := rfl
@[simp] theorem bump_lnk (a n : Nat) (s : State) : (bump a n s).lnk = s.lnk := rfl
@[simp] theorem bump_fep (a n : Nat) (s : State) : (bump a n s).fep = s.fep := rfl
@[simp] theorem bump_pos (a n : Nat) (s : State) : (bump a n s).pos = s.pos := rfl
@[simp] theorem bump_tmu (a n : Nat) (s : State) : (bump a n s).tmu = s.tmu := rfl
@[simp] theorem bump_evr (a n : Nat) (s : State) : (bump a n s).evr = s.evr := rfl
@[simp] theorem bump_elx (a n : Nat) (s : State) : (bump a n s).elx = s.elx := rfl
@[simp] theorem bump_models (a n : Nat) (s : State) : (bump a n s).models = s.models := rfl
@[simp] theorem bump_res (a n : Nat) (s : State) : (bump a n s).res = s.res := rfl
@[simp] theorem bump_mrk (a n : Nat) (s : State) : (bump a n s).mrk = s.mrk := rfl
@[simp] theorem bump_clp (a n : Nat) (s : State) : (bump a n s).clp = s.clp := rfl
@[simp] theorem bump_vcu (a n : Nat) (s : State) : (bump a n s).vcu = s.vcu := rfl
@[simp] theorem bump_tbc (a n : Nat) (s : State) : (bump a n s).tbc = s.tbc := rfl
@[simp] theorem bump_dmc (a n : Nat) (s : State) : (bump a n s).dmc = s.dmc := rfl
@[simp] theorem bump_dma (a n : Nat) (s : State) : (bump a n s).dma = s.dma := rfl
@[simp] theorem bump_rcp (a n : Nat) (s : State) : (bump a n s).rcp = s.rcp := rfl
@[simp] theorem bump_nvs (a n : Nat) (s : State) : (bump a n s).nvs = s.nvs := rfl
@[simp] theorem bump_mon (a n : Nat) (s : State) : (bump a n s).mon = s.mon := rfl
@[simp] theorem bump_out (a n : Nat) (s : State) : (bump a n s).out = s.out := rfl
@[simp] theorem bump_pending (a n : Nat) (s : State) : (bump a n s).pending = s.pending := rfl

/-! ## rset -/

@[simp] theorem rset_now (a i : Nat) (s : State) : (rset a i s).now = s.now := rfl
@[simp] theorem rset_free (a i : Nat) (s : State) : (rset a i s).free = s.free := rfl
@[simp] theorem rset_dev (a i : Nat) (s : State) : (rset a i s).dev = s.dev := rfl
@[simp] theorem rset_cfg (a i : Nat) (s : State) : (rset a i s).cfg = s.cfg := rfl
@[simp] theorem rset_limits (a i : Nat) (s : State) : (rset a i s).limits = s.limits := rfl
@[simp] theorem rset_lnk (a i : Nat) (s : State) : (rset a i s).lnk = s.lnk := rfl
@[simp] theorem rset_fep (a i : Nat) (s : State) : (rset a i s).fep = s.fep := rfl
@[simp] theorem rset_pos (a i : Nat) (s : State) : (rset a i s).pos = s.pos := rfl
@[simp] theorem rset_tmu (a i : Nat) (s : State) : (rset a i s).tmu = s.tmu := rfl
@[simp] theorem rset_evr (a i : Nat) (s : State) : (rset a i s).evr = s.evr := rfl
@[simp] theorem rset_elx (a i : Nat) (s : State) : (rset a i s).elx = s.elx := rfl
@[simp] theorem rset_models (a i : Nat) (s : State) : (rset a i s).models = s.models := rfl
@[simp] theorem rset_res (a i : Nat) (s : State) : (rset a i s).res = s.res := rfl
@[simp] theorem rset_mrk (a i : Nat) (s : State) : (rset a i s).mrk = s.mrk := rfl
@[simp] theorem rset_clp (a i : Nat) (s : State) : (rset a i s).clp = s.clp := rfl
@[simp] theorem rset_vcu (a i : Nat) (s : State) : (rset a i s).vcu = s.vcu := rfl
@[simp] theorem rset_tbc (a i : Nat) (s : State) : (rset a i s).tbc = s.tbc := rfl
@[simp] theorem rset_dmc (a i : Nat) (s : State) : (rset a i s).dmc = s.dmc := rfl
@[simp] theorem rset_dma (a i : Nat) (s : State) : (rset a i s).dma = s.dma := rfl
@[simp] theorem rset_rcp (a i : Nat) (s : State) : (rset a i s).rcp = s.rcp := rfl
@[simp] theorem rset_nvs (a i : Nat) (s : State) : (rset a i s).nvs = s.nvs := rfl
@[simp] theorem rset_mon (a i : Nat) (s : State) : (rset a i s).mon = s.mon := rfl
@[simp] theorem rset_out (a i : Nat) (s : State) : (rset a i s).out = s.out := rfl
@[simp] theorem rset_pending (a i : Nat) (s : State) : (rset a i s).pending = s.pending := rfl

/-! ## rclear -/

@[simp] theorem rclear_now (lo hi : Nat) (s : State) : (rclear lo hi s).now = s.now := rfl
@[simp] theorem rclear_free (lo hi : Nat) (s : State) : (rclear lo hi s).free = s.free := rfl
@[simp] theorem rclear_dev (lo hi : Nat) (s : State) : (rclear lo hi s).dev = s.dev := rfl
@[simp] theorem rclear_cfg (lo hi : Nat) (s : State) : (rclear lo hi s).cfg = s.cfg := rfl
@[simp] theorem rclear_limits (lo hi : Nat) (s : State) : (rclear lo hi s).limits = s.limits := rfl
@[simp] theorem rclear_lnk (lo hi : Nat) (s : State) : (rclear lo hi s).lnk = s.lnk := rfl
@[simp] theorem rclear_fep (lo hi : Nat) (s : State) : (rclear lo hi s).fep = s.fep := rfl
@[simp] theorem rclear_pos (lo hi : Nat) (s : State) : (rclear lo hi s).pos = s.pos := rfl
@[simp] theorem rclear_tmu (lo hi : Nat) (s : State) : (rclear lo hi s).tmu = s.tmu := rfl
@[simp] theorem rclear_evr (lo hi : Nat) (s : State) : (rclear lo hi s).evr = s.evr := rfl
@[simp] theorem rclear_elx (lo hi : Nat) (s : State) : (rclear lo hi s).elx = s.elx := rfl
@[simp] theorem rclear_models (lo hi : Nat) (s : State) : (rclear lo hi s).models = s.models := rfl
@[simp] theorem rclear_res (lo hi : Nat) (s : State) : (rclear lo hi s).res = s.res := rfl
@[simp] theorem rclear_mrk (lo hi : Nat) (s : State) : (rclear lo hi s).mrk = s.mrk := rfl
@[simp] theorem rclear_clp (lo hi : Nat) (s : State) : (rclear lo hi s).clp = s.clp := rfl
@[simp] theorem rclear_vcu (lo hi : Nat) (s : State) : (rclear lo hi s).vcu = s.vcu := rfl
@[simp] theorem rclear_tbc (lo hi : Nat) (s : State) : (rclear lo hi s).tbc = s.tbc := rfl
@[simp] theorem rclear_dmc (lo hi : Nat) (s : State) : (rclear lo hi s).dmc = s.dmc := rfl
@[simp] theorem rclear_dma (lo hi : Nat) (s : State) : (rclear lo hi s).dma = s.dma := rfl
@[simp] theorem rclear_rcp (lo hi : Nat) (s : State) : (rclear lo hi s).rcp = s.rcp := rfl
@[simp] theorem rclear_nvs (lo hi : Nat) (s : State) : (rclear lo hi s).nvs = s.nvs := rfl
@[simp] theorem rclear_mon (lo hi : Nat) (s : State) : (rclear lo hi s).mon = s.mon := rfl
@[simp] theorem rclear_out (lo hi : Nat) (s : State) : (rclear lo hi s).out = s.out := rfl
@[simp] theorem rclear_pending (lo hi : Nat) (s : State) : (rclear lo hi s).pending = s.pending := rfl

/-! ## setPort -/

@[simp] theorem setPort_now (n : Nat) (f : Port → Port) (s : State) : (setPort n f s).now = s.now := rfl
@[simp] theorem setPort_free (n : Nat) (f : Port → Port) (s : State) : (setPort n f s).free = s.free := rfl
@[simp] theorem setPort_dev (n : Nat) (f : Port → Port) (s : State) : (setPort n f s).dev = s.dev := rfl
@[simp] theorem setPort_cfg (n : Nat) (f : Port → Port) (s : State) : (setPort n f s).cfg = s.cfg := rfl
@[simp] theorem setPort_regs (n : Nat) (f : Port → Port) (s : State) : (setPort n f s).regs = s.regs := rfl
@[simp] theorem setPort_limits (n : Nat) (f : Port → Port) (s : State) : (setPort n f s).limits = s.limits := rfl
@[simp] theorem setPort_fep (n : Nat) (f : Port → Port) (s : State) : (setPort n f s).fep = s.fep := rfl
@[simp] theorem setPort_pos (n : Nat) (f : Port → Port) (s : State) : (setPort n f s).pos = s.pos := rfl
@[simp] theorem setPort_tmu (n : Nat) (f : Port → Port) (s : State) : (setPort n f s).tmu = s.tmu := rfl
@[simp] theorem setPort_evr (n : Nat) (f : Port → Port) (s : State) : (setPort n f s).evr = s.evr := rfl
@[simp] theorem setPort_elx (n : Nat) (f : Port → Port) (s : State) : (setPort n f s).elx = s.elx := rfl
@[simp] theorem setPort_models (n : Nat) (f : Port → Port) (s : State) : (setPort n f s).models = s.models := rfl
@[simp] theorem setPort_res (n : Nat) (f : Port → Port) (s : State) : (setPort n f s).res = s.res := rfl
@[simp] theorem setPort_mrk (n : Nat) (f : Port → Port) (s : State) : (setPort n f s).mrk = s.mrk := rfl
@[simp] theorem setPort_clp (n : Nat) (f : Port → Port) (s : State) : (setPort n f s).clp = s.clp := rfl
@[simp] theorem setPort_vcu (n : Nat) (f : Port → Port) (s : State) : (setPort n f s).vcu = s.vcu := rfl
@[simp] theorem setPort_tbc (n : Nat) (f : Port → Port) (s : State) : (setPort n f s).tbc = s.tbc := rfl
@[simp] theorem setPort_dmc (n : Nat) (f : Port → Port) (s : State) : (setPort n f s).dmc = s.dmc := rfl
@[simp] theorem setPort_dma (n : Nat) (f : Port → Port) (s : State) : (setPort n f s).dma = s.dma := rfl
@[simp] theorem setPort_rcp (n : Nat) (f : Port → Port) (s : State) : (setPort n f s).rcp = s.rcp := rfl
@[simp] theorem setPort_nvs (n : Nat) (f : Port → Port) (s : State) : (setPort n f s).nvs = s.nvs := rfl
@[simp] theorem setPort_mon (n : Nat) (f : Port → Port) (s : State) : (setPort n f s).mon = s.mon := rfl
@[simp] theorem setPort_out (n : Nat) (f : Port → Port) (s : State) : (setPort n f s).out = s.out := rfl
@[simp] theorem setPort_pending (n : Nat) (f : Port → Port) (s : State) : (setPort n f s).pending = s.pending := rfl

/-! ## setAxis -/

@[simp] theorem setAxis_now (a : Nat) (f : Axis → Axis) (s : State) : (setAxis a f s).now = s.now := rfl
@[simp] theorem setAxis_free (a : Nat) (f : Axis → Axis) (s : State) : (setAxis a f s).free = s.free := rfl
@[simp] theorem setAxis_dev (a : Nat) (f : Axis → Axis) (s : State) : (setAxis a f s).dev = s.dev := rfl
@[simp] theorem setAxis_cfg (a : Nat) (f : Axis → Axis) (s : State) : (setAxis a f s).cfg = s.cfg := rfl
@[simp] theorem setAxis_regs (a : Nat) (f : Axis → Axis) (s : State) : (setAxis a f s).regs = s.regs := rfl
@[simp] theorem setAxis_limits (a : Nat) (f : Axis → Axis) (s : State) : (setAxis a f s).limits = s.limits := rfl
@[simp] theorem setAxis_lnk (a : Nat) (f : Axis → Axis) (s : State) : (setAxis a f s).lnk = s.lnk := rfl
@[simp] theorem setAxis_fep (a : Nat) (f : Axis → Axis) (s : State) : (setAxis a f s).fep = s.fep := rfl
@[simp] theorem setAxis_tmu (a : Nat) (f : Axis → Axis) (s : State) : (setAxis a f s).tmu = s.tmu := rfl
@[simp] theorem setAxis_evr (a : Nat) (f : Axis → Axis) (s : State) : (setAxis a f s).evr = s.evr := rfl
@[simp] theorem setAxis_elx (a : Nat) (f : Axis → Axis) (s : State) : (setAxis a f s).elx = s.elx := rfl
@[simp] theorem setAxis_models (a : Nat) (f : Axis → Axis) (s : State) : (setAxis a f s).models = s.models := rfl
@[simp] theorem setAxis_res (a : Nat) (f : Axis → Axis) (s : State) : (setAxis a f s).res = s.res := rfl
@[simp] theorem setAxis_mrk (a : Nat) (f : Axis → Axis) (s : State) : (setAxis a f s).mrk = s.mrk := rfl
@[simp] theorem setAxis_clp (a : Nat) (f : Axis → Axis) (s : State) : (setAxis a f s).clp = s.clp := rfl
@[simp] theorem setAxis_vcu (a : Nat) (f : Axis → Axis) (s : State) : (setAxis a f s).vcu = s.vcu := rfl
@[simp] theorem setAxis_tbc (a : Nat) (f : Axis → Axis) (s : State) : (setAxis a f s).tbc = s.tbc := rfl
@[simp] theorem setAxis_dmc (a : Nat) (f : Axis → Axis) (s : State) : (setAxis a f s).dmc = s.dmc := rfl
@[simp] theorem setAxis_dma (a : Nat) (f : Axis → Axis) (s : State) : (setAxis a f s).dma = s.dma := rfl
@[simp] theorem setAxis_rcp (a : Nat) (f : Axis → Axis) (s : State) : (setAxis a f s).rcp = s.rcp := rfl
@[simp] theorem setAxis_nvs (a : Nat) (f : Axis → Axis) (s : State) : (setAxis a f s).nvs = s.nvs := rfl
@[simp] theorem setAxis_mon (a : Nat) (f : Axis → Axis) (s : State) : (setAxis a f s).mon = s.mon := rfl
@[simp] theorem setAxis_out (a : Nat) (f : Axis → Axis) (s : State) : (setAxis a f s).out = s.out := rfl
@[simp] theorem setAxis_pending (a : Nat) (f : Axis → Axis) (s : State) : (setAxis a f s).pending = s.pending := rfl

/-! ## The end of a row -/

@[simp] theorem conclude_now (t : Nat) (s u : State) : (conclude t s u).now = max t s.now := rfl
@[simp] theorem conclude_free (t : Nat) (s u : State) : (conclude t s u).free = u.free := rfl
@[simp] theorem conclude_cfg (t : Nat) (s u : State) : (conclude t s u).cfg = u.cfg := rfl
@[simp] theorem conclude_regs (t : Nat) (s u : State) : (conclude t s u).regs = u.regs := rfl
@[simp] theorem conclude_limits (t : Nat) (s u : State) : (conclude t s u).limits = u.limits := rfl
@[simp] theorem conclude_lnk (t : Nat) (s u : State) : (conclude t s u).lnk = u.lnk := rfl
@[simp] theorem conclude_fep (t : Nat) (s u : State) : (conclude t s u).fep = u.fep := rfl
@[simp] theorem conclude_pos (t : Nat) (s u : State) : (conclude t s u).pos = u.pos := rfl
@[simp] theorem conclude_tmu (t : Nat) (s u : State) : (conclude t s u).tmu = u.tmu := rfl
@[simp] theorem conclude_evr (t : Nat) (s u : State) : (conclude t s u).evr = u.evr := rfl
@[simp] theorem conclude_elx (t : Nat) (s u : State) : (conclude t s u).elx = u.elx := rfl
@[simp] theorem conclude_models (t : Nat) (s u : State) : (conclude t s u).models = u.models := rfl
@[simp] theorem conclude_res (t : Nat) (s u : State) : (conclude t s u).res = u.res := rfl
@[simp] theorem conclude_mrk (t : Nat) (s u : State) : (conclude t s u).mrk = u.mrk := rfl
@[simp] theorem conclude_clp (t : Nat) (s u : State) : (conclude t s u).clp = u.clp := rfl
@[simp] theorem conclude_vcu (t : Nat) (s u : State) : (conclude t s u).vcu = u.vcu := rfl
@[simp] theorem conclude_tbc (t : Nat) (s u : State) : (conclude t s u).tbc = u.tbc := rfl
@[simp] theorem conclude_dmc (t : Nat) (s u : State) : (conclude t s u).dmc = u.dmc := rfl
@[simp] theorem conclude_dma (t : Nat) (s u : State) : (conclude t s u).dma = u.dma := rfl
@[simp] theorem conclude_rcp (t : Nat) (s u : State) : (conclude t s u).rcp = u.rcp := rfl
@[simp] theorem conclude_nvs (t : Nat) (s u : State) : (conclude t s u).nvs = u.nvs := rfl
@[simp] theorem conclude_mon (t : Nat) (s u : State) : (conclude t s u).mon = u.mon := rfl
@[simp] theorem conclude_out (t : Nat) (s u : State) : (conclude t s u).out = u.out := rfl
@[simp] theorem conclude_pending (t : Nat) (s u : State) : (conclude t s u).pending = s.pending := rfl
@[simp] theorem conclude_dev (t : Nat) (s u : State) : (conclude t s u).dev = { u.dev with ha := s.dev.ha } := rfl

end Sys2Proof.Machine
end

