-- ==== Sys2Proof/Laws/Tables.lean ====
section
/-! SUPPORT. Sys2Proof/Laws/Tables.lean: what reading a table, a register or a byte of memory gives after a write to it. -/

namespace Sys2Proof.Machine

/-! ## Tables -/

theorem tabGet_tabPut {α : Type} (m : Tab α) (i j : Nat) (v : α) : tabGet (tabPut m i v) j = if i = j then some v else tabGet m j := by
  induction m with
  | nil => simp [tabPut, tabGet]
  | cons e r ih =>
    obtain ⟨k, w⟩ := e
    unfold tabPut
    split
    · simp only [tabGet]
    · split
      · rename_i h1 h2; subst h2; simp only [tabGet]; split <;> rfl
      · rename_i h1 h2; simp only [tabGet, ih]; split <;> split <;> simp_all

theorem tabGet_tabDel {α : Type} (m : Tab α) (i j : Nat) : tabGet (tabDel m i) j = if i = j then none else tabGet m j := by
  induction m with
  | nil => simp [tabDel, tabGet]
  | cons e r ih =>
    obtain ⟨k, w⟩ := e
    unfold tabDel
    split
    · rename_i h; subst h; rw [ih]; split
      · rfl
      · rename_i h; simp [tabGet, h]
    · rename_i h; simp only [tabGet, ih]; split <;> split <;> simp_all

theorem tabGet_tabMod {α : Type} (m : Tab α) (i j : Nat) (f : α → α) : tabGet (tabMod m i f) j = if i = j then (tabGet m i).map f else tabGet m j := by
  unfold tabMod
  cases h : tabGet m i with
  | none => simp only [Option.map]; split
            · rename_i e; subst e; exact h
            · rfl
  | some v => simp only [tabGet_tabPut, Option.map]

@[simp] theorem tabGet_tabPut_self {α : Type} (m : Tab α) (i : Nat) (v : α) : tabGet (tabPut m i v) i = some v := by simp [tabGet_tabPut]

theorem tabGet_tabPut_ne {α : Type} (m : Tab α) {i j : Nat} (v : α) (h : j ≠ i) : tabGet (tabPut m i v) j = tabGet m j := by
  rw [tabGet_tabPut, if_neg (Ne.symm h)]

theorem getElem_listMod {α : Type} (xs : List α) (i j : Nat) (f : α → α) : (listMod xs i f)[j]? = if i = j then (xs[j]?).map f else xs[j]? := by
  induction xs generalizing i j with
  | nil => cases i <;> simp [listMod]
  | cons x r ih => cases i <;> cases j <;> simp [listMod, ih]

@[simp] theorem length_listMod {α : Type} (xs : List α) (i : Nat) (f : α → α) : (listMod xs i f).length = xs.length := by
  induction xs generalizing i with
  | nil => cases i <;> rfl
  | cons x r ih => cases i <;> simp [listMod, ih]

/-! ## Sessions -/

theorem sess_setSess (s : State) (i j : Nat) (f : Sess → Sess) : sess (setSess i f s) j = if i = j then (sess s i).map f else sess s j :=
  tabGet_tabMod _ _ _ _

/-! ## Registers -/

theorem rget_rput (a b v : Nat) (s : State) : rget b (rput a v s) = if a = b then v % 2 ^ 32 else rget b s := by
  unfold rget rput
  simp only []
  split
  · rename_i h; simp only [tabGet_tabDel]; split
    · rename_i e; subst e; rw [h]; rfl
    · rfl
  · simp only [tabGet_tabPut]; split <;> simp

theorem rget_rput_ne {a b : Nat} (v : Nat) (s : State) (h : b ≠ a) : rget b (rput a v s) = rget b s := by
  rw [rget_rput, if_neg (Ne.symm h)]

theorem rget_bump_ne {a b : Nat} (n : Nat) (s : State) (h : b ≠ a) : rget b (bump a n s) = rget b s := rget_rput_ne _ _ h

theorem rget_rset_ne {a b : Nat} (i : Nat) (s : State) (h : b ≠ a) : rget b (rset a i s) = rget b s := rget_rput_ne _ _ h

/-- A register write leaves every other field of the state. -/
theorem rput_only_regs (a v : Nat) (s : State) : rput a v s = { s with regs := (rput a v s).regs } := rfl

/-- An interrupt flag set on a list of links: only registers and outputs change. -/
theorem irqLinks_frame (b : Nat) (ls : List Nat) (s : State) :
    ls.foldl (irqLink b) s = { s with regs := (ls.foldl (irqLink b) s).regs, out := (ls.foldl (irqLink b) s).out } := by
  induction ls generalizing s with
  | nil => rfl
  | cons l ls ih =>
    have h : irqLink b s l = { s with regs := (irqLink b s l).regs, out := (irqLink b s l).out } := by
      unfold irqLink; simp only []; split <;> rfl
    rw [List.foldl_cons, ih, h]

theorem irqAll_frame (b : Nat) (s : State) : irqAll b s = { s with regs := (irqAll b s).regs, out := (irqAll b s).out } :=
  irqLinks_frame b _ s

/-! ## Byte memories -/

theorem memByte_memSet (m : Tab Nat) (a v x : Nat) : memByte (memSet m a v) x = if a = x then v % 256 else memByte m x := by
  unfold memByte memSet
  split
  · rename_i h; rw [tabGet_tabDel]; split <;> simp [h]
  · rw [tabGet_tabPut]; split <;> rfl

/-- Writing bytes leaves every byte outside them. -/
theorem memByte_memWrite_out (bs : List Nat) : ∀ (m : Tab Nat) (a x : Nat), x < a ∨ a + bs.length ≤ x → memByte (memWrite m a bs) x = memByte m x := by
  induction bs with
  | nil => intro m a x _; rfl
  | cons b r ih =>
    intro m a x h
    simp only [List.length_cons] at h
    show memByte (memWrite (memSet m a b) (a + 1) r) x = _
    rw [ih _ _ _ (by omega), memByte_memSet, if_neg (by omega)]

theorem Memory.wfFrom_mono {m : Tab Nat} {lo lo' : Nat} (h : lo' ≤ lo) (hm : Memory.wfFrom lo m = true) : Memory.wfFrom lo' m = true := by
  cases m with
  | nil => rfl
  | cons e r => obtain ⟨a, v⟩ := e; simp only [Memory.wfFrom, Bool.and_eq_true, decide_eq_true_eq] at hm ⊢; exact ⟨⟨⟨Nat.le_trans h hm.1.1.1, hm.1.1.2⟩, hm.1.2⟩, hm.2⟩

theorem Memory.wfFrom_tabPut {m : Tab Nat} {lo a v : Nat} (ha : lo ≤ a) (h0 : 0 < v) (h1 : v < 256) (hm : Memory.wfFrom lo m = true) :
    Memory.wfFrom lo (tabPut m a v) = true := by
  induction m generalizing lo with
  | nil => simp [tabPut, Memory.wfFrom, ha, h0, h1]
  | cons e r ih =>
    obtain ⟨k, w⟩ := e
    simp only [Memory.wfFrom, Bool.and_eq_true, decide_eq_true_eq] at hm
    unfold tabPut
    split
    · rename_i h; simp only [Memory.wfFrom, Bool.and_eq_true, decide_eq_true_eq]; exact ⟨⟨⟨ha, h0⟩, h1⟩, ⟨⟨⟨by omega, hm.1.1.2⟩, hm.1.2⟩, hm.2⟩⟩
    · split
      · rename_i h2; subst h2; simp only [Memory.wfFrom, Bool.and_eq_true, decide_eq_true_eq]; exact ⟨⟨⟨ha, h0⟩, h1⟩, hm.2⟩
      · simp only [Memory.wfFrom, Bool.and_eq_true, decide_eq_true_eq]; exact ⟨hm.1, ih (by omega) hm.2⟩

theorem Memory.wfFrom_tabDel {m : Tab Nat} {lo a : Nat} (hm : Memory.wfFrom lo m = true) : Memory.wfFrom lo (tabDel m a) = true := by
  induction m generalizing lo with
  | nil => rfl
  | cons e r ih =>
    obtain ⟨k, w⟩ := e
    simp only [Memory.wfFrom, Bool.and_eq_true, decide_eq_true_eq] at hm
    unfold tabDel
    split
    · exact Memory.wfFrom_mono (by omega) (ih hm.2)
    · simp only [Memory.wfFrom, Bool.and_eq_true, decide_eq_true_eq]; exact ⟨hm.1, ih hm.2⟩

/-- A byte write keeps the canonical form of a memory. -/
theorem Memory.wf_memSet {m : Tab Nat} (a v : Nat) (hm : Memory.wf m = true) : Memory.wf (memSet m a v) = true := by
  unfold memSet; split
  · exact Memory.wfFrom_tabDel hm
  · exact Memory.wfFrom_tabPut (Nat.zero_le _) (by omega) (Nat.mod_lt _ (by decide)) hm

/-- A write of bytes keeps the canonical form of a memory. -/
theorem Memory.wf_memWrite (bs : List Nat) : ∀ {m : Tab Nat} (a : Nat), Memory.wf m = true → Memory.wf (memWrite m a bs) = true := by
  induction bs with
  | nil => intro m a h; exact h
  | cons b r ih => intro m a h; exact ih _ (Memory.wf_memSet a b h)

end Sys2Proof.Machine
end

