-- ==== Sys2Proof/Laws/Rows.lean ====
section
/-! SUPPORT. Sys2Proof/Laws/Rows.lean: the one form that every row of the table has, and what follows for command packets, register writes
and events. -/

namespace Sys2Proof

theorem exec_packet (i : Instr) (p : Machine.Pack) (s : Machine.State) (h : Machine.packetOf i = some p) : Machine.exec i s = Machine.packet i p s := by
  cases i <;> first | (simp only [Machine.packetOf, Option.some.injEq] at h; subst h; rfl) | (simp only [Machine.packetOf] at h; contradiction)

/-- Every row runs as `happen` of its instant and its effect. -/
theorem exec_is_happen (c : Instr) (s : Machine.State) : ∃ t f, Machine.exec c s = Machine.happen t f s := by
  cases c <;> exact ⟨_, _, rfl⟩

open Machine

/-- What the end of a row keeps, whatever the row did. -/
theorem conclude_keeps (t : Nat) (s n : State) :
    s.now ≤ (conclude t s n).now ∧ (conclude t s n).dev.ha = s.dev.ha ∧ (conclude t s n).pending = s.pending :=
  ⟨Nat.le_max_right _ _, rfl, rfl⟩

/-- What `happen` keeps whatever the effect. -/
theorem happen_keeps (t : Nat) (f : State → State) (s : State) :
    ∃ u, happen t f s = .next u ∧ s.now ≤ u.now ∧ u.dev.ha = s.dev.ha ∧ u.pending = s.pending := by
  unfold happen
  generalize settle (f (arrive t s)) = n
  exact ⟨_, rfl, conclude_keeps t s n⟩

/-! ## Command packets -/

/-- Row `i` passed every check and is carried out: what `exec` answers. -/
theorem exec_of_judged {i : Instr} {p : Pack} {c : Cmd} {s0 b : State} {tk : Ticket} {v : Vals} (hp : packetOf i = some p) (hc : p.cmd = some c)
    (h : judged i s0 = some (tk, v, b)) : exec i s0 = .next (finished i tk s0 (perform c tk v b)) := by
  rw [exec_packet i p s0 hp]
  simp only [judged, hp, hc] at h
  unfold packet happen receive finished serve
  simp only [hp, hc]
  generalize hk : intake i p (arrive p.h.t s0) = r at h ⊢
  obtain ⟨o, u⟩ := r
  cases o with
  | none => simp at h
  | some sid =>
    simp only at h ⊢
    generalize hj : judge c p sid u = j at h ⊢
    cases j with
    | refuse => simp at h
    | queue => simp at h
    | run vals adj =>
      simp only [Option.some.injEq, Prod.mk.injEq] at h
      obtain ⟨rfl, rfl, rfl⟩ := h
      rfl

/-- What it says that a row passed every check: the packet was taken in for a session, and judged to run with the values and the mask. -/
theorem judge_of_judged {i : Instr} {p : Pack} {c : Cmd} {s0 b : State} {tk : Ticket} {v : Vals} (hp : packetOf i = some p) (hc : p.cmd = some c)
    (h : judged i s0 = some (tk, v, b)) :
    intake i p (arrive p.h.t s0) = (some tk.session, b) ∧ judge c p tk.session b = .run v tk.adj ∧ tk.queued = false ∧ tk.op = p.op ∧
      tk.seq = p.h.seq ∧ tk.via = p.h.via := by
  simp only [judged, hp, hc] at h
  generalize hk : intake i p (arrive p.h.t s0) = r at h ⊢
  obtain ⟨o, u⟩ := r
  cases o with
  | none => simp at h
  | some sid =>
    simp only at h
    generalize hj : judge c p sid u = j at h
    cases j with
    | refuse => simp at h
    | queue => simp at h
    | run vals adj =>
      simp only [Option.some.injEq, Prod.mk.injEq] at h
      obtain ⟨rfl, rfl, rfl⟩ := h
      exact ⟨rfl, hj, rfl, rfl, rfl, rfl⟩

/-- An accepted row was judged in a state, and acts in that state with its session's route and its own tag. -/
theorem judged_of_accepts {i : Instr} {s0 s : State} {tk : Ticket} {v : Vals} (h : accepts i s0 = some (tk, v, s)) :
    judged i s0 = some (tk, v, judgedAt i s0) ∧ acting tk (judgedAt i s0) = s := by
  unfold accepts at h; unfold judgedAt
  generalize judged i s0 = r at h ⊢
  match r, h with
  | some (tk', v', b), h => simp only [Option.map_some, Option.some.injEq, Prod.mk.injEq] at h; obtain ⟨rfl, rfl, rfl⟩ := h; exact ⟨rfl, rfl⟩

theorem maxPacket_acting (tk : Ticket) (b : State) (via : Via) : maxPacket (acting tk b) via = maxPacket b via := by
  unfold acting setVia setSess
  split <;> cases via <;> rfl

theorem answers_of_ok {i : Instr} {p : Pack} {c : Cmd} {s0 s e : State} {tk : Ticket} {v : Vals} {ps : List RV} (hp : packetOf i = some p) (hc : p.cmd = some c)
    (hop : p.op = c.opcode) (h : accepts i s0 = some (tk, v, s)) (ha : c.act tk v s = .ok e ps) : answers i s0 tk v s e ps := by
  intro hl
  obtain ⟨hj, rfl⟩ := judged_of_accepts h
  have hq := judge_of_judged hp hc hj
  rw [maxPacket_acting] at hl
  have hn : ¬ (maxPacket (judgedAt i s0) tk.via < 32 + (rvBytes ps).length) := by omega
  rw [exec_of_judged hp hc hj]
  simp only [perform, ha, hq.2.2.1, hq.2.2.2.1, hop, classed, hp, hc, hn, Bool.not_false, true_and, if_false]

theorem defers_of_later {i : Instr} {p : Pack} {c : Cmd} {s0 s e : State} {tk : Ticket} {v : Vals} (hp : packetOf i = some p) (hc : p.cmd = some c)
    (h : accepts i s0 = some (tk, v, s)) (ha : c.act tk v s = .later e) : defers i s0 tk v e := by
  obtain ⟨hj, rfl⟩ := judged_of_accepts h
  unfold defers
  rw [exec_of_judged hp hc hj]
  simp only [perform, ha, classed, hp, hc]

theorem declines_of_no {i : Instr} {p : Pack} {c : Cmd} {s0 s : State} {tk : Ticket} {v : Vals} {st : Nat} {ps : List RV} (hp : packetOf i = some p)
    (hc : p.cmd = some c) (hop : p.op = c.opcode) (h : accepts i s0 = some (tk, v, s)) (ha : c.act tk v s = .no st ps) : declines i s0 tk st ps := by
  obtain ⟨hj, rfl⟩ := judged_of_accepts h
  unfold declines
  rw [exec_of_judged hp hc hj]
  simp only [perform, ha, (judge_of_judged hp hc hj).2.2.2.1, hop]

theorem receive_of_none {i : Instr} {p : Pack} {s u : State} (h : intake i p s = (none, u)) : receive i p s = u := by unfold receive; rw [h]

theorem receive_of_some {i : Instr} {p : Pack} {s u : State} {sid : Nat} (h : intake i p s = (some sid, u)) :
    receive i p s = drainHeld 16 sid (serve i p sid u) := by unfold receive; rw [h]

theorem serve_refused {i : Instr} {p : Pack} {c : Cmd} {sid : Nat} {u : State} {st : Nat} {ps : List RV} (hc : p.cmd = some c)
    (hj : judge c p sid u = .refuse st ps) :
    serve i p sid u = answer (if p.op = 1 then rawTicket p else { rawTicket p with session := sid }) st ps u := by
  unfold serve; simp only [hc, hj]

theorem fetch_on_dead_link (via : Via) (s : State) (h : s.rcp.rst.isSome ∨ s.dev.asleep = true) : fetch via s = none := by
  unfold fetch; rw [if_pos]; rcases h with h | h
  · exact .inl h
  · exact .inr (.inl h)

theorem receive_on_dead_link (i : Instr) (p : Pack) (s : State) (h : s.rcp.rst.isSome ∨ s.dev.asleep = true) : receive i p s = s := by
  unfold receive intake
  simp only [fetch_on_dead_link p.h.via s h]
  split <;> rename_i hh <;> split at hh <;> simp_all

/-! ## Register writes and events -/

theorem becomes_within {i : Instr} {t : Nat} {ws : List Nat} {s u e : State} {f : State → State} (h : reaches t ws s u)
    (hx : exec i s = happen t (within ws f) s) (he : f u = e) : becomes i t s e := by
  obtain ⟨rfl, ha, hw⟩ := h
  unfold becomes; rw [hx]; unfold happen
  have : (ws.any fun w => wrapClosed w (arrive t s)) = false := by simpa using hw
  simp [within, ha, this, he]

theorem becomes_fast {i : Instr} {t : Nat} {s u e : State} {f : State → State} (h : reaches t [] s u) (hx : exec i s = happen t (fast f) s)
    (he : f u = e) : becomes i t s e := by
  obtain ⟨rfl, ha, hw⟩ := h
  unfold becomes; rw [hx]; unfold happen
  simp [fast, ha, he]

theorem becomes_row {i : Instr} {t : Nat} {s u e : State} {f : State → State} (h : arrive t s = u) (hx : exec i s = happen t f s) (he : f u = e) :
    becomes i t s e := by
  subst h; unfold becomes; rw [hx]; unfold happen; rw [he]

/-! ## What follows at once -/

theorem settle_ends_with_pins (s : State) : ∃ z, settle s = judgeThermN (judgeFaultN z) := ⟨_, rfl⟩

theorem pins_frame (s : State) :
    ∃ f g o, judgeThermN (judgeFaultN s) = { s with rcp := { s.rcp with faultN := f, thermN := g }, out := o } := by
  have a : ∃ f o, judgeFaultN s = { s with rcp := { s.rcp with faultN := f }, out := o } := by
    unfold judgeFaultN
    simp only []
    split
    · exact ⟨s.rcp.faultN, s.out, rfl⟩
    · exact ⟨_, _, rfl⟩
  obtain ⟨f, o, e⟩ := a
  rw [e]
  unfold judgeThermN
  simp only []
  split
  · exact ⟨f, s.rcp.thermN, o, rfl⟩
  · exact ⟨f, _, _, rfl⟩

/-! ## Replies -/

theorem flushList_frame (l p : Nat) : ∀ (cs : List Compl) (q : QPair) (s : State),
    (flushList l p cs q s).2 = { s with out := (flushList l p cs q s).2.out } := by
  intro cs; induction cs with
  | nil => intro q s; rfl
  | cons c cs ih =>
    intro q s; unfold flushList; split
    · rw [ih]; rfl
    · rfl

theorem postCompl_frame (l p : Nat) (c : Compl) (s : State) :
    postCompl l p c s = { s with dev := { s.dev with pairs := (postCompl l p c s).dev.pairs }, out := (postCompl l p c s).out } := by
  unfold postCompl flushPair; simp only []
  split
  · rfl
  · rw [flushList_frame]

/-- Sending a reply changes the queue pairs and the outputs only. -/
theorem sendReply_frame (v : Via) (r : Reply) (s : State) :
    sendReply v r s = { s with dev := { s.dev with pairs := (sendReply v r s).dev.pairs }, out := (sendReply v r s).out } := by
  unfold sendReply; split
  · exact postCompl_frame _ _ _ _
  · rfl

/-- Sending a notification changes the queue pairs and the outputs only. -/
theorem sendNoteVia_frame (v : Via) (r : Reply) (s : State) :
    sendNoteVia v r s = { s with dev := { s.dev with pairs := (sendNoteVia v r s).dev.pairs }, out := (sendNoteVia v r s).out } := by
  unfold sendNoteVia; split
  · split
    · split
      · rfl
      · exact postCompl_frame _ _ _ _
    · rfl
  · rfl

end Sys2Proof
end

