-- ==== Sys2Proof/Laws/Clamp.lean ====
section
/-! SUPPORT. Sys2Proof/Laws/Clamp.lean: what clamping a number gives (R84). -/

namespace Sys2Proof.Machine

theorem nearer_spec (x a b : Int) : (nearer x a b = a ∨ nearer x a b = b) ∧
   ((x - nearer x a b).natAbs < (x - a).natAbs ∨ ((x - nearer x a b).natAbs = (x - a).natAbs ∧ (nearer x a b).natAbs ≤ a.natAbs)) ∧
   ((x - nearer x a b).natAbs < (x - b).natAbs ∨ ((x - nearer x a b).natAbs = (x - b).natAbs ∧ (nearer x a b).natAbs ≤ b.natAbs)) := by
  unfold nearer; split
  · omega
  · split
    · omega
    · split <;> omega

theorem nearest_spec (x : Int) : ∀ xs : List Int, xs ≠ [] → nearest x xs ∈ xs ∧ ∀ y ∈ xs, (x - nearest x xs).natAbs < (x - y).natAbs ∨ ((x - nearest x xs).natAbs = (x - y).natAbs ∧ (nearest x xs).natAbs ≤ y.natAbs) := by
  intro xs; induction xs with
  | nil => intro h; cases h rfl
  | cons a r ih =>
    intro _
    cases r with
    | nil => simp [nearest]
    | cons b r =>
      have ih := ih (by simp)
      rw [show nearest x (a :: b :: r) = nearer x a (nearest x (b :: r)) from rfl]
      generalize hn : nearest x (b :: r) = n at ih ⊢
      obtain ⟨h1, h2⟩ := ih
      obtain ⟨k1, k2, k3⟩ := nearer_spec x a n
      refine ⟨?_, ?_⟩
      · rcases k1 with k | k <;> rw [k]
        · simp
        · exact List.mem_cons_of_mem _ h1
      · intro y hy
        rcases List.mem_cons.1 hy with rfl | hy
        · exact k2
        · have := h2 y hy; omega

theorem clampI_spec (lo hi x : Int) (h : lo ≤ hi) : lo ≤ clampI lo hi x ∧ clampI lo hi x ≤ hi ∧ (lo ≤ x ∧ x ≤ hi → clampI lo hi x = x) ∧ (x < lo → clampI lo hi x = lo) ∧ (hi < x → clampI lo hi x = hi) := by
  unfold clampI; split
  · omega
  · split <;> omega

end Sys2Proof.Machine
end

