-- ==== Sys2Proof/Laws/Frames.lean ====
section
/-! SUPPORT. Sys2Proof/Laws/Frames.lean: everything that notifications, answers and the publication of an event can change. -/

namespace Sys2Proof.Machine

/-! ## Notifications -/

/-- A notification changes the session's number, the queue pairs and the outputs only. -/
theorem notify_frame (sid op tag st : Nat) (ps : List RV) (s : State) :
    notify sid op tag st ps s = { s with
      dev := { s.dev with sessions := (notify sid op tag st ps s).dev.sessions, pairs := (notify sid op tag st ps s).dev.pairs }
      out := (notify sid op tag st ps s).out } := by
  unfold notify
  split
  · rfl
  · rw [sendNoteVia_frame]

/-- A notification to one session leaves every other session, and keeps the session open. -/
theorem notify_sessions (sid op tag st : Nat) (ps : List RV) (s : State) (n : Nat) :
    sess (notify sid op tag st ps s) n = if n = sid then (sess s n).map fun x => { x with noteNo := (x.noteNo + 1) % 2 ^ 32 } else sess s n := by
  unfold notify
  split
  · rename_i h; split
    · rename_i e; subst e
      have : sess s n = none := h
      rw [this]; rfl
    · rfl
  · rename_i x h
    rw [sendNoteVia_frame]
    show tabGet (tabPut s.dev.sessions sid _) n = _
    rw [tabGet_tabPut]
    split
    · rename_i e; subst e
      have : sess s sid = some x := h
      rw [if_pos rfl, this]; rfl
    · rename_i e; rw [if_neg (Ne.symm e)]; rfl

/-- The sessions that are open, with everything but the numbers of their notifications. -/
theorem notifyList_frame (op st : Nat) (g : State → Nat) (ps : List RV) (l : List (Nat × Sess)) : ∀ s : State,
    let t := l.foldl (fun s e => notify e.1 op (g s) st ps s) s
    t = { s with dev := { s.dev with sessions := t.dev.sessions, pairs := t.dev.pairs }, out := t.out } := by
  induction l with
  | nil => intro s; rfl
  | cons e l ih =>
    intro s; simp only [List.foldl_cons]
    have h := ih (notify e.1 op (g s) st ps s)
    simp only at h
    rw [h, notify_frame]

theorem notifyWhere_frame (who : Nat → Sess → Bool) (op st : Nat) (ps : List RV) (s : State) :
    notifyWhere who op st ps s = { s with
      dev := { s.dev with sessions := (notifyWhere who op st ps s).dev.sessions, pairs := (notifyWhere who op st ps s).dev.pairs }
      out := (notifyWhere who op st ps s).out } := notifyList_frame op st (fun s : State => (s.dev.cause.map fun c : Nat × Nat => c.2).getD 0) ps _ s

theorem notifySubs_frame (op : Nat) (ps : List RV) (s : State) :
    notifySubs op ps s = { s with
      dev := { s.dev with sessions := (notifySubs op ps s).dev.sessions, pairs := (notifySubs op ps s).dev.pairs }
      out := (notifySubs op ps s).out } := notifyWhere_frame _ _ _ _ s

theorem limited_frame (op kind idx n : Nat) (s : State) : ∃ l, (limited op kind idx n s).2 = { s with limits := l } := by
  unfold limited
  simp only []
  split
  · exact ⟨_, rfl⟩
  · split <;> exact ⟨_, rfl⟩

/-- A rate-limited notification also changes the record of the limits. -/
theorem notifyLimited_frame (op kind idx n : Nat) (mk : Nat → List RV) (s : State) :
    notifyLimited op kind idx n mk s = { s with
      limits := (notifyLimited op kind idx n mk s).limits
      dev := { s.dev with sessions := (notifyLimited op kind idx n mk s).dev.sessions, pairs := (notifyLimited op kind idx n mk s).dev.pairs }
      out := (notifyLimited op kind idx n mk s).out } := by
  obtain ⟨l, h⟩ := limited_frame op kind idx n s
  unfold notifyLimited
  generalize limited op kind idx n s = r at h ⊢
  obtain ⟨o, u⟩ := r
  simp only at h
  subst h
  cases o with
  | none => rfl
  | some c => simp only []; rw [notifySubs_frame]

/-! ## Publication of events -/

/-- Publishing on a channel changes the registers, the limits, the router, the sessions, the queue pairs and the outputs only. -/
theorem publishOn_frame (o : Option Nat) (s : State) (c : PEvrChannel) :
    let t := publishOn o s c
    t = { s with regs := t.regs, limits := t.limits, evr := t.evr, dev := { s.dev with sessions := t.dev.sessions, pairs := t.dev.pairs }, out := t.out } := by
  unfold publishOn
  simp only []
  split
  · rw [evrNotify, notifyLimited_frame]; rfl
  · split
    · rfl
    · split
      · rw [evrNotify, notifyLimited_frame]
        split
        · rw [irqAll_frame]; rfl
        · rfl
      · split
        · rw [irqAll_frame]; rfl
        · rfl

theorem publishFrom_frame (o : Option Nat) (src : Nat) (s : State) :
    let t := publishFrom o src s
    t = { s with regs := t.regs, limits := t.limits, evr := t.evr, dev := { s.dev with sessions := t.dev.sessions, pairs := t.dev.pairs }, out := t.out } := by
  have key : ∀ (l : List PEvrChannel) (s : State), let t := l.foldl (publishOn o) s
      t = { s with regs := t.regs, limits := t.limits, evr := t.evr, dev := { s.dev with sessions := t.dev.sessions, pairs := t.dev.pairs }, out := t.out } := by
    intro l; induction l with
    | nil => intro s; rfl
    | cons c l ih =>
      intro s; simp only [List.foldl_cons]
      have h := ih (publishOn o s c); simp only at h
      have h2 := publishOn_frame o s c; simp only at h2
      rw [h, h2]
  unfold publishFrom
  simp only []
  split
  · rfl
  · have h := key ((s.cfg.chans.map fun e => e.2).filter fun c => c.enable = 1 && c.source = src) (emit (.event src) s)
    simp only at h
    rw [h]; rfl

/-! ## Answers -/

theorem refuseRaw_frame (tk : Ticket) (st : Nat) (ps : List RV) (s : State) :
    refuseRaw tk st ps s = { s with dev := { s.dev with pairs := (refuseRaw tk st ps s).dev.pairs }, out := (refuseRaw tk st ps s).out } := by
  exact sendReply_frame _ _ _

end Sys2Proof.Machine
end

