-- ==== Sys2Proof/Laws/Held.lean ====
section
/-! SUPPORT. Sys2Proof/Laws/Held.lean: what the block does while a reset of System reach or wider holds it (R573, R574). -/

namespace Sys2Proof

open Machine

/-! ## Time -/

theorem evrRun_of_empty (t : Nat) : ∀ k s, s.evr = {} → evrRun t k s = s := by
  intro k s h
  cases k with
  | zero => rfl
  | succ k =>
    have : evrNext s = none := by unfold evrNext; rw [h]; rfl
    simp [evrRun, this]

theorem exposeTo_of_held (t : Nat) {s : State} (h : heldReset s) : exposeTo t s = s := by
  have hp : s.pos = {} := h.2.2.2.2.2.2.1
  unfold exposeTo; rw [hp]; rfl

theorem advance_of_held (t : Nat) (s : State) (h : heldReset s) : advance t s = moveTo t s := by
  unfold advance; rw [exposeTo_of_held t h, evrRun_of_empty t _ s]; exact h.2.2.2.2.2.2.2.1

/-- No port holds anything in a held reset. -/
theorem port_of_held {s : State} (h : heldReset s) (n : Nat) : port s n = {} := by
  have hl : s.lnk = {} := h.2.2.2.2.1
  unfold port; rw [hl]
  show (List.replicate 16 ({} : Port)).getD n {} = {}
  rw [List.getD_eq_getElem?_getD, List.getElem?_replicate]
  split <;> rfl

theorem foldl_id {α β : Type} (f : α → β → α) (a : α) (h : ∀ b, f a b = a) (l : List β) : l.foldl f a = a := by
  induction l with
  | nil => rfl
  | cons b r ih => rw [List.foldl_cons, h, ih]

/-- No back-channel runs in a held reset. -/
theorem backRun_of_held (t : Nat) {s : State} (h : heldReset s) : backRun t s = s := by
  unfold backRun
  refine foldl_id _ s (fun n => ?_) _
  rw [port_of_held h n]; rfl

theorem moveTo_frame (t : Nat) {s : State} (h : heldReset s) : ∃ n x, moveTo t s = { s with now := n, tmu := x } := by
  unfold moveTo; split
  · exact ⟨s.now, s.tmu, rfl⟩
  · rw [backRun_of_held t h]; exact ⟨_, _, rfl⟩

theorem held_of_time {s : State} (n : Nat) (x : Tmu) (h : heldReset s) : heldReset { s with now := n, tmu := x } := h

theorem deferLapse_of_held {s : State} (h : heldReset s) : deferLapse s = s := by
  obtain ⟨⟨r, hr, he, hdf⟩, hw, ⟨code, hd⟩, hc, hl, hf, hp, hv, hx, hm, hk, hcl, hvc, hdm, t1, t2, t3, t4, hh, hn, h3t, hfu, hsr⟩ := h
  have h1 : pulsePast s = s := by unfold pulsePast; rw [hfu]
  have h2 : ∀ b, deferOf s b = none := by intro b; unfold deferOf; cases b <;> simp [hw, tabGet, hr, hdf]
  unfold deferLapse; rw [h1]
  exact foldl_id _ s (fun b => by unfold deferLate; rw [h2 b]) _

theorem neighboursDue_of_held {s : State} (h : heldReset s) : neighboursDue s = s := by
  have hs : s.dmc.selfRef = true ∨ s.dmc.chans.all (fun e => e.2.nbr.isEmpty) = true := h.2.2.2.2.2.2.2.2.2.2.2.2.2.2.2.2.2.2.2.2.2.2
  unfold neighboursDue; rw [if_pos hs]

theorem portsLapse_of_held {s : State} (h : heldReset s) : portsLapse s = s := by
  unfold portsLapse
  exact foldl_id _ s (fun n => by unfold portLapse; simp only [port_of_held h n]) _

theorem lapse_of_held {s : State} (h : heldReset s) : lapse s = s := by
  have hd : ∃ code, s.dev = { ha := code } := h.2.2.1
  have h0 : portsLapse (neighboursDue (deferLapse s)) = s := by rw [deferLapse_of_held h, neighboursDue_of_held h, portsLapse_of_held h]
  clear h
  obtain ⟨code, hd⟩ := hd
  have h1 : s.dev.sessions = [] := by rw [hd]
  have h2 : s.dev.owner = none := by rw [hd]
  have h3 : s.dev.opens = [] := by rw [hd]
  unfold lapse
  rw [h0]
  simp [h1, h2, idleClose, forgetOpens, setDev, h3]
  cases s; simp_all

theorem arrive_of_held {s : State} (t : Nat) (h : heldReset s) : ∃ n x, arrive t s = { s with now := n, tmu := x } := by
  unfold arrive; rw [advance_of_held t s h]
  obtain ⟨n, x, e⟩ := moveTo_frame t h
  rw [e, lapse_of_held (held_of_time n x h)]; exact ⟨n, x, rfl⟩

/-! ## What follows at once -/

theorem enterLines_of_held {s : State} (h : heldReset s) : enterLines s = s := by
  obtain ⟨⟨r, hr, he, hdf⟩, hw, ⟨code, hd⟩, hc, hl, hf, hp, hv, hx, hm, hk, hcl, hvc, hdm, t1, t2, t3, t4, hh, hn, h3t, hfu, hsr⟩ := h
  unfold enterLines stitch; simp [wrapClosed, hw, tabGet, hc]

theorem markFinish_of_held {s : State} (h : heldReset s) : markFinish s = s := by
    obtain ⟨⟨r, hr, he, hdf⟩, hw, ⟨code, hd⟩, hc, hl, hf, hp, hv, hx, hm, hk, hcl, hvc, hdm, t1, t2, t3, t4, hh, hn, h3t, hfu, hsr⟩ := h
    have a1 : markOrigin s = s := by simp [markOrigin, hk]
    have a2 : ∀ h, judgeEn s h = s := by
      intro h; unfold judgeEn enWanted mhead; simp [hc, hk, tabGet]
    have a3 : ∀ l : List Nat, l.foldl judgeEn s = s := by
      intro l; induction l with
      | nil => rfl
      | cons x r ih => rw [List.foldl_cons, a2, ih]
    have a4 : judgeSlow s = s := by simp [judgeSlow, hd, runningState]
    have a5 : judgeStop s = s := by simp [judgeStop, hk]
    have a6 : (s.mrk.heads.any fun e => ! e.2.dots.isEmpty || e.2.jr.isSome) = false := by simp [hk]
    have a7 : s.mrk.inbox = [] ∧ s.mrk.pend = [] ∧ s.mrk.slow = false ∧ s.mrk.stop = false ∧ s.mrk.rev = false := by simp [hk]
    simp [markFinish, a1, a6, a7, a3, a4, a5]

theorem armJudge_of_held {s : State} (h : heldReset s) : armJudge s = s ∧ drainFinish s = s := by
  obtain ⟨⟨r, hr, he, hdf⟩, hw, ⟨code, hd⟩, hc, hl, hf, hp, hv, hx, hm, hk, hcl, hvc, hdm, t1, t2, t3, t4, hh, hn, h3t, hfu, hsr⟩ := h
  exact ⟨by simp [armJudge, hd], by simp [drainFinish, hd]⟩

theorem startFrames_of_held {s : State} (h : heldReset s) : startFrames s = s := by
  obtain ⟨⟨r, hr, he, hdf⟩, hw, ⟨code, hd⟩, hc, hl, hf, hp, hv, hx, hm, hk, hcl, hvc, hdm, t1, t2, t3, t4, hh, hn, h3t, hfu, hsr⟩ := h
  simp [startFrames, startFront, hcl]

theorem tbcPick_of_held {s : State} (h : heldReset s) : tbcPick s = s := by
  obtain ⟨⟨r, hr, he, hdf⟩, hw, ⟨code, hd⟩, hc, hl, hf, hp, hv, hx, hm, hk, hcl, hvc, hdm, t1, t2, t3, t4, hh, hn, h3t, hfu, hsr⟩ := h
  have : tbcReady s = s.tbc.busy := by unfold tbcReady jobReady; simp [t1, t2, t3, t4, h3t]
  unfold tbcPick setTbc
  simp only [this]

theorem vcuRun_of_held {s : State} (h : heldReset s) : vcuRun s = s := by
  obtain ⟨⟨r, hr, he, hdf⟩, hw, ⟨code, hd⟩, hc, hl, hf, hp, hv, hx, hm, hk, hcl, hvc, hdm, t1, t2, t3, t4, hh, hn, h3t, hfu, hsr⟩ := h
  unfold vcuRun; rw [hvc]
  show vcuPick (0 + 1) s = s
  unfold vcuPick
  simp [hvc, hc]

theorem nvsKick_of_held {s : State} (h : heldReset s) : nvsKick s = s ∧ releaseHeldPlan s = s := by
  obtain ⟨⟨r, hr, he, hdf⟩, hw, ⟨code, hd⟩, hc, hl, hf, hp, hv, hx, hm, hk, hcl, hvc, hdm, t1, t2, t3, t4, hh, hn, h3t, hfu, hsr⟩ := h
  exact ⟨by unfold nvsKick fuseKick; simp [hn, hfu], by simp [releaseHeldPlan, hh]⟩

/-- In a held reset, what follows at once moves the two pins and nothing else. -/
theorem settle_of_held {s : State} (h : heldReset s) : ∃ f g o, settle s = { s with rcp := { s.rcp with faultN := f, thermN := g }, out := o } := by
  have : settle s = judgeThermN (judgeFaultN s) := by
    unfold settle
    simp only [enterLines_of_held h, markFinish_of_held h, ite_self, armJudge_of_held h, startFrames_of_held h, tbcPick_of_held h, vcuRun_of_held h, nvsKick_of_held h]
  rw [this]; exact pins_frame s
/-! ## Rows -/

theorem awake_of_held {s : State} (h : heldReset s) : awake s = false := by
  obtain ⟨⟨r, hr, he, _⟩, _⟩ := h
  simp [awake, hr, he]

theorem fast_of_held {s : State} (f : State → State) (h : heldReset s) : fast f s = s := by simp [fast, awake_of_held h]

theorem within_of_held {s : State} (ws) (f : State → State) (h : heldReset s) : within ws f s = s := by simp [within, awake_of_held h]

theorem hostWrite_of_held {s : State} (v a x) (h : heldReset s) : hostWrite v a x s = s := by
  obtain ⟨⟨r, hr, he, _⟩, _⟩ := h; simp [hostWrite, hr]

theorem resetRow_of_held {s : State} (r v) (h : heldReset s) : resetRow r v s = s := by
  unfold resetRow; rw [hostWrite_of_held _ _ _ h]; split <;> rfl

theorem wrapper_rows_of_held {s : State} (g) (w) (h : heldReset s) : blockReset g w s = s ∧ blockRelease w s = s ∧ wrapperOpen w s = s := by
  have hw := h.2.1
  refine ⟨?_, ?_, ?_⟩
  · unfold blockReset; rw [hw]; rfl
  · unfold blockRelease; rw [hw]; rfl
  · unfold wrapperOpen; rw [hw]; rfl

theorem wakeUp_of_held {s : State} (h : heldReset s) : wakeUp s = s := by
  obtain ⟨_, _, ⟨code, hd⟩, _⟩ := h
  cases s; simp_all [wakeUp, sleepWake]

theorem receive_of_held {s : State} (i p) (h : heldReset s) : receive i p s = s := by
  obtain ⟨⟨r, hr, he, _⟩, _⟩ := h; exact receive_on_dead_link i p s (.inl (by simp [hr]))
/-- A row that does not act on the reset has no effect in a held reset. -/
theorem exec_of_held (c : Instr) (hc : actsInReset c = false) : ∃ t f, (∀ s, exec c s = happen t f s) ∧ ∀ s, heldReset s → f s = s := by
  cases c <;> first
    | (exact ⟨_, _, fun _ => rfl, fun s h => receive_of_held _ _ h⟩)
    | (exact ⟨_, _, fun _ => rfl, fun s h => fast_of_held _ h⟩)
    | (exact ⟨_, _, fun _ => rfl, fun s h => within_of_held _ _ h⟩)
    | (exact ⟨_, _, fun _ => rfl, fun s h => hostWrite_of_held _ _ _ h⟩)
    | (exact ⟨_, _, fun _ => rfl, fun s h => resetRow_of_held _ _ h⟩)
    | (exact ⟨_, _, fun _ => rfl, fun s h => (wrapper_rows_of_held nvsDrop _ h).1⟩)
    | (exact ⟨_, _, fun _ => rfl, fun s h => (wrapper_rows_of_held nvsDrop _ h).2.1⟩)
    | (exact ⟨_, _, fun _ => rfl, fun s h => (wrapper_rows_of_held nvsDrop _ h).2.2⟩)
    | (exact ⟨_, _, fun _ => rfl, fun s h => wakeUp_of_held h⟩)
    | (simp [actsInReset] at hc)

theorem happen_of_held {s : State} (t : Nat) (f : State → State) (h : heldReset s) (hf : ∀ s, heldReset s → f s = s) :
    ∃ n x p q o, happen t f s = .next { s with now := n, tmu := x, rcp := { s.rcp with faultN := p, thermN := q }, out := o } := by
  obtain ⟨n, x, e⟩ := arrive_of_held t h
  have h' : heldReset { s with now := n, tmu := x } := h
  obtain ⟨p, q, o, e2⟩ := settle_of_held h'
  unfold happen
  rw [e, hf _ h', e2]
  exact ⟨_, _, _, _, _, rfl⟩

end Sys2Proof
end

