-- ==== Sys2Proof/WellFormed.lean ====
section
/-! DEFINITION. Sys2Proof/WellFormed.lean: a row's operands fit the fields that carry them: header and parameter fields their widths (R65,
R68, R87), and the indices of events the instances they name (R2, R3). -/

namespace Sys2Proof

open Machine (pktAddr rplAddr rplCap)

/-- A number that an unsigned field of n bytes can hold. -/
def fitU (n x : Nat) : Bool := decide (x < 2 ^ (8 * n))

/-- A number that a signed field of n bytes can hold. -/
def fitS (n : Nat) (x : Int) : Bool := decide (-(2 ^ (8 * n - 1) : Nat) ≤ x ∧ x < (2 ^ (8 * n - 1) : Nat))

def allU (n : Nat) (xs : List Nat) : Bool := xs.all (fitU n)

def allS (n : Nat) (xs : List Int) : Bool := xs.all (fitS n)

/-- A submission entry (R59): 32 bytes, both addresses 4-byte aligned, RPL_CAP at least 32, and the reserved bytes 0. -/
def entryOk (e : List Nat) : Bool :=
  decide (e.length = 32) && allU 1 e && decide (pktAddr e % 4 = 0 ∧ rplAddr e % 4 = 0 ∧ 32 ≤ rplCap e) && (e.drop 24).all fun b => b == 0

/-- A transport that exists: a link and pair, or one of the three Ethernet ports and a 32-bit or 128-bit address. -/
def viaOk : Via → Bool
  | .pcie l p e => decide (l < 4 ∧ p < 64) && entryOk e
  | .udp n v6 a p => decide (n < 3) && fitU (if v6 then 16 else 4) a && fitU 2 p

/-- An apply-at block whose values fit (R87): VALUE is a u64 or an s64. -/
def atsOk (b : AtBlk) : Bool :=
  fitU 1 b.key && fitU 1 b.rsv1 && fitU 2 b.source && fitU 4 b.rsv2 && decide (-(2 ^ 63 : Nat) ≤ b.value ∧ b.value < (2 ^ 64 : Nat))

def hdrOk (h : Hdr) : Bool :=
  viaOk h.via && fitU 4 h.recvLen && fitU 1 h.version && fitU 1 h.flags && fitU 2 h.session && fitU 4 h.seq && fitU 4 h.tag && fitU 4 h.paramLen &&
    fitU 8 h.rest && fitU 4 h.crc && (h.gaps.all fun e => decide (e.1 < h.paramLen) && fitU 1 e.2) &&
    (match h.ats with | some b => atsOk b | none => true)

/-- A Rathal packet whose header fields fit (R129, R130). -/
def pktOk (k : Pkt) : Bool :=
  decide (k.port < 16 ∧ k.stream < 8 ∧ k.fmt < 16 ∧ k.index < 2 ^ 48) && fitU 3 k.length && fitU 2 k.hcrc && fitU 4 k.pcrc && allU 1 k.data &&
  match k.wire with | some w => w.lanes.all fun l => l.all fun x => x == -3 || x == -1 || x == 1 || x == 3 | none => true

/-- The row's operands fit. -/
def Instr.wf : Instr → Bool
  | .sessionOpen h p => hdrOk h && fitU 4 p.idle && fitU 4 p.flags
  | .sessionClose h => hdrOk h
  | .heartbeat h => hdrOk h
  | .claim h p => hdrOk h && fitU 4 p.lease
  | .release h => hdrOk h
  | .transfer h p => hdrOk h && fitU 2 p.target && fitU 4 p.lease
  | .ownerQuery h => hdrOk h
  | .sessionList h p => hdrOk h && fitU 2 p.first && fitU 2 p.count
  | .queueCreate h p => hdrOk h && fitU 1 p.link && fitU 1 p.pair && fitU 2 p.entries && fitU 8 p.sq && fitU 8 p.cq && fitU 8 p.area
  | .queueDelete h p => hdrOk h && fitU 1 p.link && fitU 1 p.pair
  | .identify h => hdrOk h
  | .notifySubscribe h p => hdrOk h && fitU 4 p.mask
  | .stateQuery h => hdrOk h
  | .configCommit h => hdrOk h
  | .configClear h => hdrOk h
  | .configSave h p => hdrOk h && fitU 1 p.slot
  | .configLoad h p => hdrOk h && fitU 1 p.slot
  | .configCheck h => hdrOk h
  | .arm h => hdrOk h
  | .disarm h => hdrOk h
  | .start h => hdrOk h
  | .stop h p => hdrOk h && fitU 4 p.limit
  | .faultClear h => hdrOk h
  | .sleep h => hdrOk h
  | .applyCancel h p => hdrOk h && fitU 4 p.ctag
  | .applyList h p => hdrOk h && fitU 2 p.first && fitU 2 p.count
  | .netConfig h p => hdrOk h && fitU 1 p.iface && fitU 4 p.ip4 && fitU 1 p.pfx && allU 1 p.ip6 && fitU 2 p.port && fitU 4 p.flags
  | .portOpen h p => hdrOk h && fitU 1 p.port && fitU 1 p.kind && fitU 1 p.rate && fitU 1 p.fec && fitU 1 p.lanes
  | .portClose h p => hdrOk h && fitU 1 p.port
  | .streamSet h p => hdrOk h && fitU 1 p.port && fitU 1 p.stream && fitU 4 p.width && fitU 1 p.fmt && fitU 1 p.trig
  | .portProbe h p => hdrOk h && fitU 1 p.port
  | .portStatus h p => hdrOk h && fitU 1 p.port
  | .portCounters h p => hdrOk h && fitU 1 p.port
  | .portCountersClear h p => hdrOk h && fitU 1 p.port
  | .lanePower h p => hdrOk h && fitU 1 p.port && fitU 1 p.mode && fitU 4 p.standbyMs && fitU 4 p.dormantMs
  | .headRegWrite h p => hdrOk h && fitU 1 p.port && fitU 4 p.addr && fitU 4 p.data
  | .headRegRead h p => hdrOk h && fitU 1 p.port && fitU 4 p.addr
  | .calRun h p => hdrOk h && fitU 1 p.port && fitU 1 p.lanes
  | .calPolicy h p => hdrOk h && fitU 4 p.tdelta && fitU 4 p.period && fitU 4 p.qfThr
  | .eyeScan h p => hdrOk h && fitU 1 p.port && fitU 1 p.lane && fitU 1 p.eye && fitU 4 p.offset && fitU 4 p.length
  | .latencyMeasure h p => hdrOk h && fitU 1 p.port
  | .latencyTrim h p => hdrOk h && fitU 1 p.port && fitS 4 p.trim
  | .exposureDelay h p => hdrOk h && fitU 4 p.e
  | .feGeometry h p => hdrOk h && fitU 4 p.width && fitU 4 p.cdPitch && fitU 4 p.mdPitch && fitU 1 p.planes && fitU 1 p.bands && fitU 4 p.fmax && fitU 1 p.mdMode && fitU 4 p.stitchWait
  | .feStreamMap h p => hdrOk h && fitU 1 p.stream && fitU 1 p.plane && fitS 8 p.omd && fitU 4 p.cFirst && fitU 4 p.cLast && allS 8 p.a
  | .feSeam h p => hdrOk h && fitU 1 p.seam && fitU 1 p.left && fitU 1 p.right && fitU 4 p.s0 && fitU 4 p.n
  | .feKernel h p => hdrOk h && fitU 1 p.source && allS 2 p.table
  | .feCoefLoad h p => hdrOk h && fitU 1 p.stream && fitU 1 p.bank && fitU 1 p.kind && fitU 4 p.first && fitU 4 p.count && allS 2 p.data
  | .feBankSelect h p => hdrOk h && fitU 1 p.port && fitU 1 p.streams && fitU 1 p.bank
  | .feShading h p => hdrOk h && fitU 1 p.stream && fitU 1 p.mode && fitU 2 p.t && fitU 4 p.k && fitU 1 p.a && fitU 2 p.lo && fitU 2 p.hi
  | .feSettingLatency h p => hdrOk h && fitU 1 p.port && fitU 1 p.entry && fitU 1 p.enable && fitU 4 p.addr && fitU 4 p.m && fitU 4 p.v && fitU 4 p.lambda && fitU 1 p.streams && fitU 1 p.bank
  | .feMetaKey h p => hdrOk h && fitU 1 p.port && fitU 1 p.streams && fitU 1 p.enable && fitU 2 p.offset && fitU 1 p.mask && fitU 1 p.shift && allU 1 p.map
  | .feStatus h p => hdrOk h && fitU 1 p.port
  | .feCapture h p => hdrOk h && fitU 1 p.stream && fitU 1 p.stage && fitU 4 p.offset && fitU 4 p.length
  | .feCountersClear h => hdrOk h
  | .encConfig h p => hdrOk h && fitU 1 p.axis && fitU 1 p.type && fitU 1 p.filt && fitU 8 p.scale && fitU 1 p.invert && fitU 4 p.nz && fitU 1 p.wordBits && fitU 1 p.gray && fitU 4 p.clockKhz && fitU 4 p.sampleNs && fitU 4 p.lineDelayNs
  | .observerSet h p => hdrOk h && fitU 1 p.axis && fitU 4 p.bw && fitU 4 p.hyst && fitU 4 p.startDist && fitU 4 p.stopMs
  | .posOrigin h p => hdrOk h && fitU 1 p.axis && fitS 8 p.md0 && fitU 1 p.mode && fitU 1 p.latch
  | .ltgConfig h p => hdrOk h && fitU 1 p.gen && fitU 1 p.axis && fitU 4 p.pitch && fitS 8 p.phase && fitU 1 p.mode && fitU 4 p.minInt
  | .ltgEnable h p => hdrOk h && fitU 1 p.gen && fitU 1 p.enable
  | .cmpConfig h p => hdrOk h && fitU 1 p.ch && fitU 1 p.axis && fitU 1 p.mode && fitU 4 p.base && fitU 4 p.len && fitU 4 p.pulse && fitS 8 p.start && fitU 8 p.pitch && fitU 4 p.count
  | .cmpListLoad h p => hdrOk h && fitU 1 p.ch && fitU 4 p.first && fitU 4 p.count && allU 1 p.data
  | .cmpEnable h p => hdrOk h && fitU 1 p.ch && fitU 1 p.enable
  | .latchConfig h p => hdrOk h && fitU 1 p.latch && fitU 1 p.axis && fitU 1 p.source && fitU 1 p.edge
  | .latchRead h p => hdrOk h && fitU 1 p.latch && fitU 1 p.max
  | .posStatus h p => hdrOk h && fitU 1 p.axis
  | .posCountersClear h => hdrOk h
  | .timeSource h p => hdrOk h && fitU 1 p.source
  | .timeSet h p => hdrOk h && fitU 8 p.sec && fitU 4 p.ns
  | .timeRelearn h => hdrOk h
  | .timeStatus h => hdrOk h
  | .ptpConfig h p => hdrOk h && fitU 1 p.iface && fitU 1 p.profile && fitU 1 p.transport && fitU 1 p.oneStep && fitU 1 p.domain && fitS 1 p.syncLog && fitS 1 p.delayLog && fitS 1 p.annLog && fitU 1 p.prio1 && fitU 1 p.prio2 && fitU 1 p.slaveOnly
  | .ppsConfig h p => hdrOk h && fitU 1 p.enable && fitS 4 p.offset && fitU 4 p.width
  | .ttrConfig h p => hdrOk h && fitU 1 p.trig && fitU 1 p.enable && fitU 8 p.sec && fitU 4 p.ns && fitU 8 p.period && fitU 1 p.drive && fitU 4 p.pulse
  | .tcpConfig h p => hdrOk h && fitU 1 p.cap && fitU 1 p.source && fitU 1 p.edge
  | .tcpRead h p => hdrOk h && fitU 1 p.cap && fitU 1 p.max
  | .timeRead h => hdrOk h
  | .graphNode h p => hdrOk h && fitU 1 p.slot && fitU 1 p.node && fitU 1 p.kernel && allU 1 p.inputs && allS 4 p.par
  | .graphClear h p => hdrOk h && fitU 1 p.slot
  | .gradeRules h p => hdrOk h && fitU 1 p.slot && fitU 1 p.first && fitU 1 p.count && allU 1 p.data
  | .markTable h p => hdrOk h && fitU 1 p.slot && fitU 1 p.first && fitU 2 p.count && allU 1 p.data
  | .graphSelect h p => hdrOk h && fitU 1 p.slot
  | .graphParam h p => hdrOk h && fitU 1 p.slot && fitU 1 p.node && fitU 1 p.par && fitS 4 p.value
  | .verifyGraph h p => hdrOk h && fitU 1 p.slot && fitU 1 p.cluster && fitU 1 p.port
  | .graphBudget h p => hdrOk h && fitU 1 p.slot && fitU 4 p.rate && fitU 4 p.backlogMax
  | .graphCost h p => hdrOk h && fitU 1 p.slot
  | .elxStatus h p => hdrOk h && fitU 1 p.cluster
  | .elxCountersClear h => hdrOk h
  | .elxGating h p => hdrOk h && fitU 4 p.idleMs
  | .modelStage h p => hdrOk h && fitU 2 p.id && fitU 4 p.total
  | .modelWrite h p => hdrOk h && fitU 2 p.id && fitU 4 p.offset && fitU 4 p.length && allU 1 p.data
  | .modelCommit h p => hdrOk h && fitU 2 p.id
  | .modelAbort h p => hdrOk h && fitU 2 p.id
  | .modelUnload h p => hdrOk h && fitU 2 p.id
  | .modelSwap h p => hdrOk h && fitU 2 p.old && fitU 2 p.new
  | .modelList h p => hdrOk h && fitU 1 p.first && fitU 1 p.count
  | .modelInfo h p => hdrOk h && fitU 2 p.id
  | .modelTest h p => hdrOk h && fitU 2 p.id && fitU 2 p.width && fitU 2 p.height && fitU 1 p.inputs && fitU 1 p.types && allS 2 p.pixels
  | .resultQueueConfig h p => hdrOk h && fitU 1 p.queue && fitU 4 p.entries && fitU 1 p.policy && fitU 1 p.extra
  | .tilePoolConfig h p => hdrOk h && fitU 4 p.mib
  | .resultSubscribe h p => hdrOk h && fitU 1 p.queue && fitU 1 p.mode && fitU 1 p.start && fitU 4 p.window && fitU 1 p.link && fitU 8 p.ring && fitU 4 p.slots && fitU 4 p.coalesce
  | .resultUnsubscribe h p => hdrOk h && fitU 1 p.queue
  | .resultRead h p => hdrOk h && fitU 1 p.queue && fitU 2 p.count
  | .resultAdvance h p => hdrOk h && fitU 1 p.queue && fitU 8 p.index
  | .resultStatus h p => hdrOk h && fitU 1 p.queue
  | .tileInfo h p => hdrOk h && fitU 8 p.handle
  | .tileFetch h p => hdrOk h && fitU 8 p.handle && fitU 4 p.offset && fitU 4 p.length
  | .resCountersClear h => hdrOk h
  | .mrkHeadConfig h p => hdrOk h && fitU 1 p.head && fitU 2 p.nozzles && fitU 4 p.pitch && fitS 8 p.x0 && fitS 8 p.lo && fitS 8 p.hi && fitS 8 p.mh && fitU 4 p.ph && fitU 4 p.fmax && fitU 4 p.busKhz && fitU 4 p.latchW && fitU 4 p.wMain && fitU 4 p.enSettle && fitU 1 p.rows && allU 1 p.d && fitU 4 p.ring
  | .mrkRemapLoad h p => hdrOk h && fitU 1 p.head && fitU 2 p.first && fitU 2 p.count && allU 2 p.data
  | .mrkPreheat h p => hdrOk h && fitU 1 p.head && fitU 1 p.count && allU 4 p.w && fitU 4 p.gap && fitU 4 p.adv && fitS 4 p.tref && fitU 4 p.tspan
  | .mrkThermal h p => hdrOk h && fitU 1 p.head && fitS 4 p.tlim && fitU 4 p.hyst && fitU 4 p.suspend && fitU 4 p.tsPeriod && fitU 4 p.spiKhz
  | .mrkStyle h p => hdrOk h && allU 4 p.dims && fitU 1 p.kmax
  | .mrkLineMode h p => hdrOk h && fitU 1 p.mode && fitU 2 p.low && fitU 2 p.high && fitU 1 p.slowPct && fitU 4 p.stopMs && fitU 4 p.revMargin
  | .mrkHeadMode h p => hdrOk h && fitU 1 p.head && fitU 1 p.mode
  | .mrkOverlap h p => hdrOk h && fitU 1 p.head && fitU 1 p.neighbour && fitS 2 p.dn
  | .mrkServicePattern h p => hdrOk h && fitU 1 p.head && allU 1 p.bitmap
  | .mrkServiceFire h p => hdrOk h && fitU 1 p.head && fitU 1 p.pattern && fitU 4 p.rate && fitU 4 p.lines
  | .mrkVerifyGeometry h p => hdrOk h && fitU 1 p.stream && fitS 8 p.cd0 && fitU 4 p.pcd && fitS 8 p.omd && fitU 4 p.takeoverMax
  | .mrkTestPrint h p => hdrOk h && fitU 1 p.head && fitS 8 p.md && fitU 2 p.s && fitU 1 p.r
  | .mrkDotRead h p => hdrOk h && fitU 1 p.head && fitU 2 p.first && fitU 2 p.count
  | .mrkCalRead h p => hdrOk h && fitU 1 p.head && fitU 1 p.which
  | .mrkCalSet h p => hdrOk h && allU 1 p.block
  | .mrkCalAccept h p => hdrOk h && fitU 1 p.head
  | .mrkCalSave h p => hdrOk h && fitU 2 p.heads
  | .mrkStatus h p => hdrOk h && fitU 1 p.head
  | .mrkMissRead h p => hdrOk h && fitU 8 p.first && fitU 2 p.count
  | .mrkCountersClear h => hdrOk h
  | .areaStream h p => hdrOk h && fitU 1 p.ctx && fitU 1 p.enable && fitU 1 p.stream && fitU 1 p.cfa && fitU 2 p.w && fitU 2 p.h && fitU 4 p.f && fitU 1 p.role && fitU 1 p.bk
  | .clpBlack h p => hdrOk h && fitU 1 p.ctx && fitU 1 p.bank && allU 2 p.bl
  | .clpDefectLoad h p => hdrOk h && fitU 1 p.ctx && fitU 1 p.bank && fitU 4 p.len && fitU 4 p.first && fitU 4 p.count && allU 2 p.data
  | .clpColour h p => hdrOk h && fitU 1 p.ctx && fitU 1 p.bank && allU 2 p.wb && allS 2 p.mat && fitU 1 p.lut
  | .clpLutLoad h p => hdrOk h && fitU 1 p.slot && fitU 4 p.first && fitU 4 p.count && allU 2 p.data
  | .clpBankSelect h p => hdrOk h && fitU 1 p.ctx && fitU 1 p.bank
  | .headConfig h p => hdrOk h && fitU 1 p.head && fitU 1 p.ctx && fitU 1 p.tap && allU 2 p.crop && allU 2 p.out && fitU 1 p.fmt && fitU 1 p.n && fitU 1 p.range && fitU 1 p.enc && fitU 1 p.dest && fitU 1 p.destIdx
  | .headKernel h p => hdrOk h && fitU 1 p.head && fitU 1 p.axis && fitU 1 p.source && allS 2 p.table
  | .headCurve h p => hdrOk h && fitU 1 p.head && fitU 1 p.ch && fitU 1 p.preset && fitU 2 p.peak && allU 2 p.table
  | .st2110Config h p => hdrOk h && fitU 1 p.sender && fitU 1 p.iface && fitU 1 p.ipVer && allU 1 p.dst && fitU 2 p.dport && fitU 2 p.sport && fitU 1 p.ptype && fitU 4 p.ssrc && fitU 1 p.ttl
  | .st2110Sdp h p => hdrOk h && fitU 1 p.sender && fitU 4 p.offset && fitU 4 p.length
  | .hostRing h p => hdrOk h && fitU 1 p.head && fitU 1 p.link && fitU 8 p.addr && fitU 4 p.slots && fitU 4 p.bytes
  | .liveView h p => hdrOk h && fitU 1 p.ctx && fitU 1 p.enable && allU 1 p.planes && fitU 1 p.dc && fitU 1 p.dm && fitU 2 p.hv && fitU 4 p.f && fitU 1 p.orient && fitU 1 p.role && fitU 1 p.bk
  | .clpStatus h p => hdrOk h && fitU 1 p.ctx
  | .clpCountersClear h => hdrOk h
  | .vcuContext h p => hdrOk h && fitU 1 p.ctx && fitU 1 p.kind && fitU 1 p.profile && fitU 2 p.w && fitU 2 p.h && fitU 4 p.f && fitU 1 p.head && fitU 1 p.qin && allU 1 p.colour && fitU 1 p.full
  | .vcuCoding h p => hdrOk h && fitU 1 p.ctx && fitU 1 p.struct && fitU 4 p.g && fitU 1 p.mini && fitU 1 p.rs && fitU 1 p.sao && fitU 1 p.stats
  | .vcuRate h p => hdrOk h && fitU 1 p.ctx && fitU 1 p.mode && fitU 4 p.rate && fitU 1 p.iw && allS 1 p.qp && allS 1 p.qpLim
  | .vcuOutput h p => hdrOk h && fitU 1 p.ctx && fitU 4 p.mib && fitU 1 p.mirror && fitU 1 p.link && fitU 8 p.addr && fitU 4 p.size && fitU 4 p.slotBytes
  | .vcuForceIrap h p => hdrOk h && fitU 1 p.ctx
  | .vcuEncSubmit h p => hdrOk h && fitU 1 p.ctx && fitU 1 p.link && fitU 8 p.addr && fitU 8 p.frame && fitU 8 p.sec && fitU 4 p.ns
  | .vcuDecWrite h p => hdrOk h && fitU 1 p.ctx && fitU 4 p.length && allU 1 p.data
  | .vcuRead h p => hdrOk h && fitU 1 p.ctx && fitU 8 p.seq && fitU 4 p.offset && fitU 4 p.length
  | .vcuStatus h p => hdrOk h && fitU 1 p.ctx
  | .vcuCountersClear h => hdrOk h
  | .tbcTileCoding h p => hdrOk h && fitU 1 p.effort
  | .tbcHeadOutput h p => hdrOk h && fitU 1 p.head && fitU 1 p.effort && fitU 1 p.near && fitU 4 p.keyInt && fitU 4 p.mib && fitU 1 p.mirror && fitU 1 p.link && fitU 8 p.addr && fitU 4 p.bytes
  | .tbcHistory h p => hdrOk h && fitU 1 p.enable && fitU 1 p.planes && fitU 1 p.effort && fitU 4 p.mib && fitU 4 p.stage
  | .tbcPoolConfig h p => hdrOk h && fitU 4 p.mib
  | .tbcBufWrite h p => hdrOk h && fitU 8 p.offset && fitU 4 p.length && allU 1 p.data
  | .tbcBufRead h p => hdrOk h && fitU 8 p.offset && fitU 4 p.length
  | .tbcJobSubmit h p => hdrOk h && allU 1 p.desc
  | .tbcJobStatus h p => hdrOk h && fitU 4 p.job
  | .tbcJobCancel h p => hdrOk h && fitU 4 p.job
  | .tbcRead h p => hdrOk h && fitU 1 p.source && fitU 8 p.seq && fitU 4 p.offset && fitU 4 p.length
  | .tbcHistoryFind h p => hdrOk h && fitS 8 p.md && fitU 8 p.bound
  | .tbcStatus h => hdrOk h
  | .tbcCountersClear h => hdrOk h
  | .evrChannel h p => hdrOk h && fitU 1 p.ch && fitU 2 p.source && fitU 1 p.enable && fitU 1 p.loopOk && fitU 1 p.notify && fitU 1 p.forks && allU 2 p.tasks
  | .evrEnable h p => hdrOk h && fitU 1 p.ch && fitU 1 p.enable
  | .evrTaskMode h p => hdrOk h && fitU 2 p.task && fitU 1 p.mode
  | .evrDivider h p => hdrOk h && fitU 1 p.div && fitU 4 p.n
  | .evrFire h p => hdrOk h && fitU 1 p.ch
  | .evrStatus h p => hdrOk h && fitU 1 p.first && fitU 2 p.count
  | .evrTaskStatus h p => hdrOk h && fitU 2 p.task
  | .evrTaskClear h p => hdrOk h && fitU 2 p.task
  | .evrCountersClear h => hdrOk h
  | .dmcLayout h p => hdrOk h && fitU 4 p.grain && fitU 2 p.mask && fitU 2 p.rate
  | .dmcPolicy h p => hdrOk h && fitU 1 p.tdelta && fitU 1 p.qf && fitU 1 p.p && fitU 2 p.scrub && fitU 2 p.ceLimit && fitU 1 p.hi && fitU 1 p.lo && fitU 1 p.floor2 && fitU 1 p.floor3 && fitU 1 p.autoMask
  | .dmcUserRegion h p => hdrOk h && fitU 4 p.mib
  | .dmcRetrain h p => hdrOk h && fitU 1 p.ch
  | .dmcStatus h p => hdrOk h && fitU 1 p.ch
  | .dmcEccLog h p => hdrOk h && fitU 1 p.first && fitU 1 p.count
  | .dmcCountersClear h => hdrOk h
  | .dmaChannel h p => hdrOk h && fitU 1 p.ch && fitU 1 p.space && fitU 8 p.addr && fitU 1 p.link
  | .dmaStart h p => hdrOk h && fitU 1 p.ch
  | .dmaResume h p => hdrOk h && fitU 1 p.ch
  | .dmaAbort h p => hdrOk h && fitU 1 p.ch
  | .dmaStatus h p => hdrOk h && fitU 1 p.ch
  | .dmaBufWrite h p => hdrOk h && fitU 1 p.space && fitU 8 p.offset && fitU 4 p.length && allU 1 p.data
  | .dmaBufRead h p => hdrOk h && fitU 1 p.space && fitU 8 p.offset && fitU 4 p.length
  | .dmaCountersClear h => hdrOk h
  | .envelopeSet h p => hdrOk h && fitU 1 p.env && fitU 1 p.goal && fitU 2 p.watts
  | .planRun h => hdrOk h
  | .monStatus h => hdrOk h
  | .thermalConfig h p => hdrOk h && fitS 2 p.warn && fitS 2 p.throttle
  | .marginConfig h p => hdrOk h && fitU 1 p.droopMv && fitU 4 p.droopLimit
  | .telemetryConfig h p => hdrOk h && allU 1 p.addrs && allU 1 p.rails
  | .telemetryRead h p => hdrOk h && fitU 1 p.reg
  | .calStatus h p => hdrOk h && fitU 1 p.kind && fitU 2 p.which
  | .faultPolicy h p => hdrOk h && fitU 4 p.hold
  | .errlogRead h p => hdrOk h && fitU 1 p.log && fitU 8 p.first && fitU 2 p.count
  | .monCountersClear h => hdrOk h
  | .fwStageBegin h p => hdrOk h && fitU 4 p.length
  | .fwStageWrite h p => hdrOk h && fitU 4 p.offset && fitU 4 p.length && allU 1 p.data
  | .fwStageEnd h => hdrOk h
  | .fwStageAbort h => hdrOk h
  | .fwStatus h => hdrOk h
  | .fwConfirm h => hdrOk h
  | .fwPolicy h p => hdrOk h && fitU 2 p.window && fitU 1 p.mode
  | .fwRollback h => hdrOk h
  | .efuseRead h p => hdrOk h && fitU 1 p.region && fitU 4 p.offset && fitU 4 p.length
  | .efuseSecverAdvance h => hdrOk h
  | .efuseKeyRevoke h p => hdrOk h && fitU 1 p.slot
  | .calWrite h p => hdrOk h && fitU 1 p.type && fitU 2 p.inst && fitU 4 p.length && allU 1 p.data
  | .calRead h p => hdrOk h && fitU 1 p.type && fitU 2 p.inst && fitU 4 p.offset && fitU 4 p.length
  | .calList h p => hdrOk h && fitU 2 p.first && fitU 2 p.count
  | .calErase h p => hdrOk h && fitU 1 p.type && fitU 2 p.inst
  | .settingsSave h p => hdrOk h && fitU 1 p.slot && fitU 1 p.autocommit
  | .storeStatus h => hdrOk h
  | .regRead h p => hdrOk h && fitU 4 p.addr && fitU 2 p.count && fitU 1 p.link
  | .regWrite h p => hdrOk h && fitU 4 p.addr && fitU 1 p.link && fitU 4 p.value && fitU 4 p.mask
  | .diagReset h p => hdrOk h && fitU 1 p.reach && fitU 1 p.wrapper && fitU 1 p.keep
  | .diagInject h p => hdrOk h && fitU 1 p.kind && fitU 8 p.target
  | .registerWrite _ link addr value => decide (link < 4) && decide (addr < 67108864) && decide (value < 4294967296)
  | .ownClaimGo _ link value => decide (link < 4) && decide (value < 4294967296)
  | .hqSubmitTailWrite _ via link pair value => decide (via < 4) && decide (link < 4) && decide (pair < 64) && decide (value < 4294967296)
  | .hqDoneHeadWrite _ via link pair value => decide (via < 4) && decide (link < 4) && decide (pair < 64) && decide (value < 4294967296)
  | .hqAdminSizeWrite _ via link value => decide (via < 4) && decide (link < 4) && decide (value < 4294967296)
  | .cntClear _ port value => decide (port < 16) && decide (value < 4294967296)
  | .fepCntClear _ value => decide (value < 4294967296)
  | .elxCntClear _ value => decide (value < 4294967296)
  | .mrkCntClear _ value => decide (value < 4294967296)
  | .clpCntClear _ value => decide (value < 4294967296)
  | .vcuCntClear _ value => decide (value < 4294967296)
  | .tbcCntClear _ value => decide (value < 4294967296)
  | .evrCntClear _ value => decide (value < 4294967296)
  | .dmaCntClear _ value => decide (value < 4294967296)
  | .dmcCntClear _ value => decide (value < 4294967296)
  | .rcpCntClear _ value => decide (value < 4294967296)
  | .monCntClear _ value => decide (value < 4294967296)
  | .nvsCntClear _ value => decide (value < 4294967296)
  | .tmuSnapGo _ link via => decide (link < 4) && decide (via < 4)
  | .tmuSnapComplete _ link => decide (link < 4)
  | .posSnapGo _ link via => decide (link < 4) && decide (via < 4)
  | .resMirHeadWrite _ link queue value via => decide (link < 4) && decide (queue < 64) && decide (value < 4294967296) && decide (via < 4)
  | .clpHostHeadWrite _ head value via => decide (head < 4) && decide (value < 4294967296) && decide (via < 4)
  | .vcuHostHeadWrite _ link ctx value via => decide (link < 4) && decide (ctx < 64) && decide (value < 4294967296) && decide (via < 4)
  | .tbcHostHeadWrite _ link head value via => decide (link < 4) && decide (head < 4) && decide (value < 4294967296) && decide (via < 4)
  | .evrSwFire _ value => decide (value < 4294967296)
  | .dmaDoorbell _ value => decide (value < 4294967296)
  | .swBlockReset _ value => decide (value < 4294967296)
  | .swSystemReset _ value => decide (value < 4294967296)
  | .swChipReset _ value => decide (value < 4294967296)
  | .sequenceHoldTimeout _ => true
  | .sessionIdleTimeout _ => true
  | .leaseEnd _ => true
  | .sessionOpenKeepEnd _ => true
  | .applyAtDue _ => true
  | .drainComplete _ => true
  | .drainLimit _ => true
  | .faultHoldExpiry _ => true
  | .line _ pk => pktOk pk
  | .frameStart _ pk => pktOk pk
  | .frameEnd _ pk => pktOk pk
  | .metadata _ pk => pktOk pk
  | .regEcho _ pk => pktOk pk
  | .echo _ port _ _ _ => decide (port < 16)
  | .laneAck _ port _ _ _ _ => decide (port < 16)
  | .feCaptureTimeout _ stream => decide (stream < 128)
  | .portUp _ port b => decide (port < 16 ∧ b.heard.length ≤ 4 ∧ b.echoes.length = 16 ∧ b.head.length = 7)
  | .bringupTimeout _ port _ => decide (port < 16)
  | .linkDown _ port _ => decide (port < 16)
  | .bringupRetry _ port => decide (port < 16)
  | .regEchoTimeout _ port => decide (port < 16)
  | .echoTimeout _ port => decide (port < 16)
  | .timeMessageDue _ port => decide (port < 16)
  | .qualityUpdate _ port _ => decide (port < 16)
  | .recalPeriod _ port lane => decide (port < 16) && decide (lane < 4)
  | .calCandidateReady _ port _ _ _ => decide (port < 16)
  | .coefCommit _ port _ => decide (port < 16)
  | .coefRevertCheck _ port _ => decide (port < 16)
  | .provisionalRemeasure _ _ _ _ _ => true
  | .eyeScanDone _ port points => decide (port < 16 ∧ points.length = 16384)
  | .laneStandbyTime _ port => decide (port < 16)
  | .laneDormantTime _ port => decide (port < 16)
  | .encoderEdge _ axis _ _ => decide (axis < 4)
  | .zEdge _ z => decide (z.axis < 4)
  | .serialSample _ axis => decide (axis < 4)
  | .serialFrame _ axis _ => decide (axis < 4)
  | .axisFaultExit _ axis => decide (axis < 4)
  | .observerUpdate _ axis => decide (axis < 4)
  | .motionStop _ axis => decide (axis < 4)
  | .tick _ gen _ _ => decide (gen < 8)
  | .exposureLatch _ gen => decide (gen < 8)
  | .matchEv _ ch _ _ => decide (ch < 16)
  | .cmpPulseEnd _ ch => decide (ch < 16)
  | .latchInputEdge _ latch _ => decide (latch < 16)
  | .ptpMessage _ _ => true
  | .ptpTxDue _ _ => true
  | .ppsInEdge _ => true
  | .sourceLoss _ => true
  | .ppsOutEdge _ _ => true
  | .fire _ k => decide (k < 16)
  | .tioCapture _ k _ => decide (k < 16)
  | .webLineArrival _ cluster _ => decide (cluster < 16)
  | .lineAnalysed _ cluster _ _ => decide (cluster < 16)
  | .classifyDone _ cluster _ => decide (cluster < 16)
  | .recordWritten _ => true
  | .clusterGate _ cluster => decide (cluster < 16)
  | .clusterHang _ cluster => decide (cluster < 16)
  | .markDecision _ => true
  | .fireInstant _ head _ _ => decide (head < 16)
  | .preheatStart _ head _ => decide (head < 16)
  | .markFetchDone _ head _ _ => decide (head < 16)
  | .ldackChange _ _ => true
  | .revreqRelease _ => true
  | .stopTimeout _ => true
  | .slowreqRelease _ => true
  | .headTempRead _ head _ _ => decide (head < 16)
  | .enSettleEnd _ head => decide (head < 16)
  | .serviceFireTick _ head => decide (head < 16)
  | .clpFrameDone _ ctx _ => decide (ctx < 16)
  | .liveViewFrame _ ctx => decide (ctx < 16)
  | .st2110PacketDue _ sender => decide (sender < 2)
  | .vcuSliceDone _ ctx _ _ _ => decide (ctx < 64)
  | .tbcLineDone _ _ => true
  | .pendingDelivery _ _ => true
  | .dmaTransferDone _ c _ _ m => decide (c < 64) && m.acts.all fun a => decide (a.ch < 12 ∧ a.dimm < 2 ∧ a.rank < 2 ∧ a.bank < 32)
  | .dmaRetryWait _ c => decide (c < 64)
  | .descriptorComplete _ c => decide (c < 64)
  | .fenceDone _ c _ => decide (c < 64)
  | .patrolScrub _ _ => true
  | .refreshDue _ c => decide (c < 12)
  | .dimmTempRead _ c _ => decide (c < 12)
  | .spdHubTimeout _ c => decide (c < 12)
  | .neighbourRefresh _ c => decide (c < 12)
  | .dqsDriftRead _ c _ => decide (c < 12)
  | .retrainSlice _ c => decide (c < 12)
  | .retrainComplete _ c _ _ => decide (c < 12)
  | .thermalSample _ _ => true
  | .throttleEscalate _ => true
  | .throttleRestore _ => true
  | .ageingMeasure _ _ => true
  | .marginGuard _ _ => true
  | .droopEvent _ rail => decide (rail < 3)
  | .powerEstimate _ _ => true
  | .planFormed _ _ => true
  | .avsCommand _ _ => true
  | .telemetryPoll _ _ => true
  | .pmbAlert _ _ => true
  | .sensorCrossCheck _ => true
  | .thermalTrip _ => true
  | .thermalTripEnd _ => true
  | .vbatPowerOn _ => true
  | .mainPowerOn _ _ => true
  | .brownout _ _ => true
  | .backupSwitchover _ _ => true
  | .rstN _ _ => true
  | .watchdogExpiry _ => true
  | .pcieReset _ l _ => decide (l < 4)
  | .debugReset _ reach wrapper _ _ => decide (reach < 3) && decide (wrapper < 44)
  | .forcedRelease _ => true
  | .refLost _ => true
  | .pllUnlock _ d => decide (d < 7)
  | .clockMonitorBad _ d => decide (d < 8)
  | .clockMonitorGood _ d => decide (d < 8)
  | .forwardedClockLoss _ port => decide (port < 16)
  | .xtalQualify _ => true
  | .xtalFail _ => true
  | .deferralEnd _ => true
  | .resetRelease _ => true
  | .blockReset _ w => decide (w < 44)
  | .blockRelease _ w => decide (w < 44)
  | .wrapperOpen _ w => decide (w < 44)
  | .sleepWake _ => true
  | .bootRomStart _ _ _ _ => true
  | .dramReady _ _ => true
  | .bootComplete _ _ => true
  | .trialConfirm _ _ _ => true
  | .confirmationWindowEnd _ => true
  | .recoveryReset _ => true
  | .nvsWriteComplete _ _ _ => true
  | .efusePulse _ _ => true
  | .opcodeNotDefined h op magic _ _ => hdrOk h && fitU 2 op && fitU 2 magic
  | .pcieLinkTrained _ l => decide (l < 4)
  | .ddrAlert _ c addr _ => decide (c < 12) && decide (addr < 18446744073709551616)
  | .coalescingIntervalEnd _ link queue => decide (link < 4) && decide (queue < 64)
  | .mainPulseEnd _ head => decide (head < 16)
  | .tioPulseEnd _ k => decide (k < 16)
  | .diagResetAssert _ => true
  | .flashReady _ _ => true

end Sys2Proof
end

