-- ==== Sys2Proof/Tests/Slice0.lean ====
section
/-! SUPPORT. Sys2Proof/Tests/Slice0.lean: the model's own tests. Small states, one row each; the expected results are the manual's (the rule is
in each comment). The first tests also show that the hypotheses of the obligations are met. Four commands are shown accepted, and not
completed: the end of CONFIG_SAVE, FW_STAGE_END and FW_ROLLBACK rests on a value the manual leaves open, and MODEL_COMMIT's check
words are long. -/

namespace Sys2Proof.Tests

set_option Elab.async false

open Sys2Proof Sys2Proof.Machine

/-- A host on the management port, over IPv4. -/
def via0 : Via := .udp 2 false 0 0
/-- A small state: out of reset in device state `st`, clocks good, the management port configured, session 0 open and owner. -/
def bench (st : DevState) : State :=
  { State.reset with
    rcp := { State.reset.rcp with rst := none, starting := false, xtal := true, ref := true, lock := 127, good := 127, gate := false, faultN := false }
    nvs := { boot := 10, found := true, sizeMib := 32768 }
    dev := { state := st, net := [(2, ⟨2, 0, 0, [], 0x9640, 1⟩)], sessions := [(0, { quiet := false, idle := 10, last := 0, via := via0 })], owner := some 0, lease := 1000, leaseEnd := 10 ^ 12 } }
/-- A calibration block of zeros with its CRC (R385). -/
def calBlock : List Nat := let b := [0, 0, 1, 0] ++ List.replicate 2444 0; b ++ leBytes 4 (crc32c b)
/-- A model package of one small layer (R290 to R295). -/
def pkBytes (crc : Nat) : List Nat :=
  leBytes 4 0x4C444D4B ++ leBytes 2 1 ++ leBytes 2 64 ++ leBytes 4 1024 ++ leBytes 2 2 ++ [0, 0] ++ leBytes 4 896 ++ leBytes 4 1024 ++ leBytes 4 0 ++
  leBytes 2 8 ++ leBytes 2 8 ++ [1, 0, 1, 0] ++ List.replicate 24 0 ++ leBytes 4 crc ++
  ([0, 0, 0, 0, 0, 0, 0, 0, 1] ++ List.replicate 55 0) ++ (1 :: List.replicate 255 0) ++ (leBytes 2 32768 ++ List.replicate 510 0) ++
  ([5, 255, 255] ++ List.replicate 61 0) ++ ([8, 0, 255] ++ List.replicate 61 0)
def thePackage : List Nat := pkBytes (crc32c (pkBytes 0))
def theSub : Sub := { mode := 0, window := 64, r := 0, push := 0 }
def theTile : Tile := { gen := 1, blocks := 1, cut := 0, bytes := List.replicate 128 0 }
def vctxOf (kind : Nat) : PVcuContext := ⟨0, kind, 0, 64, 64, 1000, 0, 4, [1, 1, 1], 0⟩
/-- COMPRESS of one plane, 8 bits, 4 samples, from and into the job buffer. -/
def jobDesc : List Nat := [0, 0, 0, 0, 1, 0, 1, 8, 0, 0, 0, 0] ++ leBytes 4 4 ++ leBytes 4 1 ++ leBytes 4 0 ++ leBytes 4 4 ++ leBytes 4 0 ++ leBytes 8 0 ++ leBytes 8 4096 ++ leBytes 8 0 ++ leBytes 8 4096
/-- A command header. -/
def hdrOf (session seq n crc : Nat) : Hdr := ⟨0, via0, 32 + n, 1, 0, session, seq, 7, n, 0, crc, [], none⟩
/-- The row made by `mk`, with the next sequence number, its true length and check word. -/
def good (mk : Hdr → Instr) (s : State) : Instr :=
  match packetOf (mk (hdrOf 0 1 0 0)) with
  | none => mk (hdrOf 0 1 0 0)
  | some p =>
    let sn := if p.op = 1 then (0xFFFF, 0) else (0, 1)
    match p.cmd with
    | none => mk (hdrOf sn.1 sn.2 0 0)
    | some c =>
      let n := (areaBytes c p.h s).length
      match packetOf (mk (hdrOf sn.1 sn.2 n 0)) with
      | some p => mk (hdrOf sn.1 sn.2 n (crc32c (pktHead p ++ areaGot c p.h s)))
      | none => mk (hdrOf sn.1 sn.2 n 0)

def aPair : QPair := { entries := 16, sq := 0, cq := 0, area := 0 }
def aTicket : Ticket := ⟨0, 1, 7, 0, via0, false, 0, false, false, none, 0⟩
def aSess : Sess := { quiet := false, idle := 10, last := 0, via := via0 }
/-- A Rathal packet of a type, stream and index with right check words, on port 0. -/
def aPkt (ty stream index : Nat) (data : List Nat) : Pkt :=
  let k : Pkt := ⟨0, stream, 0, data.length, index, 0, crc32c data, false, false, data, none⟩
  { k with hcrc := crc16 (pktHeader ty k) }
def aFrame : AFrame := { ctx := 0, idx := 9, sec := 0, ns := 0, expo := 0, w := 2, h := 2, live := false, cfa := 0, bank := {}, lut := [], curves := [] }
def anHFrame : HFrame := { head := 0, ctx := 0, idx := 0, sec := 0, ns := 0, expo := 0, repaired := false, fmt := 0, n := 8, full := false, w := 4, h := 1, planes := [[[1, 2, 3, 4]], [[1, 2]], [[1, 2]]] }
def aLine : WebLine := { n := 0, strip := 0, lost := 0, short := false, sec := 0, ns := 0, restart := false, stripEnd := false }
def aFound : Found := { home := 0, comp := { n0 := 0, first := (0, 0) }, id := 1, flags := 0, chained := false, ver := 0, slot := 0, verify := false, cls := 1, conf := 9, model := 1, tile := 0, cut := none, extras := [], md := 0, cd := 0, sec := 0, ns := 0, cams := 0, nc := 0 }
def aRec : PRec := { id := 1, queue := 0, outcome := false, cluster := 0, body := List.replicate 104 0 }
def aDec : MarkDec := { id := 1, style := 1, queue := 0, cluster := 0, body := List.replicate 104 0, md := 0, cd := 0, cMin := 0, cMax := 0, nMin := 0, nMax := 0 }
/-- A copy of 8 bytes within the user buffer. -/
def aDesc : List Nat := leBytes 8 0 ++ leBytes 8 4096 ++ leBytes 4 8 ++ [0, 0, 0, 0] ++ leBytes 8 0 ++ List.replicate 32 0
/-- The check word of a CTRL message. -/
def ctrlCrc (ty : Nat) (fields : List Nat) : Nat := leAt (ctrlBytes ty fields) 14 2
/-- An NRZ lane that gains block lock and then marker lock (R124). -/
def theHeard : List Heard := [.blocks hdrData 64, .marker 0 (markerBytes 0 5 0), .blocks hdrData 4095, .marker 100 (markerBytes 0 6 0)]
def sub? (s : State) : Option Sub := tabGet s.res.subs 0
/-- Row `i` goes from `s` to a next state that `chk` holds of. -/
def runs (s : State) (i : Instr) (chk : State → Bool) : Bool := match exec i s with | .next t => chk t | _ => false

/-- The packet of `mk` passes every check on `s` and its command is carried out, now or later. -/
def completes (mk : Hdr → Instr) (s : State) : Bool :=
  match packetOf (good mk s) with
  | none => false
  | some p => match p.cmd with
    | none => false
    | some c => match accepts (good mk s) s with
      | none => false
      | some (tk, v, u) => match c.act tk v u with
        | .ok .. => true
        | .later .. => true
        | .no .. => false

/-- Status of the newest reply. -/
def lastStatus (s : State) : Nat := match s.out with | .reply _ r :: _ => r.status | _ => 0x7777

def stateOf (o : Host.Outcome State Fault Refusal) : State := match o with | .next t => t | _ => State.reset

/-! ## Well-formed rows -/

theorem test_wf_accepts : ([.heartbeat (hdrOf 0 1 0 0), .claim (hdrOf 0 1 4 0) ⟨100⟩, .latencyTrim (hdrOf 0 1 8 0) ⟨0, -5000⟩, .line 0 (aPkt 1 0 0 [1, 2]),
    .opcodeNotDefined (hdrOf 0 1 0 0) 0xFFFF 0 true false] : List Instr).all Instr.wf = true := by decide +kernel

/-- One ill-formed term for each check: an unsigned, a signed, a list's element, and each part of the header and the packet. -/
theorem test_wf_refuses : ([
    .claim (hdrOf 0 1 4 0) ⟨2 ^ 32⟩, .latencyTrim (hdrOf 0 1 8 0) ⟨0, -(2 ^ 31) - 1⟩, .latencyTrim (hdrOf 0 1 8 0) ⟨0, 2 ^ 31⟩,
    .cmpListLoad (hdrOf 0 1 0 0) ⟨0, 0, 1, [256]⟩, .modelTest (hdrOf 0 1 0 0) ⟨1, 1, 1, 1, 0, [32768]⟩,
    .heartbeat { hdrOf 0 1 0 0 with via := .udp 3 false 0 0 }, .heartbeat { hdrOf 0 1 0 0 with via := .udp 0 false (2 ^ 32) 0 }, .heartbeat { hdrOf 0 1 0 0 with via := .pcie 4 0 (List.replicate 32 0) },
    .heartbeat { hdrOf 0 1 0 0 with recvLen := 2 ^ 32 }, .heartbeat { hdrOf 0 1 0 0 with version := 256 }, .heartbeat { hdrOf 0 1 0 0 with flags := 256 },
    .heartbeat (hdrOf 65536 1 0 0), .heartbeat (hdrOf 0 (2 ^ 32) 0 0), .heartbeat { hdrOf 0 1 0 0 with tag := 2 ^ 32 }, .heartbeat (hdrOf 0 1 (2 ^ 32) 0),
    .heartbeat { hdrOf 0 1 0 0 with rest := 2 ^ 64 }, .heartbeat (hdrOf 0 1 0 (2 ^ 32)), .heartbeat { hdrOf 0 1 4 0 with gaps := [(4, 0)] },
    .heartbeat { hdrOf 0 1 4 0 with gaps := [(3, 256)] }, .heartbeat { hdrOf 0 1 0 0 with ats := some ⟨256, 0, 0, 0, 0⟩ },
    .heartbeat { hdrOf 0 1 0 0 with ats := some ⟨0, 0, 0, 0, 2 ^ 64⟩ }, .opcodeNotDefined (hdrOf 0 1 0 0) 65536 0 false true,
    .line 0 { aPkt 1 0 0 [1] with port := 16 }, .line 0 { aPkt 1 0 0 [1] with stream := 8 }, .line 0 { aPkt 1 0 0 [1] with fmt := 16 }, .line 0 { aPkt 1 0 0 [1] with index := 2 ^ 48 },
    .line 0 { aPkt 1 0 0 [1] with length := 2 ^ 24 }, .line 0 { aPkt 1 0 0 [1] with hcrc := 65536 }, .line 0 { aPkt 1 0 0 [1] with pcrc := 2 ^ 32 }, .line 0 (aPkt 1 0 0 [256]),
    .encoderEdge 0 4 true true, .cntClear 0 16 1, .registerWrite 0 4 0 0, .registerWrite 0 0 (2 ^ 26) 0] : List Instr).any Instr.wf = false := by decide +kernel

theorem test_no_word_decodes : decodeTableWord 16 0 = none ∧ (State.reset.withFetchWord 32 5) = State.reset := ⟨rfl, rfl⟩

/-! ## Hypotheses of the obligations are met -/

/-- The hypotheses of the event and register-write statements: at 1 ms the bench runs, with no wrapper closed and its links up. -/
theorem test_reaches_and_linked : reaches ms (List.range 44) (bench .running) (arrive ms (bench .running)) ∧
    linked ms (bench .running) (arrive ms (bench .running)) := by
  refine ⟨⟨rfl, by decide +kernel, by decide +kernel⟩, rfl, by decide +kernel, by decide +kernel⟩

theorem test_reset_holds : heldReset State.reset := ⟨⟨_, rfl, by decide⟩, rfl, ⟨false, rfl⟩, rfl, rfl, rfl, rfl, rfl, rfl, rfl, rfl, rfl, rfl, rfl, rfl, rfl, rfl, rfl, rfl, rfl, rfl, rfl, .inr rfl⟩

/-- A packet that arrives while reset holds the block has no effect (R574). -/
theorem test_packet_in_reset : (stateOf (exec (.heartbeat (hdrOf 0 1 0 0)) State.reset)).out = [] := by decide +kernel

/-- A step on an empty queue lets 1 ns pass (log 4); one with a command waiting runs it. -/
theorem test_step : (stateOf (step (bench .standby))).now = 1000 ∧
    (stateOf (step { bench .standby with pending := [.stateQuery (hdrOf 0 1 0 0), .timeRead (hdrOf 0 2 0 0)] })).pending = [.timeRead (hdrOf 0 2 0 0)] := by decide +kernel

/-- Nothing follows at once on the bench in STANDBY, whatever its sessions, pairs and outputs. -/
theorem bench_settles (t : State) (ss : Tab Sess) (ps : Tab QPair) (os : List KeptOpen) (c : Option (Nat × Nat)) (n : Nat) (o : List Out)
    (ht : t = { bench .standby with dev := { (bench .standby).dev with sessions := ss, pairs := ps, opens := os, cause := c }, free := n, out := o }) : settle t = t := by
  have a : enterLines t = t := by subst ht; rfl
  have b : markOrigin t = t := by subst ht; rfl
  have jc : ∀ h, judgeEn t h = t := by intro h; subst ht; rfl
  have d : (List.range 16).foldl judgeEn t = t := by
    generalize List.range 16 = l
    induction l with
    | nil => rfl
    | cons h r ih => rw [List.foldl_cons, jc, ih]
  have e : judgeSlow t = t := by subst ht; rfl
  have f : judgeStop t = t := by subst ht; rfl
  have g : markFinish t = t := by
    unfold markFinish
    simp only [b]
    have : ¬ ((!runningState t.dev.state) = true ∧ (!t.mrk.inbox.isEmpty || !t.mrk.pend.isEmpty || t.mrk.slow || t.mrk.stop || t.mrk.rev || t.mrk.heads.any fun e => !e.2.dots.isEmpty || e.2.jr.isSome) = true) := by
      subst ht; simp [bench, State.reset]
    rw [if_neg this, d, e, f]
  have h1 : armJudge t = t := by subst ht; rfl
  have h2 : drainFinish t = t := by subst ht; rfl
  have h8a : startFrames t = t := by subst ht; rfl
  have h3 : tbcPick t = t := by subst ht; rfl
  have h4 : vcuRun t = t := by subst ht; rfl
  have h5 : releaseHeldPlan t = t := by subst ht; rfl
  have h6 : nvsKick t = t := by subst ht; rfl
  have h7 : judgeFaultN t = t := by subst ht; rfl
  have h8 : judgeThermN t = t := by subst ht; rfl
  have w : ∀ k, wrapClosed k t = false := by intro k; subst ht; rfl
  simp [settle, a, g, h1, h2, h8a, h3, h4, h5, h6, h7, h8, w]

/-- The hypotheses of `ReportsLeaveTheBlock` are met by HEARTBEAT on the bench. -/
theorem test_calm : calm (bench .standby) ∧ reportsOnly (.heartbeat (hdrOf 0 1 0 0)) = true ∧ (accepts (good .heartbeat (bench .standby)) (bench .standby)).isSome = true :=
  ⟨fun ss ps os c n o => bench_settles _ ss ps os c n o rfl, rfl, by decide +kernel⟩

/-! ## Packets (R57, R65, R71, R75) -/

/-- Checks 1 to 5 in their order: MAGIC, fragments, VERSION, PARAM_LEN, CRC, size, SESSION. -/
theorem test_checks_one_to_five :
    (stateOf (exec (.opcodeNotDefined (hdrOf 0 1 0 0) 3 0x4B45 false true) (bench .standby))).out = [] ∧
    (stateOf (exec (.opcodeNotDefined (hdrOf 0 1 0 0) 3 0x4B44 true true) (bench .standby))).out = [] ∧
    lastStatus (stateOf (exec (.heartbeat { hdrOf 0 1 0 0 with version := 2, recvLen := 9 }) (bench .standby))) = 0x8001 ∧
    lastStatus (stateOf (exec (.heartbeat { hdrOf 0 1 0 0 with paramLen := 2 }) (bench .standby))) = 0x8002 ∧
    lastStatus (stateOf (exec (.heartbeat { hdrOf 0 1 0 0 with recvLen := 36 }) (bench .standby))) = 0x8002 ∧
    lastStatus (stateOf (exec (.heartbeat (hdrOf 9 1 0 0)) (bench .standby))) = 0x8003 ∧
    lastStatus (stateOf (exec (good (fun h => .heartbeat { h with session := 9 }) (bench .standby)) (bench .standby))) = 0x8004 := by decide +kernel

/-- The next number runs; 2 and 16 ahead are held; 17 ahead and 16 back are refused; of the last 16 the retained reply is sent again, one still awaited
gets none, and one forgotten is refused. -/
theorem test_sequence_boundaries :
    let r0 : Reply := ⟨3, 0, 0, 7, 0, 1, 0, false, []⟩
    let s := setDev (fun d => { d with sessions := [(0, { aSess with kept := [(0, some r0), (2 ^ 32 - 3, none), (2 ^ 32 - 15, some r0)] })] }) (bench .standby)
    let r := fun n => sequence (.heartbeat (hdrOf 0 n 0 0)) (rawPack (hdrOf 0 n 0 0) 3 0x4B44 false true) s
    let held := fun n => ((sess (r n).2 0).map fun x => x.held.length).getD 9
    (r 1).1 = some 0 ∧ (r 2).1 = none ∧ held 2 = 1 ∧ held 16 = 1 ∧ held 17 = 0 ∧ lastStatus (r 17).2 = 0x8005 ∧
    (r (2 ^ 32 - 3)).2.out = [] ∧ lastStatus (r (2 ^ 32 - 4)).2 = 0x8005 ∧ (r 0).2.out = [.reply via0 r0] ∧ (r (2 ^ 32 - 15)).2.out = [.reply via0 r0] ∧ lastStatus (r (2 ^ 32 - 16)).2 = 0x8005 := by decide +kernel

/-- Checks 6 to 10: an unknown opcode, an owner-only command without ownership, the ARM window, a state, an absent port, a bad field; in BOOT the
state comes before the ownership; and a block in reset. -/
theorem test_checks_six_to_ten :
    let run := fun mk s => lastStatus (stateOf (exec (good mk s) s))
    run (fun h => .opcodeNotDefined h 0x7777 0x4B44 false true) (bench .standby) = 0x8006 ∧
    run (fun h => .configClear h) (setDev (fun d => { d with owner := none }) (bench .standby)) = 0x8007 ∧
    run (fun h => .mrkHeadMode h ⟨0, 0⟩) (setPort 0 (fun p => { p with bring := some (.arm, 0) }) (setCfg (fun c => { c with ports := [(0, ⟨0, 0, 1, 0, 1⟩)] }) (setDev (fun d => { d with arming := some (aTicket, [(0, false)]) }) (bench .configured)))) = 0x8010 ∧
    run (fun h => .start h) (bench .standby) = 0x8008 ∧
    run (fun h => .portStatus h ⟨12⟩) (setDev (fun d => { d with ha := true }) (bench .standby)) = 0x8009 ∧
    run (fun h => .timeSource h ⟨9⟩) (bench .standby) = 0x800A ∧
    run (fun h => .configClear h) (setDev (fun d => { d with owner := none }) (bench .boot)) = 0x8008 ∧
    run (fun h => .timeSource h ⟨1⟩) (setRcp (fun r => { r with wraps := [(37, { stage := 1 })] }) (bench .standby)) = 0x8010 := by decide +kernel

/-- Clamping at the ends of each kind of range (R84): 3 lies midway between 0 and 6 and goes to 0, the smaller magnitude. -/
theorem test_clamp :
    clampElem (.rng 5 9) 4 = 5 ∧ clampElem (.rng 5 9) 9 = 9 ∧ clampElem (.rng (-3) 3) (-9) = -3 ∧ clampElem (.zeroOr 6 9) 3 = 0 ∧ clampElem (.zeroOr 6 9) 4 = 6 ∧
    clampElem (.stp 0 12 4) 6 = 4 ∧ clampElem (.stp 0 12 4) 7 = 8 ∧ clampElem (.pow2 2 64) 3 = 2 ∧ clampElem (.pow2 2 64) 99 = 64 ∧ clampElem (.near [2, 4]) 3 = 2 := by decide +kernel

/-- A clamped CLAIM: a lease of 1 ms goes to 100 ms, bit 0 of ADJUSTED is set, and the status is ST_CLAMPED (R84, R85, R99). -/
theorem test_adjusted :
    (match (stateOf (exec (good (fun h => .claim h ⟨1⟩) (bench .standby)) (bench .standby))).out with | .reply _ r :: _ => (r.status, r.adj, r.ps) | _ => (0, 0, [])) =
      (1, 1, [.num 4 100]) := by decide +kernel

/-- SESSION_OPEN takes the lowest free number; beyond the last there is none (R96). -/
theorem test_lowest_session :
    let s := setDev (fun d => { d with sessions := d.sessions ++ [(2, aSess)] }) (bench .standby)
    (sess (stateOf (exec (good (fun h => .sessionOpen h ⟨10, 0⟩) s) s)) 1).isSome = true ∧
    (match (sessionOpen ⟨10, 0⟩).act { aTicket with session := 2048 } [[10], [0]] s with | .no st _ => st | _ => 0) = 0x800D := by decide +kernel

/-! ## Registers, positions, latches and events at their boundaries -/

theorem test_counter_saturates : rget 0x40 (bump 0x40 2 (rput 0x40 0xFFFFFFFE (bench .standby))) = 0xFFFFFFFF ∧ rget 0x40 (bump 0x40 1 (bench .standby)) = 1 := by decide +kernel

/-- W1C within the field 0x0F: bit 1 clears, bit 4 lies outside and stays (R23). -/
theorem test_w1c : rget 0x40 (w1c 0x40 0xF ⟨false, 0, 0x12, 0x12⟩ (rput 0x40 0x1F (bench .standby))) = 0x1D := by decide +kernel

/-- CNT_CLEAR through BAR0 acts while ownership is vacant and not otherwise; through the owner's window it acts (R162, R651). -/
theorem test_cnt_clear :
    let s := rput (cptBase 15 + 0x68) 7 (bench .standby)
    rget (cptBase 15 + 0x68) (barWrite 0 (cptBase 15 + 0x80) 1 s) = 7 ∧
    rget (cptBase 15 + 0x68) (barWrite 0 (cptBase 15 + 0x80) 1 (setDev (fun d => { d with owner := none }) s)) = 0 ∧
    rget (cptBase 15 + 0x68) (regWrite (cptBase 15 + 0x80) ⟨true, 0, 1, 1⟩ s) = 0 := by decide +kernel

/-- Addresses of no block: the first beyond DEV and the last of the 64 MiB (R23). -/
theorem test_unmapped : regView (bench .standby) 0x70000 = 0 ∧ regView (bench .standby) 0x3FFFFFC = 0 ∧ barWrite 0 0x70000 5 (bench .standby) = bench .standby := by decide +kernel

/-- A packet's blocks, scrambled and sent on an NRZ lane of inverted polarity, are received as the packet (R118, R120 to R122, R128, R129):
the lane's first block fills the descrambler. PAM4 levels are Gray coded (R117), and a marker with a wrong check word is none (R125). -/
theorem test_lane_carries_a_packet :
    let head := [1, 0, 0, 0] ++ leBytes 4 3 ++ leBytes 6 77
    let blks := (hdrCtrl, ctrlBytes 0 []) :: packetBlocks head [10, 20, 30]
    let w : Wire := ⟨0, [(sendBlocks 12345 blks).map fun b => if b then (-1 : Int) else 1]⟩
    let p : Port := { link := 2, rate := 1, fec := 0, nLanes := 1, mode := 0, lanes := [{ polInv := true }] }
    ((received p 1 { aPkt 1 0 0 [] with wire := some w }).map fun k => (k.index, k.data, pktBad 1 99 k)) = some (77, [10, 20, 30], false) ∧
    [(-3 : Int), -1, 1, 3].map pam4Bits = [[false, false], [false, true], [true, true], [true, false]] ∧
    markerOk (markerBytes 2 5 7) = true ∧ markerOk ((markerBytes 2 5 7).set 3 1) = false := by decide +kernel

/-- Bytes written are read back; a byte of 0 is not listed. -/
theorem test_bytes : memRead (memWrite [(5, 9)] 4 [1, 0, 3]) 4 3 = [1, 0, 3] ∧ memWrite [(5, 9)] 4 [1, 0, 3] = [(4, 1), (6, 3)] ∧
    Memory.wf (memWrite [(5, 9)] 4 [1, 0, 3]) = true ∧ Memory.wf [(5, 0)] = false ∧ Memory.wf [(5, 1), (4, 1)] = false := by decide +kernel

/-- The eight transitions, and an illegal one (R208; log 14). -/
theorem test_quadrature :
    let s := setAxis 0 (fun x => { x with state := 1 }) (setCfg (fun c => { c with enc := [(0, ⟨0, 1, 0, 4294967296, 0, 0, 8, 0, 100, 1000, 0⟩)] }) (bench .standby))
    let up := encoderEdge 0 true true (encoderEdge 0 true false s)
    (axis up 0).count = 2 ∧ (axis (encoderEdge 0 false false (encoderEdge 0 false true up)) 0).count = 4 ∧ (axis (encoderEdge 0 true false up) 0).count = 1 ∧
    (axis (encoderEdge 0 false false up) 0).count = 2 ∧ (axis (encoderEdge 0 false false up) 0).illegal = 1 := by decide +kernel

/-- The 16th capture is held, the 17th counts (R229). -/
theorem test_latch :
    let c : LatCap := ⟨0, 0, 0, 0, 0⟩
    let s := fun n => { bench .standby with pos := { (bench .standby).pos with latch := [(3, { fifo := List.replicate n c })] } }
    let r := fun n => ((tabGet (storeCapture 3 (s n)).2.pos.latch 3).map fun f => (f.fifo.length, f.ovfl)).getD (0, 0)
    r 15 = (16, 0) ∧ r 16 = (16, 1) := by decide +kernel

/-- An origin that names channel 255 is dropped there with LOOP_OK 0, and published with LOOP_OK 1 or by another channel (R499). -/
theorem test_loop_rule :
    let c : Nat → PEvrChannel := fun ok => ⟨255, 0x0300, 1, ok, 0, 1, [0x8000]⟩
    let s := bench .standby
    rget (evrBase + 0x0C) (publishOn (some 255) s (c 0)) = 1 ∧ rget (evrBase + 0x1000 + 255 * 4) (publishOn (some 255) s (c 0)) = 0 ∧
    rget (evrBase + 0x1000 + 255 * 4) (publishOn (some 255) s (c 1)) = 1 ∧ rget (evrBase + 0x1000 + 255 * 4) (publishOn (some 254) s (c 0)) = 1 ∧
    (publishOn (some 254) s (c 0)).evr.flight = [⟨2, 0x8000, 254, 255⟩] := by decide +kernel

/-! ## Every command completes somewhere

Each entry's packet passes every check of R75 on the state beside it, and its command is carried out: the hypothesis `accepts` of the
completion statements is met, on the branch that completes. -/

theorem test_family_00_completes : ([
    ((bench .standby), (fun h => .sessionOpen h ⟨1, 0⟩)),
    ((bench .standby), (fun h => .sessionClose h)),
    ((bench .standby), (fun h => .heartbeat h)),
    ((bench .standby), (fun h => .claim h ⟨100⟩)),
    ((bench .standby), (fun h => .release h)),
    ((bench .standby), (fun h => .transfer h ⟨0, 100⟩)),
    ((bench .standby), (fun h => .ownerQuery h)),
    ((bench .standby), (fun h => .sessionList h ⟨0, 1⟩)),
    ((setDev (fun d => { d with trained := [0] }) (bench .standby)), (fun h => .queueCreate h ⟨0, 1, 16, 0, 0, 0⟩)),
    ((setDev (fun d => { d with pairs := [(pairKey 0 1, { entries := 16, sq := 0, cq := 0, area := 0 })] }) (bench .standby)), (fun h => .queueDelete h ⟨0, 1⟩)),
    ((bench .standby), (fun h => .identify h)),
    ((bench .standby), (fun h => .notifySubscribe h ⟨0⟩))] : List (State × (Hdr → Instr))).all (fun e => completes e.2 e.1) = true := by decide +kernel

theorem test_family_01_completes : ([
    ((bench .standby), (fun h => .stateQuery h)),
    ((setDmc (fun d => { d with set := [0], rate := 4800, chans := [(0, { dimms := [(32, 8, 4800, 0)] })] }) (bench .standby)), (fun h => .configCommit h)),
    ((bench .standby), (fun h => .configClear h)),
    ((setNvs (fun v => { v with cfgs := [(0, ({}, []))] }) (bench .standby)), (fun h => .configLoad h ⟨0⟩)),
    ((bench .standby), (fun h => .configCheck h)),
    ((bench .configured), (fun h => .arm h)),
    ((bench .armed), (fun h => .disarm h)),
    ((bench .armed), (fun h => .start h)),
    ((bench .running), (fun h => .stop h ⟨100⟩)),
    ((setDev (fun d => { d with faultClass := 4 }) (bench .fault)), (fun h => .faultClear h)),
    ((bench .standby), (fun h => .sleep h)),
    ((bench .running), (fun h => .applyCancel h ⟨0⟩)),
    ((bench .standby), (fun h => .applyList h ⟨0, 1⟩)),
    ((bench .standby), (fun h => .netConfig h ⟨0, 0, 0, (List.replicate 16 0), 1024, 0⟩))] : List (State × (Hdr → Instr))).all (fun e => completes e.2 e.1) = true := by decide +kernel

theorem test_family_02_completes : ([
    ((bench .standby), (fun h => .portOpen h ⟨0, 0, 1, 0, 1⟩)),
    ((bench .standby), (fun h => .portClose h ⟨0⟩)),
    ((bench .standby), (fun h => .streamSet h ⟨0, 0, 1, 0, 0⟩)),
    ((bench .standby), (fun h => .portProbe h ⟨0⟩)),
    ((bench .standby), (fun h => .portStatus h ⟨0⟩)),
    ((bench .standby), (fun h => .portCounters h ⟨0⟩)),
    ((bench .standby), (fun h => .portCountersClear h ⟨0⟩)),
    ((bench .configured), (fun h => .lanePower h ⟨0, 0, 1, 10⟩)),
    ((setPort 0 (fun p => { p with link := 2 }) (bench .armed)), (fun h => .headRegWrite h ⟨0, 0, 0⟩)),
    ((setPort 0 (fun p => { p with link := 2 }) (bench .armed)), (fun h => .headRegRead h ⟨0, 0⟩)),
    ((setPort 0 (fun p => { p with link := 2 }) (bench .armed)), (fun h => .calRun h ⟨0, 0⟩)),
    ((bench .standby), (fun h => .calPolicy h ⟨10, 0, 20⟩)),
    ((setPort 0 (fun p => { p with link := 2, rate := 1, nLanes := 1 }) (bench .armed)), (fun h => .eyeScan h ⟨0, 0, 0, 0, 4⟩)),
    ((setPort 0 (fun p => { p with link := 2 }) (bench .armed)), (fun h => .latencyMeasure h ⟨0⟩)),
    ((bench .standby), (fun h => .latencyTrim h ⟨0, (-5000)⟩)),
    ((bench .standby), (fun h => .exposureDelay h ⟨500⟩))] : List (State × (Hdr → Instr))).all (fun e => completes e.2 e.1) = true := by decide +kernel

theorem test_family_03_completes : ([
    ((bench .standby), (fun h => .feGeometry h ⟨1, 1000, 1000, 1, 1, 1, 0, 8⟩)),
    ((bench .standby), (fun h => .feStreamMap h ⟨0, 0, 0, 0, 0, (List.replicate 3 0)⟩)),
    ((bench .standby), (fun h => .feSeam h ⟨0, 0, 1, 0, 0⟩)),
    ((bench .standby), (fun h => .feCoefLoad h ⟨0, 1, 0, 0, 1, [0]⟩)),
    ((bench .standby), (fun h => .feBankSelect h ⟨0, 0, 0⟩)),
    ((bench .standby), (fun h => .feShading h ⟨0, 0, 0, 16, 0, 0, 0⟩)),
    ((bench .standby), (fun h => .feSettingLatency h ⟨0, 0, 0, 0, 0, 0, 0, 0, 0⟩)),
    ((bench .standby), (fun h => .feStatus h ⟨0⟩)),
    ((setCfg (fun c => { c with streams := [(0, ⟨0, 0, 64, 0, 255⟩)] }) (bench .running)), (fun h => .feCapture h ⟨0, 0, 0, 4⟩)),
    ((bench .standby), (fun h => .feCountersClear h))] : List (State × (Hdr → Instr))).all (fun e => completes e.2 e.1) = true := by decide +kernel

theorem test_family_04_completes : ([
    ((bench .standby), (fun h => .encConfig h ⟨0, 0, 0, 4294967296, 0, 0, 8, 0, 100, 1000, 0⟩)),
    ((bench .standby), (fun h => .observerSet h ⟨0, 10, 1, 1, 1⟩)),
    ((setAxis 0 (fun x => { x with state := 1 }) (bench .standby)), (fun h => .posOrigin h ⟨0, 0, 0, 0⟩)),
    ((bench .standby), (fun h => .ltgConfig h ⟨0, 0, 1000, 0, 0, 2500⟩)),
    ((bench .configured), (fun h => .ltgEnable h ⟨0, 0⟩)),
    ((bench .standby), (fun h => .cmpConfig h ⟨0, 0, 0, 0, 1, 10, 0, 1000, 0⟩)),
    ((setCfg (fun c => { c with cmp := [(0, ⟨0, 0, 0, 0, 1, 10, 0, 1000, 0⟩)] }) (bench .standby)), (fun h => .cmpListLoad h ⟨0, 0, 1, (List.replicate 16 0)⟩)),
    ((bench .configured), (fun h => .cmpEnable h ⟨0, 0⟩)),
    ((bench .standby), (fun h => .latchConfig h ⟨0, 0, 0, 0⟩)),
    ((bench .standby), (fun h => .latchRead h ⟨0, 1⟩)),
    ((bench .standby), (fun h => .posStatus h ⟨0⟩)),
    ((bench .standby), (fun h => .posCountersClear h))] : List (State × (Hdr → Instr))).all (fun e => completes e.2 e.1) = true := by decide +kernel

theorem test_family_05_completes : ([
    ((bench .standby), (fun h => .timeSource h ⟨0⟩)),
    ((bench .standby), (fun h => .timeSet h ⟨0, 0⟩)),
    ((bench .standby), (fun h => .timeRelearn h)),
    ((bench .standby), (fun h => .timeStatus h)),
    ((bench .standby), (fun h => .ptpConfig h ⟨0, 0, 0, 0, 0, (-7), (-7), 0, 0, 0, 0⟩)),
    ((bench .standby), (fun h => .ppsConfig h ⟨0, (-500000000), 1000⟩)),
    ((bench .standby), (fun h => .ttrConfig h ⟨0, 0, 0, 0, 0, 0, 10⟩)),
    ((bench .standby), (fun h => .tcpConfig h ⟨0, 0, 0⟩)),
    ((bench .standby), (fun h => .tcpRead h ⟨0, 1⟩)),
    ((bench .standby), (fun h => .timeRead h))] : List (State × (Hdr → Instr))).all (fun e => completes e.2 e.1) = true := by decide +kernel

theorem test_family_06_completes : ([
    ((bench .standby), (fun h => .graphNode h ⟨0, 0, 1, [0xFF, 0xFF, 0xFF, 0xFF], (List.replicate 12 0)⟩)),
    ((bench .standby), (fun h => .graphClear h ⟨0⟩)),
    ((bench .standby), (fun h => .gradeRules h ⟨0, 0, 1, ((List.replicate 48 0 ++ [1] ++ List.replicate 15 0))⟩)),
    ((bench .standby), (fun h => .markTable h ⟨0, 0, 1, (List.replicate 4 0)⟩)),
    ((setCfg (fun c => { c with graph := { c.graph with nodes := [(0, ⟨0, 0, 0x01, [0xFF, 0xFF, 0xFF, 0xFF], List.replicate 12 0⟩)] } }) (bench .standby)), (fun h => .graphSelect h ⟨0⟩)),
    ((setCfg (fun c => { c with graph := { c.graph with nodes := [(0, ⟨0, 0, 0x01, [0xFF, 0xFF, 0xFF, 0xFF], List.replicate 12 0⟩)] } }) (bench .standby)), (fun h => .graphParam h ⟨0, 0, 0, 0⟩)),
    ((setCfg (fun c => { c with ports := [(0, ⟨0, 2, 1, 0, 1⟩)] }) (bench .standby)), (fun h => .verifyGraph h ⟨0, 0, 0⟩)),
    ((bench .standby), (fun h => .graphBudget h ⟨0, 0, 1024⟩)),
    ((bench .standby), (fun h => .graphCost h ⟨0⟩)),
    ((bench .standby), (fun h => .elxStatus h ⟨0⟩)),
    ((bench .standby), (fun h => .elxCountersClear h)),
    ((bench .standby), (fun h => .elxGating h ⟨1⟩))] : List (State × (Hdr → Instr))).all (fun e => completes e.2 e.1) = true := by decide +kernel

theorem test_family_07_completes : ([
    ((bench .standby), (fun h => .modelStage h ⟨1, 896⟩)),
    ((setModels (fun m => { m with staging := [(1, { total := 896 })] }) (bench .standby)), (fun h => .modelWrite h ⟨1, 0, 4, (List.replicate 4 0)⟩)),
    ((setModels (fun m => { m with staging := [(1, { total := 896 })] }) (bench .standby)), (fun h => .modelAbort h ⟨1⟩)),
    ((setModels (fun m => { m with loaded := [(1, { bytes := List.replicate 896 0, cost := 0, live := 0 })] }) (bench .standby)), (fun h => .modelUnload h ⟨1⟩)),
    ((setModels (fun m => { m with loaded := [(1, { bytes := List.replicate 896 0, cost := 0, live := 0 })] }) (bench .standby)), (fun h => .modelSwap h ⟨1, 1⟩)),
    ((bench .standby), (fun h => .modelList h ⟨0, 1⟩)),
    ((setModels (fun m => { m with loaded := [(1, { bytes := List.replicate 896 0, cost := 0, live := 0 })] }) (bench .standby)), (fun h => .modelInfo h ⟨1⟩)),
    ((setModels (fun m => { m with loaded := [(1, { bytes := List.replicate 896 0, cost := 0, live := 0 })] }) (bench .standby)), (fun h => .modelTest h ⟨1, 1, 1, 1, 0, [0]⟩))] : List (State × (Hdr → Instr))).all (fun e => completes e.2 e.1) = true := by decide +kernel

theorem test_family_08_completes : ([
    ((bench .standby), (fun h => .resultQueueConfig h ⟨0, 1024, 0, 0⟩)),
    ((bench .standby), (fun h => .tilePoolConfig h ⟨64⟩)),
    ((bench .standby), (fun h => .resultSubscribe h ⟨0, 0, 0, 64, 0, 0, 16, 0⟩)),
    ((bench .standby), (fun h => .resultUnsubscribe h ⟨0⟩)),
    ((setRes (fun r => { r with subs := [(0, theSub)] }) (bench .standby)), (fun h => .resultRead h ⟨0, 1⟩)),
    ((setRes (fun r => { r with subs := [(0, theSub)] }) (bench .standby)), (fun h => .resultAdvance h ⟨0, 0⟩)),
    ((bench .standby), (fun h => .resultStatus h ⟨0⟩)),
    ((setRes (fun r => { r with tiles := [(0, theTile)] }) (bench .standby)), (fun h => .tileInfo h ⟨(2 ^ 32)⟩)),
    ((setRes (fun r => { r with tiles := [(0, theTile)] }) (bench .standby)), (fun h => .tileFetch h ⟨(2 ^ 32), 0, 4⟩)),
    ((bench .standby), (fun h => .resCountersClear h))] : List (State × (Hdr → Instr))).all (fun e => completes e.2 e.1) = true := by decide +kernel

theorem test_family_09_completes : ([
    ((bench .standby), (fun h => .mrkHeadConfig h ⟨0, 1, 1000, 0, 0, 0, 0, 1000, 1, 25000, 20, 100, 0, 1, [0], 4096⟩)),
    ((bench .standby), (fun h => .mrkRemapLoad h ⟨0, 0, 1, [0]⟩)),
    ((bench .standby), (fun h => .mrkPreheat h ⟨0, 0, [50], 50, 0, 0, 100⟩)),
    ((bench .standby), (fun h => .mrkThermal h ⟨0, 0, 10, 1, 100, 100⟩)),
    ((bench .standby), (fun h => .mrkStyle h ⟨[0], 1⟩)),
    ((bench .standby), (fun h => .mrkLineMode h ⟨0, 16, 0, 50, 100, 0⟩)),
    ((bench .configured), (fun h => .mrkHeadMode h ⟨0, 0⟩)),
    ((bench .standby), (fun h => .mrkOverlap h ⟨0, 0, (-1023)⟩)),
    ((bench .configured), (fun h => .mrkServicePattern h ⟨0, [0]⟩)),
    ((setCfg (fun c => { c with headMode := [(0, 2)] }) (bench .configured)), (fun h => .mrkServiceFire h ⟨0, 0, 1, 1⟩)),
    ((bench .standby), (fun h => .mrkVerifyGeometry h ⟨0, 0, 0, 0, 0⟩)),
    ((setCfg (fun c => { c with headMode := [(0, 1)] }) (bench .armed)), (fun h => .mrkTestPrint h ⟨0, 0, 1, 1⟩)),
    ((bench .standby), (fun h => .mrkDotRead h ⟨0, 0, 1⟩)),
    ((bench .standby), (fun h => .mrkCalRead h ⟨0, 0⟩)),
    ((setMrk (fun m => { m with prop := [(0, calBlock)] }) (bench .standby)), (fun h => .mrkCalAccept h ⟨0⟩)),
    ((bench .standby), (fun h => .mrkCalSave h ⟨0⟩)),
    ((bench .standby), (fun h => .mrkStatus h ⟨0⟩)),
    ((bench .standby), (fun h => .mrkMissRead h ⟨0, 1⟩)),
    ((bench .standby), (fun h => .mrkCountersClear h))] : List (State × (Hdr → Instr))).all (fun e => completes e.2 e.1) = true := by decide +kernel

theorem test_family_0a_completes : ([
    ((bench .standby), (fun h => .areaStream h ⟨0, 0, 0, 0, 2, 2, 1, 0, 1⟩)),
    ((bench .standby), (fun h => .clpBlack h ⟨0, 1, [0, 0, 0, 0]⟩)),
    ((bench .standby), (fun h => .clpDefectLoad h ⟨0, 1, 1, 0, 1, [0, 0]⟩)),
    ((bench .standby), (fun h => .clpColour h ⟨0, 1, [0, 0, 0], ((List.replicate 9 0)), 0⟩)),
    ((bench .standby), (fun h => .clpLutLoad h ⟨0, 0, 1, (List.replicate 3 0)⟩)),
    ((bench .standby), (fun h => .clpBankSelect h ⟨0, 0⟩)),
    ((bench .standby), (fun h => .headConfig h ⟨0, 0, 0, [0, 0, 64, 64], [64, 64], 0, 8, 0, 0, 0, 0⟩)),
    ((bench .standby), (fun h => .headCurve h ⟨0, 0, 1, 100, []⟩)),
    ((bench .standby), (fun h => .st2110Config h ⟨0, 0, 4, [0], 0, 0, 96, 0, 0⟩)),
    ((bench .standby), (fun h => .st2110Sdp h ⟨0, 0, 4⟩)),
    ((bench .standby), (fun h => .hostRing h ⟨0, 0, 0, 2, 4096⟩)),
    ((bench .standby), (fun h => .liveView h ⟨0, 0, [0], 1, 1, 64, 1, 0, 0, 1⟩)),
    ((bench .standby), (fun h => .clpStatus h ⟨0⟩)),
    ((bench .standby), (fun h => .clpCountersClear h))] : List (State × (Hdr → Instr))).all (fun e => completes e.2 e.1) = true := by decide +kernel

theorem test_family_0b_completes : ([
    ((bench .standby), (fun h => .vcuContext h ⟨0, 0, 0, 64, 64, 1, 0, 1, [0], 0⟩)),
    ((bench .standby), (fun h => .vcuCoding h ⟨0, 0, 1, 2, 1, 0, 0⟩)),
    ((bench .standby), (fun h => .vcuRate h ⟨0, 0, 100, 1, [0], [0]⟩)),
    ((bench .standby), (fun h => .vcuOutput h ⟨0, 1, 0, 0, 0, 0, 0⟩)),
    ((bench .running), (fun h => .vcuForceIrap h ⟨0⟩)),
    ((setCfg (fun c => { c with vctx := [(0, vctxOf 2)] }) (bench .running)), (fun h => .vcuEncSubmit h ⟨0, 0, 0, 0, 0, 0⟩)),
    ((setCfg (fun c => { c with vctx := [(0, vctxOf 3)] }) (bench .running)), (fun h => .vcuDecWrite h ⟨0, 1, [0]⟩)),
    ((setVcu (fun v => { v with ctxs := [(0, { chunks := [(0, [1, 2, 3, 4])], next := 1 })] }) (bench .standby)), (fun h => .vcuRead h ⟨0, 0, 0, 4⟩)),
    ((bench .standby), (fun h => .vcuStatus h ⟨0⟩)),
    ((bench .standby), (fun h => .vcuCountersClear h))] : List (State × (Hdr → Instr))).all (fun e => completes e.2 e.1) = true := by decide +kernel

theorem test_family_0c_completes : ([
    ((bench .standby), (fun h => .tbcTileCoding h ⟨0⟩)),
    ((bench .standby), (fun h => .tbcHeadOutput h ⟨0, 0, 0, 0, 16, 0, 0, 0, 1048576⟩)),
    ((bench .standby), (fun h => .tbcHistory h ⟨0, 1, 0, 64, 1024⟩)),
    ((bench .standby), (fun h => .tbcPoolConfig h ⟨0⟩)),
    ((setCfg (fun c => { c with tbcPool := 1 }) (bench .standby)), (fun h => .tbcBufWrite h ⟨0, 4, (List.replicate 4 0)⟩)),
    ((setCfg (fun c => { c with tbcPool := 1 }) (bench .standby)), (fun h => .tbcBufRead h ⟨0, 4⟩)),
    ((setCfg (fun c => { c with tbcPool := 1 }) (bench .standby)), (fun h => .tbcJobSubmit h ⟨jobDesc⟩)),
    ((setTbc (fun t => { t with jobs := [{ id := 1, desc := jobDesc, session := 0 }] }) (bench .standby)), (fun h => .tbcJobStatus h ⟨1⟩)),
    ((setTbc (fun t => { t with jobs := [{ id := 1, desc := jobDesc, session := 0 }] }) (bench .standby)), (fun h => .tbcJobCancel h ⟨1⟩)),
    ((setTbc (fun t => { t with heads := [(0, { recs := [(0, [1, 2, 3, 4])], next := 1 })] }) (bench .standby)), (fun h => .tbcRead h ⟨0, 0, 0, 4⟩)),
    ((bench .standby), (fun h => .tbcHistoryFind h ⟨0, 0⟩)),
    ((bench .standby), (fun h => .tbcStatus h)),
    ((bench .standby), (fun h => .tbcCountersClear h))] : List (State × (Hdr → Instr))).all (fun e => completes e.2 e.1) = true := by decide +kernel

theorem test_family_0d_completes : ([
    ((bench .standby), (fun h => .evrChannel h ⟨0, 0, 0, 0, 0, 0, ((List.replicate 16 0xFFFF))⟩)),
    ((bench .configured), (fun h => .evrEnable h ⟨0, 0⟩)),
    ((bench .standby), (fun h => .evrTaskMode h ⟨0x8000, 0⟩)),
    ((bench .standby), (fun h => .evrDivider h ⟨0, 1⟩)),
    ((bench .configured), (fun h => .evrFire h ⟨0⟩)),
    ((bench .standby), (fun h => .evrStatus h ⟨0, 1⟩)),
    ((bench .standby), (fun h => .evrTaskStatus h ⟨0x8000⟩)),
    ((bench .standby), (fun h => .evrTaskClear h ⟨0x8000⟩)),
    ((bench .standby), (fun h => .evrCountersClear h))] : List (State × (Hdr → Instr))).all (fun e => completes e.2 e.1) = true := by decide +kernel

theorem test_family_0e_completes : ([
    ((bench .standby), (fun h => .dmcLayout h ⟨256, 0, 0⟩)),
    ((bench .standby), (fun h => .dmcPolicy h ⟨2, 5, 8, 0, 16, 0, 0, 0, 0, 0⟩)),
    ((bench .standby), (fun h => .dmcUserRegion h ⟨0⟩)),
    ((bench .standby), (fun h => .dmcRetrain h ⟨0⟩)),
    ((bench .standby), (fun h => .dmcStatus h ⟨0⟩)),
    ((bench .standby), (fun h => .dmcEccLog h ⟨0, 1⟩)),
    ((bench .standby), (fun h => .dmcCountersClear h)),
    ((bench .standby), (fun h => .dmaChannel h ⟨0, 0, 0, 0⟩)),
    ((setDmaCh 0 (fun x => { x with set := some ⟨0, 0, 0, 0⟩ }) (bench .standby)), (fun h => .dmaStart h ⟨0⟩)),
    ((setDmaCh 0 (fun x => { x with set := some ⟨0, 0, 0, 0⟩, state := 3 }) (bench .standby)), (fun h => .dmaResume h ⟨0⟩)),
    ((bench .standby), (fun h => .dmaAbort h ⟨0⟩)),
    ((bench .standby), (fun h => .dmaStatus h ⟨0⟩)),
    ((setCfg (fun c => { c with userMib := 1 }) (bench .standby)), (fun h => .dmaBufWrite h ⟨0, 0, 4, (List.replicate 4 0)⟩)),
    ((setCfg (fun c => { c with userMib := 1 }) (bench .standby)), (fun h => .dmaBufRead h ⟨0, 0, 4⟩)),
    ((bench .standby), (fun h => .dmaCountersClear h))] : List (State × (Hdr → Instr))).all (fun e => completes e.2 e.1) = true := by decide +kernel

theorem test_family_0f_completes : ([
    ((bench .standby), (fun h => .envelopeSet h ⟨0, 0, 60⟩)),
    ((bench .standby), (fun h => .planRun h)),
    ((bench .standby), (fun h => .monStatus h)),
    ((bench .standby), (fun h => .thermalConfig h ⟨6000, 8500⟩)),
    ((bench .standby), (fun h => .marginConfig h ⟨20, 1⟩)),
    ((bench .standby), (fun h => .telemetryConfig h ⟨[0], [0]⟩)),
    ((bench .standby), (fun h => .telemetryRead h ⟨0⟩)),
    ((bench .standby), (fun h => .calStatus h ⟨0, 0⟩)),
    ((bench .standby), (fun h => .faultPolicy h ⟨0⟩)),
    ((bench .standby), (fun h => .errlogRead h ⟨0, 0, 1⟩)),
    ((bench .standby), (fun h => .monCountersClear h))] : List (State × (Hdr → Instr))).all (fun e => completes e.2 e.1) = true := by decide +kernel

theorem test_family_10_completes : ([
    ((bench .standby), (fun h => .fwStageBegin h ⟨512⟩)),
    ((setNvs (fun v => { v with stageLen := some 4096 }) (bench .update)), (fun h => .fwStageWrite h ⟨0, 4, (List.replicate 4 0)⟩)),
    ((setNvs (fun v => { v with stageLen := some 4096 }) (bench .update)), (fun h => .fwStageAbort h)),
    ((bench .standby), (fun h => .fwStatus h)),
    ((bench .standby), (fun h => .fwConfirm h)),
    ((bench .standby), (fun h => .fwPolicy h ⟨30, 0⟩)),
    ((bench .standby), (fun h => .efuseRead h ⟨0, 0, 4⟩)),
    ((bench .standby), (fun h => .efuseSecverAdvance h)),
    ((bench .standby), (fun h => .efuseKeyRevoke h ⟨0⟩)),
    ((bench .standby), (fun h => .calWrite h ⟨0x14, 0, 4, (List.replicate 4 0)⟩)),
    ((setNvs (fun v => { v with cal := calPut 0x14 0 0 [1, 2, 3, 4] [] }) (bench .standby)), (fun h => .calRead h ⟨0x14, 0, 0, 4⟩)),
    ((bench .standby), (fun h => .calList h ⟨0, 1⟩)),
    ((setNvs (fun v => { v with cal := calPut 0x14 0 0 [1, 2, 3, 4] [] }) (bench .standby)), (fun h => .calErase h ⟨0x14, 0⟩)),
    ((bench .standby), (fun h => .settingsSave h ⟨0, 0⟩)),
    ((bench .standby), (fun h => .storeStatus h))] : List (State × (Hdr → Instr))).all (fun e => completes e.2 e.1) = true := by decide +kernel

theorem test_family_11_completes : ([
    ((bench .standby), (fun h => .regRead h ⟨0, 1, 0⟩)),
    ((bench .standby), (fun h => .regWrite h ⟨0, 0, 0, 0⟩)),
    ((bench .standby), (fun h => .diagReset h ⟨0, 0, 0⟩)),
    ((bench .standby), (fun h => .diagInject h ⟨2, 32⟩))] : List (State × (Hdr → Instr))).all (fun e => completes e.2 e.1) = true := by decide +kernel

set_option maxRecDepth 100000 in
/-- The commands whose tables are long. -/
theorem test_long_tables_complete : ([
    ((bench .standby), (fun h => .feKernel h ⟨0, (List.replicate 256 0)⟩)),
    ((bench .standby), (fun h => .feMetaKey h ⟨0, 0, 0, 0, 0, 0, (List.replicate 256 0)⟩)),
    ((bench .standby), (fun h => .mrkCalSet h ⟨calBlock⟩)),
    ((bench .standby), (fun h => .headKernel h ⟨0, 0, 0, (List.replicate 512 0)⟩))] : List (State × (Hdr → Instr))).all (fun e => completes e.2 e.1) = true := by decide +kernel

/-- The commands whose outcome rests on an open value, and MODEL_COMMIT, are accepted. -/
theorem test_open_outcomes_accepted : ([
    (bench .standby, fun h => .configSave h ⟨0⟩),
    (setNvs (fun v => { v with stageLen := some 4096 }) (bench .update), fun h => .fwStageEnd h),
    (setNvs (fun v => { v with slotImg := { active := 0, previous := 1 } }) (bench .standby), fun h => .fwRollback h),
    (setModels (fun m => { m with staging := [(1, { total := 1024, pieces := [(0, thePackage)] })] }) (bench .standby), fun h => .modelCommit h ⟨1⟩)] :
      List (State × (Hdr → Instr))).all (fun e => (accepts (good e.2 e.1) e.1).isSome) = true := by decide +kernel

/-! ## Register writes and events: one row each, with the effect its rule gives -/

theorem test_registers : ([
    runs (setDev (fun x => { x with owner := none }) (bench .standby)) (.registerWrite ms 0 (rcpBase + 0x08) 1) (fun t => regView t (rcpBase + 0x08) == 1),
    runs (setDev (fun x => { x with owner := none }) (bench .standby)) (.ownClaimGo ms 0 0) (fun t => t.dev.owner == some 0),
    runs (setDev (fun x => { x with owner := none, trained := [0], pairs := [(pairKey 0 1, aPair)] }) (bench .standby)) (.hqSubmitTailWrite ms 0 0 1 5) (fun t => ((qpair t 0 1).map fun q => q.sqTail) == some 5),
    runs (setDev (fun x => { x with owner := none, trained := [0], pairs := [(pairKey 0 1, { aPair with used := 3 })] }) (bench .standby)) (.hqDoneHeadWrite ms 0 0 1 2) (fun t => ((qpair t 0 1).map fun q => (q.doneHead, q.used)) == some (2, 1)),
    runs (setDev (fun x => { x with owner := none, trained := [0] }) (bench .standby)) (.hqAdminSizeWrite ms 0 0 64) (fun t => ((qpair t 0 0).map fun q => (q.entries, q.area)) == some (64, 48 * 64)),
    runs (rput (cptBase 0 + 0x40) 7 (setDev (fun x => { x with owner := none }) (bench .standby))) (.cntClear ms 0 1) (fun t => rget (cptBase 0 + 0x40) t == 0),
    runs (rput (fepBase + 0x40) 7 (setDev (fun x => { x with owner := none }) (bench .standby))) (.fepCntClear ms 1) (fun t => rget (fepBase + 0x40) t == 0),
    runs (rput (elxReg 0 0x0C) 7 (setDev (fun x => { x with owner := none }) (bench .standby))) (.elxCntClear ms 1) (fun t => rget (elxReg 0 0x0C) t == 0),
    runs (rput (mhReg 0 0x10) 7 (setDev (fun x => { x with owner := none }) (bench .standby))) (.mrkCntClear ms 1) (fun t => rget (mhReg 0 0x10) t == 0),
    runs (rput (clpReg 0 0) 7 (setDev (fun x => { x with owner := none }) (bench .standby))) (.clpCntClear ms 1) (fun t => rget (clpReg 0 0) t == 0),
    runs (rput (vcuBase + 0x40) 7 (setDev (fun x => { x with owner := none }) (bench .standby))) (.vcuCntClear ms 1) (fun t => rget (vcuBase + 0x40) t == 0),
    runs (rput (tbcBase + 0x40) 7 (setDev (fun x => { x with owner := none }) (bench .standby))) (.tbcCntClear ms 1) (fun t => rget (tbcBase + 0x40) t == 0),
    runs (rput (evrBase + 0x0C) 7 (setDev (fun x => { x with owner := none }) (bench .standby))) (.evrCntClear ms 1) (fun t => rget (evrBase + 0x0C) t == 0),
    runs (rput (dmaBase + 0x108) 7 (setDev (fun x => { x with owner := none }) (bench .standby))) (.dmaCntClear ms 1) (fun t => rget (dmaBase + 0x108) t == 0),
    runs (rput (dmcBase + 0x100) 7 (setDev (fun x => { x with owner := none }) (bench .standby))) (.dmcCntClear ms 1) (fun t => rget (dmcBase + 0x100) t == 0),
    runs (rput (rcpBase + 0x40) 7 (setDev (fun x => { x with owner := none }) (bench .standby))) (.rcpCntClear ms 1) (fun t => rget (rcpBase + 0x40) t == 0),
    runs (rput (monBase + 0x44) 7 (setDev (fun x => { x with owner := none }) (bench .standby))) (.monCntClear ms 1) (fun t => rget (monBase + 0x44) t == 0),
    runs (rput (nvsBase + 0x40) 7 (setDev (fun x => { x with owner := none }) (bench .standby))) (.nvsCntClear ms 1) (fun t => rget (nvsBase + 0x40) t == 0),
    runs (bench .standby) (.tmuSnapGo ms 0 0) (fun t => (tabGet t.tmu.snap 0).isSome),
    runs (setTmu (fun x => { x with snap := [(0, 5 * 2 ^ 32)] }) (bench .standby)) (.tmuSnapComplete ms 0) (fun t => rget (tmuBase + 0x1008) t == 5),
    runs (setAxis 0 (fun x => { x with state := 1, md0 := 77 }) (bench .standby)) (.posSnapGo ms 0 0) (fun t => bit (rget (posBase + 0x1000) t) 31 && rget (posBase + 0x1018) t == 77),
    runs (setRes (fun r => { r with subs := [(0, { theSub with mirror := some { link := 0, addr := 4096, slots := 16, coalesce := 0, seq := 5, tail := 2, used := [3, 4] } })] }) (bench .standby)) (.resMirHeadWrite ms 0 0 1 0) (fun t => ((sub? t).bind fun x => x.mirror.map fun m => m.used) == some [4]),
    runs (setCHead 0 (fun x => { x with used := 2 }) (setCfg (fun x => { x with rings := [(0, ⟨0, 0, 0, 4, 4096⟩)] }) (bench .standby))) (.clpHostHeadWrite ms 0 1 0) (fun t => (chead t 0).used == 1),
    runs (setVctx 0 (fun x => { x with used := 2 }) (setCfg (fun x => { x with vctx := [(0, vctxOf 3)], vout := [(0, ⟨0, 1, 0, 0, 0, 4, 4096⟩)] }) (bench .standby))) (.vcuHostHeadWrite ms 0 0 1 0) (fun t => (vctx t 0).used == 1),
    runs (setTHead 0 (fun x => { x with used := 2 }) (setCfg (fun x => { x with tbcHeads := [(0, ⟨0, 0, 0, 0, 16, 1, 0, 0, 1048576⟩)] }) (bench .standby))) (.tbcHostHeadWrite ms 0 0 1 0) (fun t => (thead t 0).used == 1),
    runs (setDev (fun x => { x with owner := none }) (bench .standby)) (.evrSwFire ms (2 ^ 31 + 5)) (fun t => t.evr.emits.any fun e => e.src == 65541),
    runs (setDmaCh 0 (fun x => { x with set := some ⟨0, 0, 0, 0⟩ }) (setDev (fun x => { x with owner := none }) (bench .standby))) (.dmaDoorbell ms (2 ^ 31)) (fun t => (dmaCh t 0).state == 1),
    runs (setDev (fun x => { x with owner := none }) (bench .standby)) (.swBlockReset ms (2 ^ 31 + 36)) (fun t => (tabGet t.rcp.wraps 36).isSome),
    runs (setDev (fun x => { x with owner := none }) (bench .standby)) (.swSystemReset ms (2 ^ 31 + 0x500)) (fun t => (t.rcp.rst.map fun r => (r.reach, r.keep)) == some (1, true)),
    runs (setDev (fun x => { x with owner := none }) (bench .standby)) (.swChipReset ms (2 ^ 31 + 0x200)) (fun t => (t.rcp.rst.map fun r => (r.reach, r.keep)) == some (2, false))] : List Bool).all id = true := by decide +kernel

theorem test_lapses : ([
    runs (setDev (fun x => { x with sessions := [(0, { aSess with held := [(ms, .heartbeat (hdrOf 0 3 0 0), aTicket)] })] }) (bench .standby)) (.sequenceHoldTimeout ms) (fun t => ((sess t 0).map fun x => x.held.length) == some 0),
    runs (setDev (fun x => { x with sessions := [(0, { aSess with idle := 1 })] }) (bench .standby)) (.sessionIdleTimeout (1000 * ms)) (fun t => (sess t 0).isNone),
    runs (setDev (fun x => { x with leaseEnd := ms }) (bench .standby)) (.leaseEnd ms) (fun t => t.dev.owner == none),
    runs (setDev (fun x => { x with opens := [⟨via0, 7, ms, ⟨1, 0, 0, 7, 0, 1, 0, false, []⟩⟩] }) (bench .standby)) (.sessionOpenKeepEnd ms) (fun t => t.dev.opens == []),
    runs (setDev (fun x => { x with queue := [⟨.feBankSelect (hdrOf 0 1 0 0) ⟨0, 0, 1⟩, aTicket, false, ⟨4, 0, 0, 0, 1000⟩, [[0], [0], [1]]⟩] }) (bench .running)) (.applyAtDue ms) (fun t => t.dev.queue == []),
    runs (setFep (fun x => { x with ended := true }) (setDev (fun x => { x with drain := some (0, 2 * ms) }) (bench .draining))) (.drainComplete ms) (fun t => t.dev.state == .armed),
    runs (setDev (fun x => { x with drain := some (0, ms) }) (bench .draining)) (.drainLimit ms) (fun t => t.dev.state == .armed)] : List Bool).all id = true := by decide +kernel

theorem test_links : ([
    runs (setPort 0 (fun x => { x with link := 2, nLanes := 1, mode := 0 }) (setCfg (fun x => { x with streams := [(0, ⟨0, 0, 64, 0, 255⟩)], ports := [(0, ⟨0, 0, 1, 0, 1⟩)] }) (bench .running))) (.line ms (aPkt 1 0 9 (List.replicate 64 5))) (fun t => tabGet (port t 0).next 0 == some 10),
    runs (setPort 0 (fun x => { x with link := 2, nLanes := 1, mode := 0 }) (setCfg (fun x => { x with streams := [(0, ⟨0, 0, 64, 0, 255⟩)], ports := [(0, ⟨0, 1, 1, 0, 1⟩)], area := [(0, ⟨0, 1, 0, 0, 64, 64, 1000, 0, 1⟩)] }) (bench .running))) (.frameStart ms (aPkt 2 0 9 (leBytes 4 64 ++ leBytes 4 64 ++ leBytes 4 10))) (fun t => (cctx t 0).opened),
    runs (setClp (fun c => { c with prim := [aFrame] }) (setCctx 0 (fun x => { x with opened := true }) (setPort 0 (fun x => { x with link := 2, nLanes := 1, mode := 0 }) (setCfg (fun x => { x with streams := [(0, ⟨0, 0, 64, 0, 255⟩)], ports := [(0, ⟨0, 1, 1, 0, 1⟩)], area := [(0, ⟨0, 1, 0, 0, 64, 64, 1000, 0, 1⟩)] }) (bench .running))))) (.frameEnd ms (aPkt 3 0 9 (leBytes 8 0))) (fun t => (t.clp.prim.all fun f => f.ended)),
    runs (setCfg (fun x => { x with metaKeys := [(0, ⟨0, 0, 0, 1, 4, 0, 1 :: List.replicate 255 0⟩)] }) (setPort 0 (fun x => { x with link := 2, nLanes := 1, mode := 0 }) (setCfg (fun x => { x with streams := [(0, ⟨0, 0, 64, 0, 255⟩)], ports := [(0, ⟨0, 0, 1, 0, 1⟩)] }) (bench .running)))) (.metadata ms (aPkt 4 0 9 (leBytes 8 0))) (fun t => t.now == ms),
    runs (setPort 0 (fun x => { x with acc := some { tk := aTicket, tag := 3, deadline := 2 * ms } }) (setPort 0 (fun x => { x with link := 2, nLanes := 1, mode := 0 }) (bench .armed))) (.regEcho ms (aPkt 5 0 9 ([0, 0, 0, 0, 9, 0, 0, 0, 3, 0, 0, 0]))) (fun t => (port t 0).acc == none),
    runs (setPort 0 (fun x => { x with echo := some { tk := aTicket, deadline := 2 * ms } }) (setPort 0 (fun x => { x with link := 2, nLanes := 1, mode := 0 }) (bench .armed))) (.echo ms 0 0 100 ⟨4000, ctrlCrc 0x41 [0, 0, 100, 0, 0, 0]⟩) (fun t => ((port t 0).echo.map fun e => e.got) == some [(4000, 100)]),
    runs (setPort 0 (fun x => { x with link := 2, nLanes := 1, mode := 0 }) (bench .armed)) (.laneAck ms 0 1 1 0 ⟨1, ctrlCrc 0x51 [1, 1, 0, 1]⟩) (fun t => (port t 0).mode == 1),
    runs (setFep (fun f => { f with caps := [(0, { tk := none, length := 4, deadline := ms, bytes := none })] }) (bench .running)) (.feCaptureTimeout ms 0) (fun t => t.fep.caps == []),
    runs (setPort 0 (fun x => { x with bring := some (.retry, 0), rate := 1, nLanes := 1 }) (setCfg (fun x => { x with streams := [(0, ⟨0, 0, 64, 0, 255⟩)], ports := [(0, ⟨0, 0, 1, 0, 1⟩)] }) (bench .configured))) (.portUp ms 0 { heard := [theHeard], echoes := List.replicate 16 (4000, 100), head := [0x52415448, 0x10000, 0xFFFF, 0, 64, 255, 255], temp := 2500, coefs := [[]] }) (fun t => (port t 0).link == 2),
    runs (setPort 0 (fun x => { x with bring := some (.retry, 0) }) (setCfg (fun x => { x with streams := [(0, ⟨0, 0, 64, 0, 255⟩)], ports := [(0, ⟨0, 0, 1, 0, 1⟩)] }) (bench .configured))) (.bringupTimeout (201 * ms) 0 false) (fun t => (port t 0).bring == none),
    runs (setPort 0 (fun x => { x with link := 2, nLanes := 1, mode := 0 }) (setCfg (fun x => { x with streams := [(0, ⟨0, 0, 64, 0, 255⟩)], ports := [(0, ⟨0, 0, 1, 0, 1⟩)] }) (bench .running))) (.linkDown ms 0 ⟨true, []⟩) (fun t => (port t 0).link == 3),
    runs (setPort 0 (fun x => { x with link := 3 }) (setCfg (fun x => { x with streams := [(0, ⟨0, 0, 64, 0, 255⟩)], ports := [(0, ⟨0, 0, 1, 0, 1⟩)] }) (bench .running))) (.bringupRetry ms 0) (fun t => (port t 0).bring.isSome),
    runs (setPort 0 (fun x => { x with acc := some { tk := aTicket, tag := 3, deadline := ms } }) (setPort 0 (fun x => { x with link := 2, nLanes := 1, mode := 0 }) (bench .armed))) (.regEchoTimeout ms 0) (fun t => (port t 0).acc == none),
    runs (setPort 0 (fun x => { x with echo := some { tk := aTicket, deadline := ms } }) (setPort 0 (fun x => { x with link := 2, nLanes := 1, mode := 0 }) (bench .armed))) (.echoTimeout ms 0) (fun t => (port t 0).echo == none),
    runs (setPort 0 (fun x => { x with link := 2, nLanes := 1, mode := 0, grid := some 0 }) (bench .armed)) (.timeMessageDue ms 0) (fun t => (port t 0).ctl != []),
    runs (setPort 0 (fun x => { x with link := 2, nLanes := 1, mode := 0 }) (bench .running)) (.qualityUpdate ms 0 [⟨0, 0, 0, 1000000, 0, 10000, 200, 80, 80, 2500⟩]) (fun t => ((port t 0).lanes.headD {}).snr == 200),
    runs (setPort 0 (fun x => { x with link := 2, nLanes := 1, mode := 0 }) (bench .running)) (.recalPeriod ms 0 0) (fun t => ((port t 0).recal.map fun r => r.lanes) == some 1),
    runs (setPort 0 (fun x => { x with recal := some { lanes := 1 }, fec := 1 }) (setPort 0 (fun x => { x with link := 2, nLanes := 1, mode := 0 }) (bench .running))) (.calCandidateReady ms 0 5 [200] [[1, 2]]) (fun t => ((port t 0).recal.map fun r => (r.stage, r.mseq)) == some (1, 7)),
    runs (setPort 0 (fun x => { x with fec := 1, recal := some { lanes := 1, target := [(0, [1, 2])], stage := 1 } }) (setPort 0 (fun x => { x with link := 2, nLanes := 1, mode := 0 }) (bench .running))) (.coefCommit ms 0 0) (fun t => ((port t 0).recal.map fun r => r.stage) == some 2),
    runs (setPort 0 (fun x => { x with recal := some { lanes := 1, stage := 2, qfBefore := 100 } }) (setPort 0 (fun x => { x with link := 2, nLanes := 1, mode := 0 }) (bench .running))) (.coefRevertCheck ms 0 97) (fun t => ((port t 0).recal.map fun r => (r.stage, r.qfAfter)) == some (3, 97)),
    runs (setPort 0 (fun x => { x with lanes := [{ prov := true }] }) (setPort 0 (fun x => { x with link := 2, nLanes := 1, mode := 0 }) (bench .running))) (.provisionalRemeasure ms 0 0 0 120) (fun t => ((port t 0).lanes.headD {}).qf == 120),
    runs (setPort 0 (fun x => { x with scan := some { lane := 0, eye := 0, tk := aTicket, length := 4 } }) (setPort 0 (fun x => { x with link := 2, nLanes := 1, mode := 0 }) (bench .armed))) (.eyeScanDone ms 0 (List.replicate 16384 7)) (fun t => (port t 0).scan == none),
    runs (setCfg (fun x => { x with lanePower := [(0, ⟨0, 3, 1, 10⟩)] }) (setPort 0 (fun x => { x with link := 2, nLanes := 1, mode := 0, grid := some 0 }) (setCfg (fun x => { x with ports := [(0, ⟨0, 0, 1, 0, 1⟩)] }) (bench .armed)))) (.laneStandbyTime ms 0) (fun t => (port t 0).ctl != []),
    runs (setCfg (fun x => { x with lanePower := [(0, ⟨0, 3, 1, 10⟩)] }) (setPort 0 (fun x => { x with link := 2, nLanes := 1, mode := 1, grid := some 0, head := [0x52415448, 0x10000, 0xFFFF] }) (setCfg (fun x => { x with ports := [(0, ⟨0, 0, 1, 0, 1⟩)] }) (bench .armed)))) (.laneDormantTime (10 * ms) 0) (fun t => (port t 0).ctl != [])] : List Bool).all id = true := by decide +kernel

theorem test_motion : ([
    runs (setAxis 0 (fun x => { x with state := 1 }) (setCfg (fun x => { x with enc := [(0, ⟨0, 1, 0, 4294967296, 0, 0, 8, 0, 100, 1000, 0⟩)] }) (bench .standby))) (.encoderEdge ms 0 true false) (fun t => (axis t 0).count == 1),
    runs (setAxis 0 (fun x => { x with state := 1, count := 9, pendO := some ⟨1000, 1, 0⟩ }) (setCfg (fun x => { x with enc := [(0, ⟨0, 1, 0, 4294967296, 0, 0, 8, 0, 100, 1000, 0⟩)] }) (bench .standby))) (.zEdge ms ⟨0, true⟩) (fun t => (axis t 0).lastZ == some (9, 1) && (axis t 0).origin),
    runs (setAxis 0 (fun x => { x with state := 1 }) (setCfg (fun x => { x with enc := [(0, ⟨0, 2, 0, 4294967296, 0, 0, 8, 0, 100, 1000, 0⟩)] }) (bench .standby))) (.serialSample ms 0) (fun t => (axis t 0).sampleAt == ms),
    runs (setAxis 0 (fun x => { x with state := 1, word := some 5 }) (setCfg (fun x => { x with enc := [(0, ⟨0, 2, 0, 4294967296, 0, 0, 8, 0, 100, 1000, 0⟩)] }) (bench .standby))) (.serialFrame ms 0 ⟨true, 5, false, false, 0⟩) (fun t => (axis t 0).state == 1),
    runs (setAxis 0 (fun x => { x with state := 2 }) (setCfg (fun x => { x with enc := [(0, ⟨0, 1, 0, 4294967296, 0, 0, 8, 0, 100, 1000, 0⟩)] }) (bench .standby))) (.axisFaultExit (10 * ms) 0) (fun t => (axis t 0).state == 1),
    runs (setAxis 0 (fun x => { x with state := 1 }) (setCfg (fun x => { x with enc := [(0, ⟨0, 1, 0, 4294967296, 0, 0, 8, 0, 100, 1000, 0⟩)] }) (bench .standby))) (.observerUpdate ms 0) (fun t => (axis t 0).obsAt == some ms),
    runs (setAxis 0 (fun x => { x with state := 1, moving := true }) (setCfg (fun x => { x with enc := [(0, ⟨0, 1, 0, 4294967296, 0, 0, 8, 0, 100, 1000, 0⟩)] }) (bench .standby))) (.motionStop ms 0) (fun t => ! (axis t 0).moving),
    runs (setAxis 0 (fun x => { x with state := 1, origin := true, count := 5000, since := ms, before := 4999 * 65536 }) (setCfg (fun x => { x with ltg := [(0, ⟨0, 0, 1000, 0, 0, 2500⟩)], ltgOn := [(0, 1)] }) (setCfg (fun x => { x with enc := [(0, ⟨0, 1, 0, 4294967296, 0, 0, 8, 0, 100, 1000, 0⟩)] }) (bench .running)))) (.tick ms 0 5 true) (fun t => ((tabGet t.pos.ltg 0).map fun x => x.top) == some (some 5)),
    runs ((fun s => { s with pos := { s.pos with exps := [{ gen := 0, line := 5, t := ms, skip := false }] } }) (setAxis 0 (fun x => { x with state := 1, origin := true }) (setCfg (fun x => { x with ltg := [(0, ⟨0, 0, 1000, 0, 0, 2500⟩)], ltgOn := [(0, 1)] }) (setCfg (fun x => { x with enc := [(0, ⟨0, 1, 0, 4294967296, 0, 0, 8, 0, 100, 1000, 0⟩)] }) (bench .running))))) (.exposureLatch ms 0) (fun t => t.pos.exps == []),
    runs (setCfg (fun x => { x with cmp := [(0, ⟨0, 0, 1, 0, 1, 10, 10, 1000, 2⟩)], cmpOn := [(0, 1)] }) (setAxis 0 (fun x => { x with state := 1, origin := true, count := 10, since := ms, before := 9 * 65536 }) (setCfg (fun x => { x with enc := [(0, ⟨0, 1, 0, 4294967296, 0, 0, 8, 0, 100, 1000, 0⟩)] }) (bench .running)))) (.matchEv ms 0 0 true) (fun t => ((tabGet t.pos.cmp 0).map fun x => x.out) == some true),
    runs (setCmp 0 (fun x => { x with out := true, pulseEnd := some ms }) (bench .running)) (.cmpPulseEnd ms 0) (fun t => ((tabGet t.pos.cmp 0).map fun x => x.out) == some false),
    runs (setCfg (fun x => { x with latches := [(0, ⟨0, 0, 0, 0⟩)] }) (setAxis 0 (fun x => { x with state := 1 }) (setCfg (fun x => { x with enc := [(0, ⟨0, 1, 0, 4294967296, 0, 0, 8, 0, 100, 1000, 0⟩)] }) (bench .standby)))) (.latchInputEdge ms 0 true) (fun t => ((tabGet t.pos.latch 0).map fun x => x.fifo.length) == some 1),
    runs (setTmu (fun x => { x with source := 1 }) (bench .standby)) (.ptpMessage ms ⟨4, 0, 0, 0, [], [], 9, false, 0, 0, [2], 1, 6, 0, 0, 128, 0, 37⟩) (fun t => t.tmu.ptp.parent.isSome && t.tmu.ptp.utc == 37),
    runs (setTmu (fun x => { x with source := 1, ptp := { parent := some ([1], []) } }) (bench .standby)) (.ptpTxDue ms 2) (fun t => tabGet t.tmu.ptp.seqs 2 == some 1 && t.tmu.ptp.t3.isSome),
    runs (setTmu (fun x => { x with source := 2, ppsSec := some 100 }) (bench .standby)) (.ppsInEdge ms) (fun t => tmuSec t == 100),
    runs (setTmu (fun x => { x with source := 2, state := 2 }) (bench .standby)) (.sourceLoss (1500 * ms)) (fun t => t.tmu.state == 3),
    runs (setTmu (fun x => { x with pps := ⟨1, 0, 1000⟩, ppsNext := some 0 }) (bench .standby)) (.ppsOutEdge ms true) (fun t => t.tmu.ppsHigh),
    runs (setTmu (fun x => { x with ttr := [(0, { p := ⟨0, 1, 0, 0, 0, 1, 10⟩, next := some 0 })] }) (bench .standby)) (.fire ms 0) (fun t => ((tabGet t.tmu.ttr 0).map fun x => x.pulseEnd.isSome) == some true),
    runs (setTmu (fun x => { x with tcp := [(0, { p := ⟨0, 0, 0⟩, fifo := [] })] }) (bench .standby)) (.tioCapture ms 0 true) (fun t => ((tabGet t.tmu.tcp 0).map fun x => x.fifo.length) == some 1),
    runs (setTmu (fun x => { x with ttr := [(0, { p := ⟨0, 1, 0, 0, 0, 1, 10⟩, next := none, pulseEnd := some ms })] }) (bench .standby)) (.tioPulseEnd ms 0) (fun t => ((tabGet t.tmu.ttr 0).map fun x => x.pulseEnd) == some none)] : List Bool).all id = true := by decide +kernel

theorem test_array : ([
    runs (setClu false 0 (fun c => { c with inq := [aLine] }) (bench .running)) (.webLineArrival ms 0 false) (fun t => (cluOf t false 0).backlog.length == 1),
    runs (setClu false 0 (fun c => { c with backlog := [aLine] }) (bench .running)) (.lineAnalysed ms 0 false ⟨false, [], false⟩) (fun t => (cluOf t false 0).backlog == []),
    runs (setElx (fun x => { x with waiting := [aFound] }) (bench .running)) (.classifyDone ms 0 false) (fun t => t.elx.waiting == []),
    runs (setRes (fun r => { r with writer := [aRec] }) (bench .running)) (.recordWritten ms) (fun t => (rqueue t 0).written == 1),
    runs (rput elxBase 1 (bench .standby)) (.clusterGate (50 * ms) 0) (fun t => bit (rget elxBase t) 0 == false),
    runs (setClu false 0 (fun c => { c with backlog := [aLine] }) (bench .running)) (.clusterHang ms 0) (fun t => (tabGet t.rcp.wraps 16).isSome),
    runs (setRes (fun r => { r with subs := [(0, { theSub with mirror := some { link := 0, addr := 4096, slots := 16, coalesce := 5, seq := 5, owed := true } })] }) (bench .standby)) (.coalescingIntervalEnd ms 0 0) (fun t => ((sub? t).bind fun x => x.mirror.map fun m => m.owed) == some false)] : List Bool).all id = true := by decide +kernel

theorem test_firing : ([
    runs (setMrk (fun x => { x with inbox := [aDec] }) (setCfg (fun x => { x with heads := [(0, ⟨0, 8, 1000, 0, 0, 8, 0, 1000, 1000, 25000, 20, 100, 0, 1, [0], 4096⟩)], headMode := [(0, 1)] }) (bench .running))) (.markDecision ms) (fun t => t.mrk.inbox == []),
    runs (setMHead 0 (fun x => { x with en := true, top := 9 }) (setCfg (fun x => { x with heads := [(0, ⟨0, 8, 1000, 0, 0, 8, 0, 1000, 1000, 25000, 20, 100, 0, 1, [0], 4096⟩)], headMode := [(0, 1)] }) (setAxis 0 (fun x => { x with state := 1, origin := true, count := 1000, since := ms, before := 999 * 65536 }) (setCfg (fun x => { x with streams := [(0, ⟨0, 0, 64, 0, 0⟩)], ports := [(0, ⟨0, 0, 1, 0, 1⟩)], maps := [(0, ⟨0, 0, 0, 0, 63, [0, 0, 65536]⟩)] }) (setCfg (fun x => { x with ltg := [(0, ⟨0, 0, 1000, 0, 0, 2500⟩)], ltgOn := [(0, 1)] }) (setCfg (fun x => { x with enc := [(0, ⟨0, 1, 0, 4294967296, 0, 0, 8, 0, 100, 1000, 0⟩)] }) (bench .running))))))) (.fireInstant ms 0 1 true) (fun t => (mhead t 0).hwm == 1),
    runs (setMHead 0 (fun x => { x with en := true, top := 9, temp := 0, shift := some { inst := 3, start := 0, fall := 0 }, dots := [{ inst := 3, noz := 0, mark := 0 }] }) (setCfg (fun x => { x with preheat := [(0, ⟨0, 1, [200], 50, 0, 10000, 100⟩)] }) (setCfg (fun x => { x with heads := [(0, ⟨0, 8, 1000, 0, 0, 8, 0, 1000, 1000, 25000, 20, 100, 0, 1, [0], 4096⟩)], headMode := [(0, 1)] }) (setAxis 0 (fun x => { x with state := 1, origin := true, count := 3000, since := ms, before := 2999 * 65536 }) (setCfg (fun x => { x with streams := [(0, ⟨0, 0, 64, 0, 0⟩)], ports := [(0, ⟨0, 0, 1, 0, 1⟩)], maps := [(0, ⟨0, 0, 0, 0, 63, [0, 0, 65536]⟩)] }) (setCfg (fun x => { x with ltg := [(0, ⟨0, 0, 1000, 0, 0, 2500⟩)], ltgOn := [(0, 1)] }) (setCfg (fun x => { x with enc := [(0, ⟨0, 1, 0, 4294967296, 0, 0, 8, 0, 100, 1000, 0⟩)] }) (bench .running)))))))) (.preheatStart ms 0 3) (fun t => (mhead t 0).pre.isSome),
    runs (setCfg (fun x => { x with heads := [(0, ⟨0, 8, 1000, 0, 0, 8, 0, 1000, 1000, 25000, 20, 100, 0, 1, [0], 4096⟩)], headMode := [(0, 1)] }) (bench .running)) (.markFetchDone ms 0 7 []) (fun t => (mhead t 0).top == 7),
    runs (bench .running) (.ldackChange ms true) (fun t => t.mrk.ldack),
    runs (setMrk (fun x => { x with rev := true }) (bench .running)) (.revreqRelease ms) (fun t => ! t.mrk.rev),
    runs (setMrk (fun x => { x with stop := true }) (bench .running)) (.stopTimeout (2000 * ms)) (fun t => t.mrk.skipMode && ! t.mrk.stop),
    runs (setMrk (fun x => { x with slow := true, slowOff := some 0 }) (bench .running)) (.slowreqRelease (10 * ms)) (fun t => ! t.mrk.slow),
    runs (setCfg (fun x => { x with heads := [(0, ⟨0, 8, 1000, 0, 0, 8, 0, 1000, 1000, 25000, 20, 100, 0, 1, [0], 4096⟩)], headMode := [(0, 1)] }) (bench .running)) (.headTempRead ms 0 true 0x1900) (fun t => (mhead t 0).temp == 0x1900),
    runs (setMHead 0 (fun x => { x with en := true, settleTo := ms }) (setCfg (fun x => { x with heads := [(0, ⟨0, 8, 1000, 0, 0, 8, 0, 1000, 1000, 25000, 20, 100, 0, 1, [0], 4096⟩)], headMode := [(0, 1)] }) (bench .running))) (.enSettleEnd ms 0) (fun t => t.now == ms),
    runs (setMHead 0 (fun x => { x with en := true, svc := some ⟨false, 1, 5, ms⟩ }) (setCfg (fun x => { x with headMode := [(0, 2)] }) (setCfg (fun x => { x with heads := [(0, ⟨0, 8, 1000, 0, 0, 8, 0, 1000, 1000, 25000, 20, 100, 0, 1, [0], 4096⟩)], headMode := [(0, 1)] }) (bench .configured)))) (.serviceFireTick ms 0) (fun t => ((mhead t 0).svc.map fun v => v.left) == some 4),
    runs (setMHead 0 (fun x => { x with en := true, pulse := true, lastFire := some 0 }) (setCfg (fun x => { x with heads := [(0, ⟨0, 8, 1000, 0, 0, 8, 0, 1000, 1000, 25000, 20, 100, 0, 1, [0], 4096⟩)], headMode := [(0, 1)] }) (bench .running))) (.mainPulseEnd ms 0) (fun t => ! (mhead t 0).pulse)] : List Bool).all id = true := by decide +kernel

theorem test_media : ([
    runs (setClp (fun c => { c with prim := [{ aFrame with ended := true }] }) (setCfg (fun x => { x with streams := [(0, ⟨0, 0, 64, 0, 255⟩)], ports := [(0, ⟨0, 1, 1, 0, 1⟩)], area := [(0, ⟨0, 1, 0, 0, 64, 64, 1000, 0, 1⟩)] }) (bench .running))) (.clpFrameDone ms 0 false) (fun t => t.clp.prim == []),
    runs (setCfg (fun x => { x with live := [(0, ⟨0, 1, [0], 1, 1, 2, 1, 0, 0, 1⟩)] }) (bench .running)) (.liveViewFrame ms 0) (fun t => (cctx t 0).nextIdx == 1),
    runs (setClp (fun c => { c with senders := [(0, { frame := some anHFrame })] }) (setCfg (fun x => { x with senders := [(0, ⟨0, 0, 4, [0], 0, 0, 96, 0, 0⟩)] }) (bench .running))) (.st2110PacketDue ms 0) (fun t => ((tabGet t.clp.senders 0).map fun x => x.seq) == some 1),
    runs (setVcu (fun v => { v with current := some 0, ctxs := [(0, { inBuf := [1, 2, 3] })] }) (setCfg (fun x => { x with vctx := [(0, vctxOf 3)] }) (bench .running))) (.vcuSliceDone ms 0 ⟨[], [], [], [], false, [], []⟩ ⟨3, none, none, []⟩ false) (fun t => (vctx t 0).inBuf == []),
    runs (setTbc (fun t => { t with busy := 4, jobs := [{ id := 1, desc := jobDesc, session := 0, released := true, src := some [9, 9, 9, 9] }] }) (setCfg (fun x => { x with tbcPool := 1 }) (bench .standby))) (.tbcLineDone ms false) (fun t => (t.tbc.jobs.map fun j => j.lines) == [1] || t.tbc.dones.length == 1)] : List Bool).all id = true := by decide +kernel

theorem test_memory : ([
    runs (setEvr (fun e => { e with tasks := [(4, { pend := some 3 })] }) (bench .running)) (.pendingDelivery ms 4) (fun t => ((tabGet t.evr.tasks 4).map fun x => x.pend) == some none),
    runs (setDmaCh 0 (fun x => { x with set := some ⟨0, 0, 0, 0⟩, state := 1, desc := some aDesc }) (setCfg (fun x => { x with userMib := 1 }) (bench .running))) (.dmaTransferDone ms 0 true 8 ⟨[], []⟩) (fun t => (dmaCh t 0).done == 8 || (dmaCh t 0).left),
    runs (setDmaCh 0 (fun x => { x with set := some ⟨0, 0, 0, 0⟩, state := 1, waitTo := some ms }) (setCfg (fun x => { x with userMib := 1 }) (bench .running))) (.dmaRetryWait ms 0) (fun t => (dmaCh t 0).waitTo == none),
    runs (setDmaCh 0 (fun x => { x with set := some ⟨0, 0, 0, 0⟩, state := 1, desc := some aDesc, left := true, done := 8 }) (setCfg (fun x => { x with userMib := 1 }) (bench .running))) (.descriptorComplete ms 0) (fun t => (dmaCh t 0).left == false),
    runs (setDmaCh 0 (fun x => { x with set := some ⟨0, 0, 0, 0⟩, state := 1, desc := some (aDesc.set 22 1), left := true, done := 8 }) (setCfg (fun x => { x with userMib := 1 }) (bench .running))) (.fenceDone ms 0 true) (fun t => (dmaCh t 0).left == false),
    runs (setDmc (fun x => { x with set := [0] }) (bench .running)) (.patrolScrub ms [⟨64, 0, 0, [3]⟩]) (fun t => t.dmc.log.length == 1),
    runs (setDmc (fun x => { x with set := [0] }) (bench .running)) (.refreshDue ms 0) (fun t => t.out.any fun o => o == .dram 0 0 0 0),
    runs (setDmc (fun x => { x with set := [0] }) (bench .running)) (.dimmTempRead ms 0 [0x6000]) (fun t => (dramCh t 0).hot),
    runs (setDmc (fun x => { x with set := [0] }) (bench .running)) (.spdHubTimeout ms 0) (fun t => t.dev.state == .fault),
    runs (setDmc (fun x => { x with set := [0], chans := [(0, { nbr := [(3, 9, 2 * ms)], rfm := [⟨true, 32, 0, true⟩] })] }) (bench .running)) (.neighbourRefresh ms 0) (fun t => (dramCh t 0).nbr == []),
    runs (setDmc (fun x => { x with set := [0] }) (bench .running)) (.dqsDriftRead ms 0 3) (fun t => t.mon.cal.length == 1),
    runs (setDmc (fun x => { x with set := [0], chans := [(0, { retrain := true, qf := 10 })] }) (bench .running)) (.retrainSlice ms 0) (fun t => t.out.any fun o => o == .dram 0 2 0 0),
    runs (setDmc (fun x => { x with set := [0], chans := [(0, { retrain := true, qf := 10 })] }) (bench .running)) (.retrainComplete ms 0 30 0x1900) (fun t => (dramCh t 0).qf == 30 && (dramCh t 0).retrain == false),
    runs (setDmc (fun x => { x with set := [0] }) (bench .running)) (.ddrAlert ms 0 64 false) (fun t => t.dmc.log.length == 1)] : List Bool).all id = true := by decide +kernel

theorem test_monitor : ([
    runs (setDev (fun x => { x with faultClass := 3 }) (bench .fault)) (.faultHoldExpiry (10000 * ms)) (fun t => (t.rcp.rst.map fun r => r.reach) == some 1),
    runs (setMon (fun x => { x with sensors := List.replicate 24 {} }) (bench .running)) (.thermalSample ms (List.replicate 24 800)) (fun t => t.mon.tj == 5000 && t.mon.tjOk),
    runs (setMon (fun x => { x with divT := 1, hotSince := [(0, 0)] }) (bench .running)) (.throttleEscalate (10 * ms)) (fun t => t.mon.divT == 2),
    runs (setMon (fun x => { x with divT := 2, coolSince := some 0 }) (bench .running)) (.throttleRestore (100 * ms)) (fun t => t.mon.divT == 1),
    runs (setMon (fun x => { x with ageSeen := [1, 1] }) (bench .running)) (.ageingMeasure ms [2500]) (fun t => t.mon.ageIdx == 1 && t.mon.ageSeen == []),
    runs (bench .running) (.marginGuard ms [200, 200]) (fun t => t.mon.tmm == [200, 200]),
    runs (bench .running) (.droopEvent ms 0) (fun t => ((tabGet t.mon.droops 0).map fun l => l.length) == some 1),
    runs (setMon (fun x => { x with rising := [(1, 0)] }) (bench .running)) (.powerEstimate (10 * ms) 800) (fun t => t.mon.loadClass == 1),
    runs (setMon (fun x => { x with planning := true }) (bench .running)) (.planFormed ms ⟨[], [], []⟩) (fun t => ! t.mon.planning),
    runs (setMon (fun x => { x with moves := [(0, 810)] }) (bench .running)) (.avsCommand ms true) (fun t => t.mon.mv.headD 0 == 810),
    runs (setMon (fun x => { x with tele := some ⟨[0x40, 0, 0, 0, 0, 0, 0, 0], [0, 0, 0, 0, 0, 0, 0, 0]⟩ }) (bench .running)) (.telemetryPoll ms [(805, 1000, 4000, 0)]) (fun t => t.mon.readMv.headD 0 == 805),
    runs (setMon (fun x => { x with tele := some ⟨[0x40, 0, 0, 0, 0, 0, 0, 0], [0, 0, 0, 0, 0, 0, 0, 0]⟩ }) (bench .running)) (.pmbAlert ms [(805, 1000, 4000, 0x8000)]) (fun t => t.dev.state == .fault),
    runs (setMon (fun x => { x with sensors := (List.replicate 23 { temp := 800, read := true }) ++ [{ temp := 1200, read := true, fails := 2 }] }) (bench .running)) (.sensorCrossCheck ms) (fun t => ((t.mon.sensors.getD 23 {}).bad)),
    runs (bench .running) (.thermalTrip ms) (fun t => t.rcp.tripped && t.rcp.thermN),
    runs (setRcp (fun x => { x with tripped := true }) (bench .standby)) (.thermalTripEnd ms) (fun t => ! t.rcp.tripped),
    runs (setRcp (fun x => { x with diag := [⟨ms, 1, 0, false, none⟩] }) (bench .standby)) (.diagResetAssert ms) (fun t => (t.rcp.rst.map fun r => r.reach) == some 1)] : List Bool).all id = true := by decide +kernel

theorem test_reset : ([
    runs (bench .running) (.vbatPowerOn ms) (fun t => (t.rcp.rst.map fun r => r.reach) == some 3),
    runs (bench .standby) (.mainPowerOn ms true) (fun t => (t.rcp.rst.map fun r => r.level) == some [(causePor, 0)]),
    runs (bench .standby) (.brownout ms true) (fun t => (t.rcp.rst.map fun r => (r.reach, r.entered)) == some (2, 2)),
    runs (bench .standby) (.backupSwitchover ms true) (fun t => t.rcp.onVbat),
    runs (bench .standby) (.rstN ms true) (fun t => (t.rcp.rst.map fun r => r.level) == some [(causePin, 0)]),
    runs (bench .standby) (.watchdogExpiry ms) (fun t => (t.rcp.rst.map fun r => r.reach) == some 1 && bit (rget (rcpBase + 0x10) t) 16),
    runs (rput (rcpBase + 0x08) 1 (setDev (fun x => { x with trained := [0] }) (bench .standby))) (.pcieReset ms 0 true) (fun t => (t.rcp.rst.map fun r => r.reach) == some 1),
    runs (bench .standby) (.debugReset ms 0 36 false true) (fun t => ((tabGet t.rcp.wraps 36).map fun w => w.level) == some true),
    runs (setRcp (fun x => { x with rst := some { since := 0, reach := 2, keep := false, entered := 2, level := [(causeClk, 7)] } }) (bench .standby)) (.forcedRelease ms) (fun t => (t.rcp.rst.map fun r => r.released) == some true),
    runs (bench .running) (.refLost ms) (fun t => ! t.rcp.ref && (t.rcp.rst.map fun r => r.reach) == some 2),
    runs (bench .running) (.pllUnlock ms 2) (fun t => bit t.rcp.lock 2 == false),
    runs (bench .running) (.clockMonitorBad ms 3) (fun t => bit t.rcp.good 3 == false),
    runs (setRcp (fun x => { x with lock := 119, good := 119 }) (bench .running)) (.clockMonitorGood ms 3) (fun t => t.rcp.lock == 127 && t.rcp.good == 127),
    runs (setPort 0 (fun x => { x with link := 2, nLanes := 1, mode := 0 }) (bench .running)) (.forwardedClockLoss ms 0) (fun t => t.rcp.sub == 1 && (port t 0).link == 3),
    runs (setRcp (fun x => { x with xtal := false }) (bench .standby)) (.xtalQualify ms) (fun t => t.rcp.xtal),
    runs (bench .standby) (.xtalFail ms) (fun t => ! t.rcp.xtal && bit (rget (rcpBase + 4) t) 0),
    runs (setRcp (fun x => { x with rst := some { since := 0, reach := 1, keep := false, defer := some { since := 0, flash := true } } }) (bench .standby)) (.deferralEnd ms) (fun t => (t.rcp.rst.map fun r => r.entered) == some 1),
    runs (setRcp (fun x => { x with rst := some { since := 0, reach := 2, keep := false, entered := 2 }, starting := true }) (bench .boot)) (.resetRelease ms) (fun t => (t.rcp.rst.map fun r => r.released) == some true),
    runs (setRcp (fun x => { x with wraps := [(36, {})] }) (bench .standby)) (.blockReset ms 36) (fun t => ((tabGet t.rcp.wraps 36).map fun w => w.stage) == some 1),
    runs (setRcp (fun x => { x with wraps := [(36, { stage := 1 })] }) (bench .standby)) (.blockRelease ms 36) (fun t => ((tabGet t.rcp.wraps 36).map fun w => w.stage) == some 2),
    runs (setRcp (fun x => { x with wraps := [(36, { stage := 2 })] }) (bench .standby)) (.wrapperOpen ms 36) (fun t => t.rcp.wraps == []),
    runs (setDev (fun x => { x with asleep := true }) (bench .standby)) (.sleepWake ms) (fun t => ! t.dev.asleep)] : List Bool).all id = true := by decide +kernel

theorem test_boot : ([
    runs (setRcp (fun x => { x with rst := some { since := 0, reach := 2, keep := false, entered := 2, released := true }, starting := true }) (bench .boot)) (.bootRomStart ms none true ⟨true, true⟩) (fun t => t.rcp.rst == none && t.nvs.recovery),
    runs (setRcp (fun x => { x with starting := true }) (setNvs (fun x => { x with boot := 7 }) (bench .boot))) (.dramReady ms [{ ch := 0, dimms := [(32, 1, 1, 0)], supported := true, maxRate := 6400, qf := 100, temp := 0x1900 }]) (fun t => t.dmc.set == [0] && t.nvs.boot == 8),
    runs (setRcp (fun x => { x with starting := true }) (setNvs (fun x => { x with boot := 8 }) (bench .boot))) (.bootComplete ms true) (fun t => t.dev.state == .standby && t.rcp.faultN == false),
    runs (setDmc (fun x => { x with set := [0] }) (setNvs (fun x => { x with trial := true }) (bench .standby))) (.trialConfirm ms 0 true) (fun t => ! t.nvs.trial && t.nvs.slotImg.result == 6),
    runs (setNvs (fun x => { x with trial := true, trialEnd := ms }) (bench .standby)) (.confirmationWindowEnd ms) (fun t => (t.rcp.rst.map fun r => r.reach) == some 2),
    runs (setNvs (fun x => { x with recoverAt := some ms }) (bench .standby)) (.recoveryReset ms) (fun t => (t.rcp.rst.map fun r => r.reach) == some 2),
    runs (setNvs (fun x => { x with cur := some { rec_ := 1, pay := some (.settings {}) } }) (bench .standby)) (.nvsWriteComplete ms true false) (fun t => t.nvs.cur.isNone && t.nvs.copies.length == 2),
    runs (setNvs (fun x => { x with fuse := some { tk := aTicket, key := none, bits := [0], on := true } }) (bench .standby)) (.efusePulse ms true) (fun t => t.nvs.fuse.isNone && t.nvs.secBits == [0]),
    runs (bench .standby) (.pcieLinkTrained ms 2) (fun t => t.dev.trained == [2]),
    runs (setNvs (fun x => { x with stage := [{ tk := aTicket, act := .erase, on := true }], stageLen := some 512 }) (bench .update)) (.flashReady ms true) (fun t => t.nvs.stage == [])] : List Bool).all id = true := by decide +kernel

end Sys2Proof.Tests
end

namespace Sys2Proof

open Machine

/-! ## Clamping (R84) -/

/-- Value `c` is nearer to `x` than `y` is, or equally near and of no greater magnitude (R84). -/
def nearTo (x c y : Int) : Prop := (x - c).natAbs < (x - y).natAbs ∨ ((x - c).natAbs = (x - y).natAbs ∧ c.natAbs ≤ y.natAbs)

/-- Value `c` is what a numeric rule makes of `x`: legal, and nearest. -/
def nearestLegal (r : Rule) (x c : Int) : Prop := legalNum r c ∧ ∀ y, legalNum r y → nearTo x c y

theorem nearTo_trans {x a b c : Int} (h : nearTo x a b) (h' : nearTo x b c) : nearTo x a c := by
  unfold nearTo at *; omega

/-- Of two values on one side of `x`, the inner one is nearer. -/
theorem nearTo_of_inner {x a y : Int} (h : y ≤ a ∧ a ≤ x ∨ x ≤ a ∧ a ≤ y) : nearTo x a y := by
  unfold nearTo; omega

/-- A legal value is its own nearest one. -/
theorem nearestLegal_of_legal {r : Rule} {x c : Int} (h : nearestLegal r x c) (hx : legalNum r x) : c = x := by
  rcases h.2 x hx with h | h <;> omega

theorem clampI_nearestLegal {lo hi : Int} (x : Int) (h : lo ≤ hi) : nearestLegal (.rng lo hi) x (clampI lo hi x) := by
  obtain ⟨hlo, hhi, hin, hbelow, habove⟩ := clampI_spec lo hi x h
  exact ⟨⟨hlo, hhi⟩, fun y ⟨_, _⟩ => by unfold nearTo; omega⟩

/-- Below its range, a value goes to 0 or to the range's least value; above that 0 is never nearer. -/
theorem clampElem_zeroOr_nearestLegal {lo hi : Int} (x : Int) (h0 : 0 < lo) (h : lo ≤ hi) :
    nearestLegal (.zeroOr lo hi) x (clampElem (.zeroOr lo hi) x) := by
  simp only [clampElem]
  split
  · next hx => exact ⟨.inl rfl, fun y _ => nearTo_of_inner (by omega)⟩
  · split
    · next hx =>
      obtain ⟨hc, hz, hl⟩ := nearer_spec x 0 lo
      refine ⟨hc.imp id fun hc => ⟨hc.ge, hc.trans_le h⟩, fun y hy => ?_⟩
      rcases hy with rfl | ⟨hy, _⟩
      · exact hz
      · exact nearTo_trans hl (nearTo_of_inner (.inr ⟨by omega, hy⟩))
    · obtain ⟨hc, hn⟩ := clampI_nearestLegal x h
      refine ⟨.inr hc, fun y hy => ?_⟩
      rcases hy with rfl | hy
      · exact nearTo_trans (hn lo ⟨le_rfl, h⟩) (nearTo_of_inner (by omega))
      · exact hn y hy

/-- Between two neighbouring values of a stepped range lies no third. -/
theorem step_le_or_ge {lo k y : Int} (q : Int) (hk : 0 < k) (hy : (y - lo) % k = 0) : y ≤ lo + q * k ∨ lo + q * k + k ≤ y := by
  obtain ⟨j, hj⟩ := Int.dvd_of_emod_eq_zero hy
  rcases lt_or_ge q j with hq | hq
  · right; nlinarith [mul_le_mul_of_nonneg_right (Int.add_one_le_iff.2 hq) hk.le]
  · left; nlinarith [mul_le_mul_of_nonneg_right hq hk.le]

theorem clampStep_nearestLegal {lo hi k : Int} (x : Int) (h : lo ≤ hi) (hk : 0 < k) : nearestLegal (.stp lo hi k) x (clampStep lo hi k x) := by
  obtain ⟨hlo, hhi, hin, hbelow, habove⟩ := clampI_spec lo hi x h
  unfold clampStep
  simp only [Int.fdiv_eq_ediv_of_nonneg _ hk.le]
  generalize clampI lo hi x = z at *
  have ha : (lo + (z - lo) / k * k - lo) % k = 0 := by simp
  have hak : (lo + (z - lo) / k * k + k - lo) % k = 0 := by simp [add_sub_right_comm]
  have hgap := fun y => step_le_or_ge (lo := lo) (y := y) ((z - lo) / k) hk
  have hq : 0 ≤ (z - lo) / k * k := mul_nonneg (Int.ediv_nonneg (by omega) hk.le) hk.le
  have hle : (z - lo) / k * k ≤ z - lo := Int.ediv_mul_le _ hk.ne'
  have hlt : z - lo < (z - lo) / k * k + k := by linarith [Int.lt_ediv_add_one_mul_self (z - lo) hk]
  generalize (z - lo) / k * k = a at *
  split
  · next hz =>
    subst hz
    refine ⟨⟨hlo, hhi, ha⟩, fun y ⟨_, _, _⟩ => ?_⟩
    unfold nearTo; omega
  · split
    · refine ⟨⟨by omega, by omega, ha⟩, fun y ⟨_, _, hy⟩ => ?_⟩
      have := hgap y hy
      unfold nearTo; omega
    · obtain rfl : z = x := by omega
      obtain ⟨hc, hl, hr⟩ := nearer_spec z (lo + a) (lo + a + k)
      refine ⟨?_, fun y ⟨_, _, hy⟩ => ?_⟩
      · rcases hc with hc | hc <;> rw [hc]
        · exact ⟨by omega, by omega, ha⟩
        · exact ⟨by omega, by omega, hak⟩
      · rcases hgap y hy with hy | hy
        · exact nearTo_trans hl (nearTo_of_inner (.inl ⟨hy, by omega⟩))
        · exact nearTo_trans hr (nearTo_of_inner (.inr ⟨by omega, hy⟩))

/-- R84: clamping a number moves it to the nearest legal value, of two equally near to the one of smaller magnitude. -/
theorem clampElem_nearestLegal {r : Rule} (x : Int) (hr : numRule r) : nearestLegal r x (clampElem r x) := by
  cases r with
  | rng lo hi => exact clampI_nearestLegal x hr
  | zeroOr lo hi => exact clampElem_zeroOr_nearestLegal x hr.1 hr.2
  | stp lo hi k => exact clampStep_nearestLegal x hr.1 hr.2
  | pow2 lo hi => exact nearest_spec x _ hr
  | near xs => exact nearest_spec x xs hr
  | _ => exact hr.elim

theorem clampElem_dflt_of_ne_zero (lo hi : Int) {x : Int} (hx : x ≠ 0) : clampElem (.dflt lo hi) x = clampElem (.rng lo hi) x := if_neg hx

/-! ## The mask of the moved fields (R85) -/

/-- The bits of the mask move up by one when the fields are numbered from one further on. -/
theorem adjusted_succ (fs : List Fld) (n : Nat) : adjusted (n + 1) fs = 2 * adjusted n fs := by
  induction fs generalizing n with
  | nil => rfl
  | cons f r ih =>
    simp only [adjusted, ih (n + 1), mul_add]
    split <;> omega

theorem testBit_adjusted (fs : List Fld) (n : Nat) : (adjusted 0 fs).testBit n = true ↔ ∃ f, fs[n]? = some f ∧ clampFld f ≠ f.xs := by
  induction fs generalizing n with
  | nil => simp [adjusted]
  | cons f r ih =>
    rw [adjusted, adjusted_succ]
    cases n with
    | zero => by_cases h : clampFld f = f.xs <;> simp [h, Nat.testBit_zero]
    | succ n =>
      have hhalf : ((if clampFld f = f.xs then 0 else 2 ^ 0) + 2 * adjusted 0 r) / 2 = adjusted 0 r := by split <;> omega
      rw [Nat.testBit_succ, hhalf, ih, List.getElem?_cons_succ]

/-- No command has more than 32 fields, and its fields depend neither on the sessions nor on the note of the command that acts. -/
theorem command_fields {i : Instr} {p : Pack} {c : Cmd} (hp : packetOf i = some p) (hc : p.cmd = some c) (s : State) (ss : Tab Sess) (o : Option (Nat × Nat)) :
    (c.flds s).length ≤ 32 ∧ c.flds { s with dev := { s.dev with sessions := ss, cause := o } } = c.flds s := by
  cases i <;> simp only [packetOf, Option.some.injEq, reduceCtorEq] at hp <;> subst hp
  case opcodeNotDefined => cases hc
  all_goals obtain rfl := Option.some.inj hc; exact ⟨Nat.le_of_ble_eq_true rfl, rfl⟩

theorem judge_run {c : Cmd} {p : Pack} {sid adj : Nat} {s : State} {v : Vals} (h : judge c p sid s = .run v adj) :
    v = (c.flds s).map clampFld ∧ adj = adjusted 0 (c.flds s) := by
  simp only [judge] at h
  repeat' split at h
  all_goals cases h
  exact ⟨rfl, rfl⟩

theorem acting_eq {tk : Ticket} (hq : tk.queued = false) (s : State) :
    ∃ ss o, acting tk s = { s with dev := { s.dev with sessions := ss, cause := o } } := by
  unfold acting
  rw [hq]
  exact ⟨_, _, rfl⟩

/-- An accepted command is carried out with its fields as clamped, and its mask names the fields that were moved. -/
theorem mask_of_accepts {i : Instr} {p : Pack} {c : Cmd} {s0 u : State} {tk : Ticket} {v : Vals} (hp : packetOf i = some p) (hc : p.cmd = some c)
    (h : accepts i s0 = some (tk, v, u)) :
    (c.flds u).length ≤ 32 ∧ v = (c.flds u).map clampFld ∧ ∀ n, tk.adj.testBit n = true ↔ ∃ f, (c.flds u)[n]? = some f ∧ clampFld f ≠ f.xs := by
  obtain ⟨hj, rfl⟩ := judged_of_accepts h
  obtain ⟨-, hrun, hq, -⟩ := judge_of_judged hp hc hj
  obtain ⟨hv, hadj⟩ := judge_run hrun
  obtain ⟨ss, o, hact⟩ := acting_eq hq (judgedAt i s0)
  obtain ⟨hlen, hsame⟩ := command_fields hp hc (judgedAt i s0) ss o
  rw [hact, hsame, hadj]
  exact ⟨hlen, hv, testBit_adjusted _⟩

/-! ## The session that an answer leaves (R72, R83) -/

theorem sess_sendReply (via : Via) (r : Reply) (s : State) (n : Nat) : sess (sendReply via r s) n = sess s n := by
  rw [sendReply_frame]; rfl

/-- The record of session `x` once `r` is filed as the reply of number `seq`. -/
def withReply (seq : Nat) (r : Reply) (x : Sess) : Sess := { x with kept := x.kept.map fun e => if e.1 = seq then (seq, some r) else e }

theorem sess_retain (sid seq : Nat) (r : Reply) (s : State) : sess (retain sid seq (some r) s) sid = (sess s sid).map (withReply seq r) :=
  (tabGet_tabMod _ _ _ _).trans (if_pos rfl)

/-- Filing a reply does not change which number of the session was consumed last. -/
theorem newest_number_withReply (seq : Nat) (r : Reply) (x : Sess) : (withReply seq r x).kept.head?.map Prod.fst = x.kept.head?.map Prod.fst := by
  unfold withReply
  cases x.kept with
  | nil => rfl
  | cons e l =>
    refine congrArg some ?_
    show (if e.1 = seq then (seq, some r) else e).1 = e.1
    split
    · next h => exact h.symm
    · rfl

theorem newest_reply_withReply {seq : Nat} {r : Reply} {x : Sess} {o : Option Reply} (ho : x.kept.head? = some (seq, o)) :
    (withReply seq r x).kept.head? = some (seq, some r) := by
  simp only [withReply, List.head?_map, ho, Option.map_some, if_true]

/-- A command that is not of the apply-at queue is answered with a reply that carries its mask, and that is filed under its number. -/
theorem sess_answer {tk : Ticket} {s : State} {x : Sess} (status : Nat) (ps : List RV) (hq : tk.queued = false) (hx : sess s tk.session = some x) :
    ∃ r : Reply, r.status = (if status = stOk ∧ tk.adj ≠ 0 then stClamped else status) ∧ r.adj = tk.adj ∧
      sess (answer tk status ps s) tk.session = some (withReply tk.seq r x) := by
  unfold answer
  rw [hq]
  simp only [Bool.false_eq_true, if_false]
  generalize (if status = stOk ∧ tk.adj ≠ 0 then stClamped else status) = st
  refine ⟨⟨tk.op, tk.session, tk.seq, tk.tag, st, stateCode s.dev.state, tk.adj, false, ps⟩, rfl, rfl, ?_⟩
  split
  · rw [sess_retain, hx, Option.map_some]
  · rw [sess_sendReply, sess_retain, hx, Option.map_some]

/-! ## A command in progress when the next number is consumed -/

/-- An FE_CAPTURE of session 0, number 1, whose LENGTH, field 3, was clamped; it is answered when its lines have been captured. -/
def captureTicket : Ticket :=
  { session := 0, seq := 1, tag := 7, op := 0x030B, via := .udp 2 false 0 0, silent := false, adj := 8, queued := false, late := false }

/-- A session just opened. -/
def openedSession : Sess := { quiet := false, idle := 10, last := 0, via := .udp 2 false 0 0, kept := [(0, none)] }

/-- Session 0 has consumed number 1, the FE_CAPTURE's, and number 2 while the capture was still in progress (R72). -/
def captureInProgress : State := consume 0 2 (consume 0 1 { dev := { sessions := [(0, openedSession)] } })

theorem sess_captureInProgress :
    sess captureInProgress 0 = some { openedSession with seq := 2, kept := [(2, none), (1, none), (0, none)] } := by decide

/-- The newest retained reply of the session is then number 2's: the answer to the capture stands second. -/
theorem newest_after_capture {y : Sess} {r : Reply} (hy : sess (answer captureTicket stOk [] captureInProgress) 0 = some y) :
    y.kept.head? ≠ some (1, some r) := by
  obtain ⟨r', -, -, ha⟩ := sess_answer (tk := captureTicket) stOk [] rfl sess_captureInProgress
  obtain rfl := Option.some.inj (ha.symm.trans hy)
  intro hk
  have hn := newest_number_withReply captureTicket.seq r' { openedSession with seq := 2, kept := [(2, none), (1, none), (0, none)] }
  rw [hk] at hn
  simp at hn

/-- Refutes O15: its last clause looks for the reply of the clamped command at the newest number of the session, also where a later
number has been consumed in the meantime. `clamped_of_newest` is the statement without that case. -/
theorem not_clampedToTheNearestLegalValue : ¬ Obligations.ClampedToTheNearestLegalValue := by
  unfold Obligations.ClampedToTheNearestLegalValue
  rintro ⟨-, -, hclamped⟩
  obtain ⟨y, r, hy, hk, -⟩ := hclamped captureTicket [] captureInProgress _ sess_captureInProgress rfl (by decide)
  exact newest_after_capture hy hk

/-- Refutes O16: its first clause looks for the reply with the mask at the newest number of the session, also where a later number has
been consumed in the meantime. `adjusted_of_newest` is the statement without that case. -/
theorem not_adjustedNamesTheMovedFields : ¬ Obligations.AdjustedNamesTheMovedFields := by
  unfold Obligations.AdjustedNamesTheMovedFields
  rintro ⟨hmask, -⟩
  obtain ⟨y, r, hy, hk, -⟩ := hmask captureTicket [] captureInProgress _ sess_captureInProgress rfl
  exact newest_after_capture hy hk

/-! ## What holds of a command whose number is its session's newest -/

/-- What consuming a number makes of its session. -/
def consumed (now seq : Nat) (x : Sess) : Sess :=
  { x with seq := seq, last := now, kept := ((seq, none) :: x.kept.filter fun e => e.1 != seq).take 16 }

theorem consume_eq (sid seq : Nat) (s : State) :
    ∃ e : Dev → Nat, consume sid seq s = setDev (fun d => { d with leaseEnd := e d }) (setSess sid (consumed s.now seq) s) := by
  simp only [consume]
  split
  · exact ⟨fun d => s.now + d.lease * ms, rfl⟩
  · exact ⟨fun d => d.leaseEnd, rfl⟩

theorem sess_consume {sid seq : Nat} {s : State} {x : Sess} (hx : sess s sid = some x) :
    sess (consume sid seq s) sid = some (consumed s.now seq x) := by
  obtain ⟨e, he⟩ := consume_eq sid seq s
  rw [he]
  show sess (setSess sid (consumed s.now seq) s) sid = _
  rw [sess_setSess, if_pos rfl, hx, Option.map_some]

/-- The hypothesis of the two theorems below is what the sequencer leaves: the number just consumed is the newest, its reply awaited (R72). -/
theorem newest_of_consume {sid seq : Nat} {s : State} {x : Sess} (hx : sess s sid = some x) :
    ∃ y, sess (consume sid seq s) sid = some y ∧ y.kept.head? = some (seq, none) := ⟨_, sess_consume hx, rfl⟩

/-- O15 for a command whose number is the newest of its session. -/
theorem clamped_of_newest :
    (∀ (r : Rule) (x : Int), numRule r → nearestLegal r x (clampElem r x) ∧ (legalNum r x → clampElem r x = x)) ∧
    (∀ lo hi x, x ≠ 0 → clampElem (.dflt lo hi) x = clampElem (.rng lo hi) x) ∧
    (∀ (tk : Ticket) (ps : List RV) (s : State) (x : Sess) (o : Option Reply), sess s tk.session = some x → x.kept.head? = some (tk.seq, o) →
      tk.queued = false → tk.adj ≠ 0 →
      ∃ y r, sess (answer tk stOk ps s) tk.session = some y ∧ y.kept.head? = some (tk.seq, some r) ∧ r.status = 0x0001) := by
  refine ⟨fun r x hr => ⟨clampElem_nearestLegal x hr, nearestLegal_of_legal (clampElem_nearestLegal x hr)⟩,
    fun lo hi x => clampElem_dflt_of_ne_zero lo hi, fun tk ps s x o hx ho hq hadj => ?_⟩
  obtain ⟨r, hst, -, ha⟩ := sess_answer stOk ps hq hx
  exact ⟨_, r, ha, newest_reply_withReply ho, hst.trans (if_pos ⟨rfl, hadj⟩)⟩

/-- O16 for a command whose number is the newest of its session. -/
theorem adjusted_of_newest :
    (∀ (tk : Ticket) (ps : List RV) (s : State) (x : Sess) (o : Option Reply), sess s tk.session = some x → x.kept.head? = some (tk.seq, o) →
      tk.queued = false → ∃ y r, sess (answer tk stOk ps s) tk.session = some y ∧ y.kept.head? = some (tk.seq, some r) ∧ r.adj = tk.adj) ∧
    ∀ (i : Instr) (p : Pack) (c : Cmd) (s0 : State) (tk : Ticket) (v : Vals) (u : State), packetOf i = some p → p.cmd = some c →
      accepts i s0 = some (tk, v, u) →
      (c.flds u).length ≤ 32 ∧ v = (c.flds u).map clampFld ∧
      ∀ n, tk.adj.testBit n = true ↔ ∃ f, (c.flds u)[n]? = some f ∧ clampFld f ≠ f.xs := by
  refine ⟨fun tk ps s x o hx ho hq => ?_, fun i p c s0 tk v u hp hc h => mask_of_accepts hp hc h⟩
  obtain ⟨r, -, hadj, ha⟩ := sess_answer stOk ps hq hx
  exact ⟨_, r, ha, newest_reply_withReply ho, hadj⟩

/-! ## SESSION_OPEN (R96) -/

/-- A command that acts has opened and closed no session yet. -/
theorem sess_acting_isSome (tk : Ticket) (s : State) (n : Nat) : (sess (acting tk s) n).isSome = (sess s n).isSome := by
  unfold acting setVia
  show (sess (if tk.queued then s else _) n).isSome = _
  split
  · rfl
  · rw [sess_setSess]
    split
    · next h => rw [Option.isSome_map, h]
    · rfl

theorem freeSess_congr {s t : State} (h : ∀ n, (sess t n).isSome = (sess s n).isSome) : freeSess t = freeSess s := by
  unfold freeSess
  simp only [← Option.not_isSome, h]

theorem freeSess_eq_some {s : State} {n : Nat} (hn : n < 2048) (hf : sess s n = none) (hb : ∀ m, m < n → (sess s m).isSome) : freeSess s = some n := by
  unfold freeSess
  rw [List.find?_range_eq_some]
  simpa [hn, hf] using hb

theorem freeSess_eq_none {s : State} (hb : ∀ m, m < 2048 → (sess s m).isSome) : freeSess s = none := by
  unfold freeSess
  rw [List.find?_range_eq_none]
  simpa using hb

/-- SESSION_OPEN that passes its checks goes on for the lowest free number, or for 2,048 where none is free. -/
theorem session_of_openSequence {p : Pack} {s t : State} {sid : Nat} (h : openSequence p s = (some sid, t)) : sid = (freeSess t).getD 2048 := by
  unfold openSequence at h
  split at h
  · simp at h
  · split at h
    · simp at h
    · split at h
      · simp at h
      · simp only [Prod.mk.injEq, Option.some.injEq] at h
        obtain ⟨rfl, rfl⟩ := h
        rfl

theorem session_of_intake {i : Instr} {p : Pack} {s t : State} {sid : Nat} (hraw : p.raw = none) (hop : p.op = 1)
    (h : intake i p s = (some sid, t)) : sid = (freeSess t).getD 2048 := by
  simp only [intake, hraw, hop, Bool.false_eq_true, if_false, if_true] at h
  split at h
  · simp at h
  · split at h
    · simp at h
    · exact session_of_openSequence h

theorem session_of_accepted_open {hd : Hdr} {p0 : PSessionOpen} {s0 u : State} {tk : Ticket} {v : Vals}
    (h : accepts (.sessionOpen hd p0) s0 = some (tk, v, u)) : tk.session = (freeSess u).getD 2048 := by
  obtain ⟨hj, rfl⟩ := judged_of_accepts h
  obtain ⟨hin, -⟩ := judge_of_judged (p := cmdPack hd (sessionOpen p0)) rfl rfl hj
  rw [freeSess_congr (sess_acting_isSome tk _)]
  exact session_of_intake rfl rfl hin

theorem sessionOpen_act_of_free {p0 : PSessionOpen} {tk : Ticket} {v : Vals} {s : State} (hf : sess s tk.session = none) (hn : tk.session < 2048) :
    (sessionOpen p0).act tk v s = .ok
      (setDev (fun d => { d with sessions := tabPut d.sessions tk.session ({ quiet := bit (ofSessionOpen v).flags 0, idle := (ofSessionOpen v).idle, last := s.now, via := tk.via, kept := [(0, none)] } : Sess) }) s)
      [u16 tk.session, u32 (devStep s)] :=
  if_neg (by simp [hf, hn])

theorem sessionOpen_act_of_full {p0 : PSessionOpen} {tk : Ticket} {v : Vals} {s : State} (hn : 2048 ≤ tk.session) :
    (sessionOpen p0).act tk v s = .no 0x800D [] := if_pos (.inr hn)

/-- Settles O18: the number is chosen on intake, and the same numbers are free in the state in which the command acts. -/
theorem lowestFreeSession : Obligations.LowestFreeSession := by
  unfold Obligations.LowestFreeSession
  intro hd p0 s0 tk v u h
  have hsid := session_of_accepted_open h
  refine ⟨fun n hn hf hb => ?_, fun hall => ?_⟩
  · rw [freeSess_eq_some hn hf hb] at hsid
    obtain rfl : tk.session = n := hsid
    exact ⟨rfl, answers_of_ok (p := cmdPack hd (sessionOpen p0)) rfl rfl rfl h (sessionOpen_act_of_free hf hn)⟩
  · rw [freeSess_eq_none hall] at hsid
    exact declines_of_no (p := cmdPack hd (sessionOpen p0)) rfl rfl rfl h (sessionOpen_act_of_full hsid.ge)

end Sys2Proof

namespace Sys2Proof

open Machine

/-! ## Counters cleared in the register file (R161, R162) -/

theorem tabGet_filter {α : Type} (m : Tab α) (p : Nat → Bool) (i : Nat) :
    tabGet (m.filter fun e => p e.1) i = if p i then tabGet m i else none := by
  induction m with
  | nil => simp [tabGet]
  | cons e r ih =>
    obtain ⟨k, v⟩ := e
    by_cases hk : k = i
    · subst hk
      cases h : p k <;> simp [tabGet, ih, h]
    · cases h : p k <;> simp [tabGet, ih, h, hk]

theorem rget_rclear (lo hi a : Nat) (s : State) : rget a (rclear lo hi s) = if lo ≤ a ∧ a < hi then regReset a else rget a s := by
  have h := tabGet_filter s.regs (fun k => ! (lo ≤ k && k < hi)) a
  simp only [rget, rclear, h]
  by_cases ha : lo ≤ a ∧ a < hi
  · simp [ha]
  · have hk : (! (decide (lo ≤ a) && decide (a < hi))) = true := by simpa [imp_iff_not_or] using ha
    rw [if_pos hk, if_neg ha]

/-- The registers of the camera ports all reset to 0 (R161). -/
theorem regReset_cpt {n a : Nat} (hn : n < 16) (hlo : cptBase n ≤ a) (hhi : a < cptBase n + 0x10000) : regReset a = 0 := by
  unfold cptBase at hlo hhi
  unfold regReset devBase rcpBase tmuBase mrkBase dmcBase monBase
  split_ifs <;> omega

/-! ## Writes to a camera port's registers (R27, R162) -/

theorem cptBase_add_div {o : Nat} (n : Nat) (ho : o < 0x10000) : (cptBase n + o) / 0x10000 = 0x80 + n := by
  unfold cptBase; omega

theorem cptBase_add_mod {o : Nat} (n : Nat) (ho : o < 0x10000) : (cptBase n + o) % 0x10000 = o := by
  unfold cptBase; omega

/-- A port's registers stand behind the port's own wrapper. -/
theorem shut_cpt {n o : Nat} (s : State) (hn : n < 16) (ho : o < 0x10000) : shut s (cptBase n + o) = wrapClosed n s := by
  have hw : addrWrap (cptBase n + o) = some n := by
    unfold addrWrap
    rw [cptBase_add_div n ho]
    split
    case h_14 => rw [if_pos (by omega), Nat.add_sub_cancel_left]
    all_goals omega
  simp [shut, hw]

theorem regAct_cpt {n o : Nat} (w : RegWr) {s : State} (hn : n < 16) (ho : o < 0x10000) (hp : present 16 n s = true) :
    regAct (cptBase n + o) w s = cptWrite n o w s := by
  unfold regAct
  simp only [cptBase_add_mod n ho, cptBase_add_div n ho]
  split
  case h_17 => rw [Nat.add_sub_cancel_left, if_pos ⟨by omega, by omega, hp⟩]
  all_goals omega

theorem regWrite_cptCntClear {n : Nat} (w : RegWr) {s : State} (hn : n < 16) (hp : present 16 n s = true) (hw : wrapClosed n s = false) :
    regWrite (cptBase n + 0x80) w s = clearIf (cptCntClear n) w s := by
  have hal : (cptBase n + 0x80) % 4 = 0 := by unfold cptBase; omega
  rw [regWrite, if_neg (not_not.2 hal), shut_cpt s hn (by decide), hw, if_neg Bool.false_ne_true, regAct_cpt w hn (by decide) hp]
  rfl

/-- R162: while a session owns the device, only its window may clear. -/
theorem clearIf_bar_owned (f : State → State) {w : RegWr} {s : State} (hb : w.window = false) (ho : s.dev.owner.isSome = true) :
    clearIf f w s = s := by
  have hn : wrAllowed w s = false := by simp [wrAllowed, hb, Option.isNone_eq_false_iff, ho]
  simp [clearIf, hn]

theorem clearIf_allowed (f : State → State) {w : RegWr} {s : State} (ha : w.window = true ∨ s.dev.owner = none) (h1 : bit w.ones 0 = true) :
    clearIf f w s = f s :=
  if_pos ⟨by simpa [wrAllowed] using ha, h1⟩

/-- Settles O22: the write reaches the port's clear, which empties the counters' range of the register file. -/
theorem counterClearNeedsTheOwner : Obligations.CounterClearNeedsTheOwner := by
  unfold Obligations.CounterClearNeedsTheOwner
  refine ⟨fun _ => rfl, fun n s hn hp hw => ⟨fun via v ho => ?_, fun w ha h1 => ?_⟩⟩
  · exact (regWrite_cptCntClear _ hn hp hw).trans (clearIf_bar_owned _ rfl ho)
  · rw [regWrite_cptCntClear w hn hp hw, clearIf_allowed _ ha h1, cptCntClear]
    refine ⟨fun a hlo hhi => ?_, fun a hout => ?_, rfl⟩
    · rw [rget_rclear, if_pos ⟨hlo, hhi⟩]
      exact regReset_cpt hn (by omega) (by omega)
    · rw [rget_rclear, if_neg (by omega)]

end Sys2Proof

namespace Sys2Proof

open Machine

/-! ## Register flags -/

/-- A flag of a register reads 1 once it is set. -/
theorem bit_rget_rset (a : Nat) {i : Nat} (s : State) (hi : i < 32) : bit (rget a (rset a i s)) i = true := by
  rw [rset, rget_rput, if_pos rfl, bit, Nat.testBit_mod_two_pow, Nat.testBit_or, Nat.testBit_two_pow_self]
  simp [hi]

/-! ## Latches (R229, R230) -/

/-- What a latch holds: its captures and its count of discarded ones. -/
def latchOf (s : State) (l : Nat) : Latch := (tabGet s.pos.latch l).getD {}

/-- The axis that a latch captures, 0 where it is not configured. -/
def latchAxis (s : State) (l : Nat) : Nat := match tabGet s.cfg.latches l with | some c => c.axis | none => 0

/-- The state with what latch `l` holds replaced. -/
def withLatch (l : Nat) (f : Latch) (s : State) : State := { s with pos := { s.pos with latch := tabPut s.pos.latch l f } }

@[simp] theorem latchOf_withLatch (l : Nat) (f : Latch) (s : State) : latchOf (withLatch l f s) l = f := by
  simp [latchOf, withLatch]

@[simp] theorem latchOf_rset (a i l : Nat) (s : State) : latchOf (rset a i s) l = latchOf s l := rfl

theorem storeCapture_of_room {l : Nat} {s : State} (h : (latchOf s l).fifo.length < 16) :
    ∃ c, (storeCapture l s).2 = withLatch l { latchOf s l with fifo := (latchOf s l).fifo ++ [c] } s :=
  ⟨_, congrArg Prod.snd (if_pos h)⟩

theorem storeCapture_of_full {l : Nat} {s : State} (h : 16 ≤ (latchOf s l).fifo.length) :
    (storeCapture l s).2 =
      rset (posBase + 0x10 + 4 * latchAxis s l) 5 (withLatch l { latchOf s l with ovfl := min ((latchOf s l).ovfl + 1) 0xFFFFFFFF } s) :=
  congrArg Prod.snd (if_neg (Nat.not_lt.2 h))

/-- A latch with a free place takes the capture as its newest. -/
theorem latchOf_storeCapture_of_room {l : Nat} {s : State} (h : (latchOf s l).fifo.length < 16) :
    ∃ c, (latchOf (storeCapture l s).2 l).fifo = (latchOf s l).fifo ++ [c] ∧ (latchOf (storeCapture l s).2 l).ovfl = (latchOf s l).ovfl := by
  obtain ⟨c, hc⟩ := storeCapture_of_room h
  exact ⟨c, by simp [hc]⟩

/-- A full latch keeps its captures, counts the one discarded, and flags it in its axis's register. -/
theorem latchOf_storeCapture_of_full {l : Nat} {s : State} (h : 16 ≤ (latchOf s l).fifo.length) :
    (latchOf (storeCapture l s).2 l).fifo = (latchOf s l).fifo ∧
      (latchOf (storeCapture l s).2 l).ovfl = min ((latchOf s l).ovfl + 1) 0xFFFFFFFF ∧
      bit (rget (posBase + 0x10 + 4 * latchAxis s l) (storeCapture l s).2) 5 = true := by
  rw [storeCapture_of_full h]
  exact ⟨by simp, by simp, bit_rget_rset _ _ (by decide)⟩

/-- Settles O26: a capture finds a place or it does not, and LATCH_READ takes the captures that it returns out of the FIFO. -/
theorem latchHoldsSixteen : Obligations.LatchHoldsSixteen := by
  unfold Obligations.LatchHoldsSixteen
  refine ⟨fun l s => ⟨latchOf_storeCapture_of_room, latchOf_storeCapture_of_full⟩,
    fun hd p0 s0 tk v s h => answers_of_ok (p := cmdPack hd (latchRead p0)) rfl rfl rfl h rfl⟩

end Sys2Proof

namespace Sys2Proof

open Machine

/-! ## What a publication leaves of the router's registers (R490, R501) -/

/-- A counter of the register file stops at its greatest value (R161). -/
theorem rget_bump (a n : Nat) (s : State) : rget a (bump a n s) = min (rget a s + n) 0xFFFFFFFF := by
  rw [bump, rget_rput, if_pos rfl, Nat.mod_eq_of_lt (by omega)]

theorem rget_irqLink_ne {a l : Nat} (b : Nat) (s : State) (h : a ≠ irqStatus l) : rget a (irqLink b s l) = rget a s := by
  have hset := rget_rset_ne b s h
  rw [irqLink, apply_ite (rget a)]
  exact (ite_self _).trans hset

/-- The interrupt registers of the host links stand below the router's. -/
theorem rget_irqAll_evr {a : Nat} (b : Nat) (s : State) (ha : evrBase ≤ a) : rget a (irqAll b s) = rget a s := by
  have hne : ∀ l < 4, a ≠ irqStatus l := fun l hl => by unfold evrBase at ha; unfold irqStatus; omega
  unfold irqAll
  simp only [List.foldl_cons, List.foldl_nil]
  rw [rget_irqLink_ne b _ (hne 3 (by decide)), rget_irqLink_ne b _ (hne 2 (by decide)),
    rget_irqLink_ne b _ (hne 1 (by decide)), rget_irqLink_ne b _ (hne 0 (by decide))]

@[simp] theorem irqAll_evr (b : Nat) (s : State) : (irqAll b s).evr = s.evr := by rw [irqAll_frame]

@[simp] theorem evrNotify_evr (kind ch task origin n : Nat) (s : State) : (evrNotify kind ch task origin n s).evr = s.evr := by
  rw [evrNotify, notifyLimited_frame]

@[simp] theorem rget_evrNotify (a kind ch task origin n : Nat) (s : State) : rget a (evrNotify kind ch task origin n s) = rget a s := by
  rw [evrNotify, notifyLimited_frame]
  rfl

/-! ## The three outcomes of a publication on a channel (R491, R495, R499) -/

/-- R499: an event that the loop rule drops is flagged, counted and notified. -/
theorem publishOn_of_loop {origin : Option Nat} {c : PEvrChannel} (s : State) (h : origin = some c.ch ∧ c.loopOk = 0) :
    publishOn origin s c = evrNotify 1 c.ch 0xFFFF c.ch 1
      (bump (evrBase + 0x0C) 1 (rset (evrBase + 0x04) 0 (rset (evrBase + 0x140 + c.ch / 32 * 4) (c.ch % 32) s))) := if_pos h

/-- R495: a second event of a cycle joins the first. -/
theorem publishOn_of_second {origin : Option Nat} {s : State} {c : PEvrChannel} (h : ¬ (origin = some c.ch ∧ c.loopOk = 0))
    (hl : tabGet s.evr.lastPub c.ch = some (sysCycle s)) :
    publishOn origin s c =
      { s with evr := { s.evr with flight := s.evr.flight.map (mergeTag c.ch (sysCycle s) (origin.getD c.ch)) } } :=
  (if_neg h).trans (if_pos hl)

/-- R490, R501: of the router's registers, the first event of a cycle changes the channel's count and its watch flag. -/
theorem rget_publishOn_of_first {origin : Option Nat} {s : State} {c : PEvrChannel} {a : Nat} (h : ¬ (origin = some c.ch ∧ c.loopOk = 0))
    (hl : tabGet s.evr.lastPub c.ch ≠ some (sysCycle s)) (ha : evrBase ≤ a) :
    rget a (publishOn origin s c) =
      rget a (rset (evrBase + 0x100 + c.ch / 32 * 4) (c.ch % 32) (bump (evrBase + 0x1000 + c.ch * 4) 1 s)) := by
  rw [publishOn, if_neg h, if_neg hl]
  change rget a (if c.notify = 1 then evrNotify 0 c.ch 0xFFFF (origin.getD c.ch) 1 _ else _) = _
  rw [apply_ite (rget a), rget_evrNotify, ite_self, apply_ite (rget a), rget_irqAll_evr 4 _ ha, ite_self]

/-- R491: the first event of a cycle goes to every task of the channel, two cycles later. -/
theorem flight_publishOn_of_first {origin : Option Nat} {s : State} {c : PEvrChannel} (h : ¬ (origin = some c.ch ∧ c.loopOk = 0))
    (hl : tabGet s.evr.lastPub c.ch ≠ some (sysCycle s)) :
    (publishOn origin s c).evr.flight = s.evr.flight ++
      ((c.tasks.take c.forks).filter fun k => k != 0xFFFF).eraseDups.map fun k => ⟨sysCycle s + 2, k, origin.getD c.ch, c.ch⟩ := by
  rw [publishOn, if_neg h, if_neg hl]
  refine congrArg (fun e : Evr => e.flight ++ _) ?_
  rw [apply_ite State.evr, evrNotify_evr, ite_self, apply_ite State.evr, irqAll_evr, ite_self]
  rfl

theorem loopFlags_of_loop {origin : Option Nat} {c : PEvrChannel} (s : State) (h : origin = some c.ch ∧ c.loopOk = 0) :
    bit (rget (evrBase + 0x140 + c.ch / 32 * 4) (publishOn origin s c)) (c.ch % 32) = true ∧
      bit (rget (evrBase + 0x04) (publishOn origin s c)) 0 = true := by
  rw [publishOn_of_loop s h, rget_evrNotify, rget_evrNotify, rget_bump_ne _ _ (by omega), rget_bump_ne _ _ (by omega),
    rget_rset_ne (a := evrBase + 0x04) _ _ (by omega)]
  exact ⟨bit_rget_rset _ _ (by omega), bit_rget_rset _ _ (by decide)⟩

/-- A dropped event counts in EVR_LOOP_TOTAL and not in the channel's own count. -/
theorem counts_of_loop {origin : Option Nat} {c : PEvrChannel} (s : State) (h : origin = some c.ch ∧ c.loopOk = 0) :
    rget (evrBase + 0x0C) (publishOn origin s c) = min (rget (evrBase + 0x0C) s + 1) 0xFFFFFFFF ∧
      rget (evrBase + 0x1000 + c.ch * 4) (publishOn origin s c) = rget (evrBase + 0x1000 + c.ch * 4) s := by
  rw [publishOn_of_loop s h, rget_evrNotify, rget_evrNotify, rget_bump, rget_bump_ne _ _ (by omega)]
  constructor <;> rw [rget_rset_ne _ _ (by omega), rget_rset_ne _ _ (by omega)]

theorem evr_of_loop {origin : Option Nat} {c : PEvrChannel} (s : State) (h : origin = some c.ch ∧ c.loopOk = 0) :
    (publishOn origin s c).evr = s.evr := by
  rw [publishOn_of_loop s h, evrNotify_evr]
  rfl

/-- The first event of a cycle counts on its channel and sets the channel's watch flag. -/
theorem counted_of_first {origin : Option Nat} {s : State} {c : PEvrChannel} (h : ¬ (origin = some c.ch ∧ c.loopOk = 0))
    (hl : tabGet s.evr.lastPub c.ch ≠ some (sysCycle s)) :
    rget (evrBase + 0x1000 + c.ch * 4) (publishOn origin s c) = min (rget (evrBase + 0x1000 + c.ch * 4) s + 1) 0xFFFFFFFF ∧
      bit (rget (evrBase + 0x100 + c.ch / 32 * 4) (publishOn origin s c)) (c.ch % 32) = true := by
  rw [rget_publishOn_of_first h hl (by omega), rget_publishOn_of_first h hl (by omega), rget_rset_ne _ _ (by omega), rget_bump]
  exact ⟨rfl, bit_rget_rset _ _ (by omega)⟩

theorem mem_flight_of_first {origin : Option Nat} {s : State} {c : PEvrChannel} {k : Nat} (h : ¬ (origin = some c.ch ∧ c.loopOk = 0))
    (hl : tabGet s.evr.lastPub c.ch ≠ some (sysCycle s)) (hk : k ∈ c.tasks.take c.forks) (hne : k ≠ 0xFFFF) :
    ⟨sysCycle s + 2, k, origin.getD c.ch, c.ch⟩ ∈ (publishOn origin s c).evr.flight := by
  have hsel : k ∈ ((c.tasks.take c.forks).filter fun k => k != 0xFFFF).eraseDups :=
    List.mem_eraseDups.2 (List.mem_filter.2 ⟨hk, bne_iff_ne.2 hne⟩)
  rw [flight_publishOn_of_first h hl]
  exact List.mem_append_right _ (List.mem_map.2 ⟨k, hsel, rfl⟩)

/-- R491, R492: a source whose block and whose router are out of reset reaches every enabled channel that selects it. -/
theorem publishFrom_of_open {origin : Option Nat} {src : Nat} {s : State} (hs : wrapClosed (srcWrap src) s = false)
    (hr : wrapClosed 36 s = false) :
    publishFrom origin src s =
      ((s.cfg.chans.map fun e => e.2).filter fun c => c.enable = 1 && c.source = src).foldl (publishOn origin) (emit (.event src) s) :=
  if_neg (by simp [hs, hr])

/-- Settles O27: the loop rule drops the event, or it is the channel's first of the cycle, or it joins that one. -/
theorem loopRule : Obligations.LoopRule := by
  unfold Obligations.LoopRule
  refine fun origin s c _ => ⟨fun ho hk => ?_, fun h hl => ?_, publishOn_of_second, fun _ => publishFrom_of_open⟩
  · have h := And.intro ho hk
    obtain ⟨hloop, hflag⟩ := loopFlags_of_loop s h
    obtain ⟨htotal, hcnt⟩ := counts_of_loop s h
    exact ⟨hloop, hflag, htotal, hcnt, evr_of_loop s h⟩
  · obtain ⟨hcnt, hwatch⟩ := counted_of_first h hl
    exact ⟨hcnt, hwatch, fun k hk hne => mem_flight_of_first h hl hk hne⟩

end Sys2Proof

namespace Sys2Proof

open Machine

/-! ## One step, and the form of every row -/

/-- Settles O1: by the definition of a step on a waiting command. -/
theorem stepRunsFrontCommand : Obligations.StepRunsFrontCommand := by
  unfold Obligations.StepRunsFrontCommand
  intro c rest s h
  rw [step, h]

/-- Settles O2: by the definition of a step on an empty queue. -/
theorem emptyQueueTicks : Obligations.EmptyQueueTicks := by
  unfold Obligations.EmptyQueueTicks
  intro s h
  rw [step, h]
  rfl

/-- Settles O3: every row is `happen` of its instant and its effect. -/
theorem everyRowAnswers : Obligations.EveryRowAnswers := by
  unfold Obligations.EveryRowAnswers
  intro c s
  obtain ⟨t, f, h⟩ := exec_is_happen c s
  rw [h]
  exact happen_keeps t f s

/-! ## FAULT_N and THERM_N (R573, R646) -/

/-- FAULT_N stands as the state says once it is judged, and judging it leaves what THERM_N is judged by. -/
theorem judgeFaultN_faultN (s : State) :
    (judgeFaultN s).rcp.faultN = (s.dev.state == .fault || s.rcp.rst.isSome || s.rcp.starting || s.rcp.tripped) ∧
      judgeFaultN s = { s with rcp := { s.rcp with faultN := (judgeFaultN s).rcp.faultN }, out := (judgeFaultN s).out } := by
  simp only [judgeFaultN]
  split
  · next h => exact ⟨h.symm, rfl⟩
  · exact ⟨rfl, rfl⟩

theorem judgeThermN_thermN (s : State) :
    (judgeThermN s).rcp.thermN = (s.mon.warned || s.rcp.tripped) ∧
      judgeThermN s = { s with rcp := { s.rcp with thermN := (judgeThermN s).rcp.thermN }, out := (judgeThermN s).out } := by
  simp only [judgeThermN]
  split
  · next h => exact ⟨h.symm, rfl⟩
  · exact ⟨rfl, rfl⟩

/-- The two pins as the state has them. -/
def pinsTell (t : State) : Prop :=
  t.rcp.faultN = (t.dev.state == .fault || t.rcp.rst.isSome || t.rcp.starting || t.rcp.tripped) ∧ t.rcp.thermN = (t.mon.warned || t.rcp.tripped)

theorem pinsTell_judged (s : State) : pinsTell (judgeThermN (judgeFaultN s)) := by
  obtain ⟨hf, hfr⟩ := judgeFaultN_faultN s
  obtain ⟨ht, htr⟩ := judgeThermN_thermN (judgeFaultN s)
  refine ⟨?_, ?_⟩
  · rw [htr]; show (judgeFaultN s).rcp.faultN = _; rw [hf, hfr]
  · rw [ht, htr]

theorem pinsTell_happen (t : Nat) (f : State → State) (s u : State) (h : happen t f s = .next u) : pinsTell u := by
  obtain ⟨z, hz⟩ := settle_ends_with_pins (f (arrive t s))
  have hu : conclude t s (judgeThermN (judgeFaultN z)) = u := by
    rw [← hz]; exact Host.Outcome.next.inj h
  exact hu ▸ pinsTell_judged z

/-- Settles O4: the two pins are judged last in every row, and the row's end leaves them and what they tell. -/
theorem faultAndThermPinsTellTheState : Obligations.FaultAndThermPinsTellTheState := by
  unfold Obligations.FaultAndThermPinsTellTheState
  intro c s t h
  obtain ⟨i, f, hf⟩ := exec_is_happen c s
  exact pinsTell_happen i f s t (hf ▸ h)

/-! ## Reset -/

/-- Settles O5: the reset state is given outright, so each value is read off it. -/
theorem resetLeavesTheStatedValues : Obligations.ResetLeavesTheStatedValues := by
  unfold Obligations.ResetLeavesTheStatedValues
  decide +kernel

/-- Settles O6: the Full reset of power-on is still held. -/
theorem resetHoldsAtReset : Obligations.ResetHoldsAtReset := by
  unfold Obligations.ResetHoldsAtReset
  refine ⟨⟨⟨_, rfl, by decide, rfl⟩, rfl, ⟨_, rfl⟩, ?_⟩, fun c hc => absurd hc List.not_mem_nil⟩
  exact ⟨rfl, rfl, rfl, rfl, rfl, rfl, rfl, rfl, rfl, rfl, rfl, rfl, rfl, rfl, rfl, rfl, rfl, rfl, rfl, .inr rfl⟩

/-- What an effect that does nothing in a held reset leaves: the held state at a later instant. -/
theorem happen_keeps_held {s t : State} {i : Nat} {f : State → State} (hs : heldReset s) (hf : ∀ s, heldReset s → f s = s)
    (h : happen i f s = .next t) :
    heldReset t ∧ t.pending = s.pending ∧ t.regs = s.regs ∧ t.nvs = s.nvs ∧ t.mon = s.mon ∧ t.dmc = s.dmc ∧ t.res = s.res ∧ t.rcp.rst = s.rcp.rst := by
  obtain ⟨n, x, p, q, o, e⟩ := happen_of_held i f hs hf
  obtain rfl := Host.Outcome.next.inj (e.symm.trans h)
  exact ⟨hs, rfl, rfl, rfl, rfl, rfl, rfl, rfl⟩

/-- Settles O7: a row that does not act on the reset, and the passing of time, have no effect in a held reset. -/
theorem heldResetGoesOnHolding : Obligations.HeldResetGoesOnHolding := by
  unfold Obligations.HeldResetGoesOnHolding
  rintro s t ⟨hs, hp⟩ h
  unfold step at h
  split at h
  next hnil =>
    obtain ⟨ht, hpend, hkeep⟩ := happen_keeps_held hs (fun _ _ => rfl) h
    exact ⟨⟨ht, by simp [hpend, hnil]⟩, hkeep⟩
  next c rest hcons =>
    rw [hcons] at hp
    obtain ⟨i, f, hx, hf⟩ := exec_of_held c (hp c List.mem_cons_self)
    rw [hx] at h
    obtain ⟨ht, hpend, hkeep⟩ := happen_keeps_held (s := { s with pending := rest }) hs hf h
    exact ⟨⟨ht, fun d hd => hp d (List.mem_cons_of_mem _ (by rwa [hpend] at hd))⟩, hkeep⟩

/-- Settles O8: a packet is only taken in over a live link (R49, R574). -/
theorem packetsFallOnDeadLinks : Obligations.PacketsFallOnDeadLinks := by
  unfold Obligations.PacketsFallOnDeadLinks
  intro i p s hp hdead
  rw [exec_packet i p s hp, packet, happen, receive_on_dead_link i p _ hdead]

/-- Settles O9: by evaluating the division. -/
theorem crc32cCheckValue : Obligations.Crc32cCheckValue := by
  unfold Obligations.Crc32cCheckValue
  decide +kernel

end Sys2Proof

namespace Sys2Proof

open Machine

/-! ## The check word (R67) -/

/-- One bit of the check word's division. -/
def crcStep (c : Nat) : Nat := if c % 2 = 1 then (c / 2) ^^^ 0x82F63B78 else c / 2

theorem crcStep_lt {c : Nat} (h : c < 2 ^ 32) : crcStep c < 2 ^ 32 := by
  unfold crcStep
  split
  · exact Nat.xor_lt_two_pow (by omega) (by decide)
  · omega

/-- The top bit of a step tells the bit that was divided out. -/
theorem testBit_crcStep {c : Nat} (h : c < 2 ^ 32) : (crcStep c).testBit 31 = decide (c % 2 = 1) := by
  have hc : (c / 2).testBit 31 = false := Nat.testBit_lt_two_pow (by omega)
  unfold crcStep
  split
  · next h1 => rw [Nat.testBit_xor, hc]; simp [h1]; decide
  · next h1 => simp [hc, h1]

theorem crcStep_inj {c d : Nat} (hc : c < 2 ^ 32) (hd : d < 2 ^ 32) (h : crcStep c = crcStep d) : c = d := by
  have hlow : decide (c % 2 = 1) = decide (d % 2 = 1) := by rw [← testBit_crcStep hc, ← testBit_crcStep hd, h]
  have hlow : c % 2 = 1 ↔ d % 2 = 1 := by simpa using hlow
  have hhalf : c / 2 = d / 2 := by
    unfold crcStep at h
    split at h <;> split at h
    · exact Nat.xor_left_injective h
    · omega
    · omega
    · exact h
  omega

theorem crc32cBits_lt (k : Nat) : ∀ {c : Nat}, c < 2 ^ 32 → crc32cBits k c < 2 ^ 32 := by
  induction k with
  | zero => exact id
  | succ k ih => exact fun h => ih (crcStep_lt h)

theorem crc32cBits_inj (k : Nat) : ∀ {c d : Nat}, c < 2 ^ 32 → d < 2 ^ 32 → crc32cBits k c = crc32cBits k d → c = d := by
  induction k with
  | zero => exact fun _ _ h => h
  | succ k ih => exact fun hc hd h => crcStep_inj hc hd (ih (crcStep_lt hc) (crcStep_lt hd) h)

theorem forced_eq {α : Type} (n : Nat) (k : Nat → α) : forced n k = k n := by cases n <;> rfl

theorem crc32cFold_cons (c b : Nat) (r : List Nat) : crc32cFold c (b :: r) = crc32cFold (crc32cBits 8 (c ^^^ (b % 256))) r :=
  forced_eq _ _

theorem crcIn_lt {c : Nat} (b : Nat) (hc : c < 2 ^ 32) : c ^^^ (b % 256) < 2 ^ 32 := Nat.xor_lt_two_pow hc (by omega)

theorem crc32cFold_lt (bs : List Nat) : ∀ {c : Nat}, c < 2 ^ 32 → crc32cFold c bs < 2 ^ 32 := by
  induction bs with
  | nil => exact id
  | cons b r ih => intro c hc; rw [crc32cFold_cons]; exact ih (crc32cBits_lt 8 (crcIn_lt b hc))

theorem crc32cFold_append (as bs : List Nat) : ∀ c, crc32cFold c (as ++ bs) = crc32cFold (crc32cFold c as) bs := by
  induction as with
  | nil => exact fun _ => rfl
  | cons a r ih => intro c; rw [List.cons_append, crc32cFold_cons, crc32cFold_cons, ih]

theorem crc32cFold_inj (bs : List Nat) : ∀ {c d : Nat}, c < 2 ^ 32 → d < 2 ^ 32 → crc32cFold c bs = crc32cFold d bs → c = d := by
  induction bs with
  | nil => exact fun _ _ h => h
  | cons b r ih =>
    intro c d hc hd h
    rw [crc32cFold_cons, crc32cFold_cons] at h
    have h1 := ih (crc32cBits_lt 8 (crcIn_lt b hc)) (crc32cBits_lt 8 (crcIn_lt b hd)) h
    exact Nat.xor_left_injective (crc32cBits_inj 8 (crcIn_lt b hc) (crcIn_lt b hd) h1)

theorem crc32c_lt (bs : List Nat) : crc32c bs < 2 ^ 32 := Nat.xor_lt_two_pow (crc32cFold_lt bs (by decide)) (by decide)

/-- Settles O10: each bit of the division, and so each byte taken in, can be undone. -/
theorem oneWrongByteIsAlwaysDetected : Obligations.OneWrongByteIsAlwaysDetected := by
  unfold Obligations.OneWrongByteIsAlwaysDetected
  intro a b x y hx hy hxy h
  have hfold : crc32cFold 0xFFFFFFFF (a ++ x :: b) = crc32cFold 0xFFFFFFFF (a ++ y :: b) := Nat.xor_left_injective h
  have ha : crc32cFold 0xFFFFFFFF a < 2 ^ 32 := crc32cFold_lt a (by decide)
  rw [crc32cFold_append, crc32cFold_append, crc32cFold_cons, crc32cFold_cons] at hfold
  have hin := crc32cFold_inj b (crc32cBits_lt 8 (crcIn_lt x ha)) (crc32cBits_lt 8 (crcIn_lt y ha)) hfold
  have hbyte := Nat.xor_right_injective (crc32cBits_inj 8 (crcIn_lt x ha) (crcIn_lt y ha) hin)
  change x % 256 = y % 256 at hbyte
  omega

/-! ## The layout of a reply (R65, R66, R680) -/

theorem leNat_digits (n : Nat) : ∀ u : Nat, leNat ((List.range n).map fun i => u / 2 ^ (8 * i) % 256) = u % 2 ^ (8 * n) := by
  induction n with
  | zero => intro u; simp [leNat, Nat.mod_one]
  | succ n ih =>
    intro u
    have hshift : ((List.range n).map Nat.succ).map (fun i => u / 2 ^ (8 * i) % 256) = (List.range n).map fun i => u / 256 / 2 ^ (8 * i) % 256 := by
      rw [List.map_map]
      refine List.map_congr_left fun i _ => ?_
      rw [Function.comp_apply, Nat.div_div_eq_div_mul, show 8 * i.succ = 8 + 8 * i by omega, pow_add]
      rfl
    rw [List.range_succ_eq_map, List.map_cons, leNat, hshift, ih, show 8 * (n + 1) = 8 + 8 * n by omega, pow_add, Nat.mod_mul]
    norm_num

/-- The little-endian bytes of a number read back as its two's complement. -/
theorem leNat_leBytes (n : Nat) (x : Int) : leNat (leBytes n x) = toUnsigned (8 * n) x := by
  have hlt : toUnsigned (8 * n) x < 2 ^ (8 * n) := by
    unfold toUnsigned
    have hpos : (0 : Int) < (2 ^ (8 * n) : Nat) := by exact_mod_cast Nat.two_pow_pos _
    exact (Int.toNat_lt (Int.emod_nonneg _ hpos.ne')).2 (Int.emod_lt_of_pos _ hpos)
  rw [leBytes, leNat_digits, Nat.mod_eq_of_lt hlt]

theorem toUnsigned_natCast (w n : Nat) : toUnsigned w (n : Int) = n % 2 ^ w := by
  unfold toUnsigned
  exact Int.toNat_natCast _

@[simp] theorem length_leBytes (n : Nat) (x : Int) : (leBytes n x).length = n := by simp [leBytes]

/-- A field that stands after the bytes `p` of a string is read back. -/
theorem leAt_field {o n : Nat} {bs p q : List Nat} {v : Nat} (hbs : bs = p ++ (leBytes n v ++ q)) (ho : p.length = o) :
    leAt bs o n = v % 2 ^ (8 * n) := by
  subst ho
  rw [hbs, leAt, List.drop_left, List.take_left' (length_leBytes n v), leNat_leBytes, toUnsigned_natCast]

theorem length_rvBytesFrom (ps : List RV) : ∀ acc, (rvBytesFrom acc ps).length % 4 = 0 := by
  induction ps with
  | nil => intro acc; rw [rvBytesFrom, padTo, List.length_append, List.length_replicate]; omega
  | cons r rs ih => exact fun acc => ih _

/-- Header bytes 0 to 27 of a reply. -/
def replyHead (r : Reply) : List Nat :=
  leBytes 2 0x4B44 ++ [1, if r.note then 9 else 1] ++ leBytes 2 r.op ++ leBytes 2 r.session ++
    leBytes 4 r.seq ++ leBytes 4 r.tag ++ leBytes 4 (rvBytes r.ps).length ++ leBytes 2 r.status ++ [r.state % 256, 0] ++ leBytes 4 r.adj

theorem packetBytes_eq (r : Reply) :
    packetBytes r = replyHead r ++ (leBytes 4 (crc32c (replyHead r ++ rvBytes r.ps)) ++ rvBytes r.ps) := List.append_assoc _ _ _

theorem length_replyHead (r : Reply) : (replyHead r).length = 28 := by simp [replyHead]

theorem take_packetBytes (r : Reply) : (packetBytes r).take 28 = replyHead r := by
  rw [packetBytes_eq, List.take_left' (length_replyHead r)]

theorem drop_packetBytes (r : Reply) : (packetBytes r).drop 32 = rvBytes r.ps := by
  rw [packetBytes_eq, ← List.append_assoc]
  exact List.drop_left' (by simp [length_replyHead])

/-- Settles O11: each field is read back from its place, and the check word stands over what surrounds it. -/
theorem replyLayout : Obligations.ReplyLayout := by
  unfold Obligations.ReplyLayout
  intro r b
  have field : ∀ {o n v : Nat}, leAt b o n = leNat (leBytes n v) → leAt b o n = v % 2 ^ (8 * n) := by
    intro o n v h
    rw [h, leNat_leBytes, toUnsigned_natCast]
  have hcrc : leAt b 28 4 = crc32c (b.take 28 ++ b.drop 32) := by
    rw [take_packetBytes, drop_packetBytes, leAt_field (packetBytes_eq r) (length_replyHead r)]
    exact Nat.mod_eq_of_lt (crc32c_lt _)
  exact ⟨field (v := 0x4B44) rfl, rfl, rfl, field (n := 2) rfl, field (n := 2) rfl, field (n := 4) rfl, field (n := 4) rfl,
    field (n := 4) rfl, field (n := 2) rfl, rfl, rfl, field (n := 4) rfl, hcrc, drop_packetBytes r, length_rvBytesFrom r.ps []⟩

end Sys2Proof

namespace Sys2Proof

open Machine

/-! ## Checks 1 to 5 (R71 to R73, R75) -/

/-- A row with a command of its own carries the packet's parameters. -/
theorem raw_of_cmd {i : Instr} {p : Pack} {c : Cmd} (hp : packetOf i = some p) (hc : p.cmd = some c) : p.raw = none := by
  cases i <;> simp only [packetOf, Option.some.injEq, reduceCtorEq] at hp <;> subst hp
  case opcodeNotDefined => cases hc
  all_goals rfl

theorem exec_of_intake_none {i : Instr} {p : Pack} {s u : State} (hp : packetOf i = some p) (h : intake i p (arrive p.h.t s) = (none, u)) :
    exec i s = .next (conclude p.h.t s (settle u)) := by
  rw [exec_packet i p s hp, packet, happen, receive_of_none h]

section Intake

variable {p : Pack} {s u : State} (i : Instr)

/-- A command packet that reaches the sequencer and fails an early check is answered with that check's status. -/
theorem intake_of_fault {st : Nat} (hraw : p.raw = none) (hf : fetch p.h.via s = some u) (he : earlyFault p u = some st) :
    intake i p s = (none, refuseRaw (rawTicket p) st [] u) := by
  simp only [intake, hraw, hf, he, Bool.false_eq_true, if_false]

/-- One that passes them is judged as a SESSION_OPEN, or by its session. -/
theorem intake_of_fine (hraw : p.raw = none) (hf : fetch p.h.via s = some u) (he : earlyFault p u = none) :
    intake i p s = if p.op = 1 then openSequence p u else Machine.sequence i p u := by
  simp only [intake, hraw, hf, he, Bool.false_eq_true, if_false]

theorem intake_of_discarded {ok : Bool} (hraw : p.raw = some (true, ok)) (hf : fetch p.h.via s = some u) :
    intake i p s = (none, u) := by
  simp [intake, hraw, hf]

end Intake

theorem sequence_of_no_session (i : Instr) {p : Pack} {s : State} (h : sess s p.h.session = none) :
    sequence i p s = (none, refuseRaw (rawTicket p) eSession [] s) := by
  simp only [Machine.sequence, h]

theorem openSequence_of_session {p : Pack} (s : State) (h : p.h.session ≠ 0xFFFF) :
    openSequence p s = (none, refuseRaw (rawTicket p) eSession [] s) := if_pos h

/-- Settles O12: the checks stand in the manual's order, and the first that fails is answered with its status. -/
theorem checksOneToFive : Obligations.ChecksOneToFive := by
  unfold Obligations.ChecksOneToFive
  refine ⟨fun h op magic frag crcOk s u hbad hf => ?_, fun i p c s u hp hc hf => ?_⟩
  · have hraw : (rawPack h op magic frag crcOk).raw = some (true, crcOk) := by
      simpa [rawPack] using hbad
    exact exec_of_intake_none (p := rawPack h op magic frag crcOk) rfl (intake_of_discarded _ hraw hf)
  · have hraw := raw_of_cmd hp hc
    have fault : ∀ {st}, earlyFault p u = some st → exec i s = .next (conclude p.h.t s (settle (refuseRaw (rawTicket p) st [] u))) :=
      fun he => exec_of_intake_none hp (intake_of_fault i hraw hf he)
    have fine : ∀ {w}, earlyFault p u = none → (if p.op = 1 then openSequence p u else Machine.sequence i p u) = (none, w) →
        exec i s = .next (conclude p.h.t s (settle w)) :=
      fun he hw => exec_of_intake_none hp ((intake_of_fine i hraw hf he).trans hw)
    simp only
    refine ⟨fun h => fault ?_, fun hv h => fault ?_, fun hv hl h => fault ?_, fun hv hl hcrc h => fault ?_, fun hv hl hcrc hsz => ?_⟩
    · exact if_pos h
    · simp [earlyFault, hv, h, eLength]
    · simp only [earlyFault, if_neg (not_not.2 hv), if_neg hl, h]; rfl
    · simp only [earlyFault, if_neg (not_not.2 hv), if_neg hl, hcrc, if_pos h]; rfl
    · have he : earlyFault p u = none := by
        simp only [earlyFault, if_neg (not_not.2 hv), if_neg hl, hcrc, if_neg (not_lt.2 hsz)]; rfl
      refine ⟨fun hop hs => fine he ?_, fun hop hs => fine he ?_⟩
      · rw [if_neg hop, sequence_of_no_session i hs]; rfl
      · rw [if_pos hop, openSequence_of_session u hs]; rfl

/-! ## Sequence numbers (R70 to R72) -/

/-- How far the packet's number stands ahead of the number that its session consumed last. -/
def ahead (p : Pack) (x : Sess) : Nat := (p.h.seq + 2 ^ 32 - x.seq) % 2 ^ 32

section Sequence

variable (i : Instr) {p : Pack} {s : State} {x : Sess}

theorem sequence_of_next (hx : sess s p.h.session = some x) (h : ahead p x = 1) :
    Machine.sequence i p s = (some p.h.session, consume p.h.session p.h.seq s) := by
  simp only [Machine.sequence, hx]
  exact if_pos h

theorem sequence_of_early (hx : sess s p.h.session = some x) (h : 2 ≤ ahead p x ∧ ahead p x ≤ 16) :
    Machine.sequence i p s = (none, if x.held.any fun e => e.2.2.seq == p.h.seq then s
      else setSess p.h.session (fun x => { x with held := x.held ++ [(s.now + 100 * ms, i, rawTicket p)] }) s) := by
  have h1 : ahead p x ≠ 1 := by omega
  simp only [Machine.sequence, hx]
  exact (if_neg h1).trans (if_pos h)

/-- A number of the last 16 is answered as the kept reply of that number tells (R71, R72). -/
theorem sequence_of_late (hx : sess s p.h.session = some x) (h : ahead p x = 0 ∨ 2 ^ 32 - 15 ≤ ahead p x) :
    (Machine.sequence i p s).1 = none ∧
      (∀ n r, (x.kept.find? fun e => e.1 == p.h.seq) = some (n, some r) → (Machine.sequence i p s).2 = resend p.h.via (bit p.h.flags 2) r s) ∧
      (∀ n, (x.kept.find? fun e => e.1 == p.h.seq) = some (n, none) → (Machine.sequence i p s).2 = s) ∧
      ((x.kept.find? fun e => e.1 == p.h.seq) = none →
        (Machine.sequence i p s).2 = refuseRaw (rawTicket p) eSequence [u32 (expected x)] s) := by
  have h1 : ¬ (p.h.seq + 2 ^ 32 - x.seq) % 2 ^ 32 = 1 := by unfold ahead at h; omega
  have h2 : ¬ (2 ≤ (p.h.seq + 2 ^ 32 - x.seq) % 2 ^ 32 ∧ (p.h.seq + 2 ^ 32 - x.seq) % 2 ^ 32 ≤ 16) := by unfold ahead at h; omega
  unfold ahead at h
  simp only [Machine.sequence, hx, if_neg h1, if_neg h2, if_pos h]
  refine ⟨?_, fun n r hk => ?_, fun n hk => ?_, fun hk => ?_⟩
  · split <;> rfl
  all_goals rw [hk]

theorem sequence_of_other (hx : sess s p.h.session = some x) (h : 16 < ahead p x ∧ ahead p x < 2 ^ 32 - 15) :
    Machine.sequence i p s = (none, refuseRaw (rawTicket p) eSequence [u32 (expected x)] s) := by
  have h1 : ahead p x ≠ 1 := by omega
  have h2 : ¬ (2 ≤ ahead p x ∧ ahead p x ≤ 16) := by omega
  have h3 : ¬ (ahead p x = 0 ∨ 2 ^ 32 - 15 ≤ ahead p x) := by omega
  simp only [Machine.sequence, hx]
  exact (if_neg h1).trans ((if_neg h2).trans (if_neg h3))

/-- A number ahead of its turn stands among the held commands, as before or for 100 ms from now (R71). -/
theorem held_of_early (hx : sess s p.h.session = some x) (h : 2 ≤ ahead p x ∧ ahead p x ≤ 16) :
    ∃ y, sess (Machine.sequence i p s).2 p.h.session = some y ∧ y.seq = x.seq ∧
      ∃ e ∈ y.held, e.2.2.seq = p.h.seq ∧ (e ∈ x.held ∨ e.1 = s.now + 100 * ms) := by
  rw [sequence_of_early i hx h]
  by_cases hheld : (x.held.any fun e => e.2.2.seq == p.h.seq) = true
  · obtain ⟨e, he, hseq⟩ := List.any_eq_true.1 hheld
    exact ⟨x, by simp only [hheld, if_true]; exact hx, rfl, e, he, beq_iff_eq.1 hseq, .inl he⟩
  · refine ⟨{ x with held := x.held ++ [(s.now + 100 * ms, i, rawTicket p)] }, ?_, rfl, _, List.mem_append_right _ (List.mem_singleton.2 rfl), rfl, .inr rfl⟩
    simp only [hheld, Bool.false_eq_true, if_false]
    rw [sess_setSess, if_pos rfl, hx, Option.map_some]

end Sequence

/-- Settles O13: one of the four outcomes, by how far the number stands ahead. -/
theorem sequenceNumbers : Obligations.SequenceNumbers := by
  unfold Obligations.SequenceNumbers
  intro i p s x hx _ _
  refine ⟨fun h => ?_, fun h => ⟨?_, held_of_early i hx h⟩, fun h => ?_, sequence_of_other i hx⟩
  · rw [sequence_of_next i hx h]
    exact ⟨rfl, _, sess_consume hx, rfl, rfl⟩
  · rw [sequence_of_early i hx h]
  · obtain ⟨hnone, hkept, hawaited, hgone⟩ := sequence_of_late i hx h
    exact ⟨hnone, hkept _, hawaited _, hgone⟩

/-! ## Checks 6 to 10 (R75, R113, R682) -/

/-- A packet that was taken in and is refused by a later check is answered with that check's status. -/
theorem refusedAt_of_serve {i : Instr} {p : Pack} {s u : State} {sid st : Nat} {ps : List RV} (hp : packetOf i = some p)
    (hin : intake i p (arrive p.h.t s) = (some sid, u))
    (hs : serve i p sid u = answer (if p.op = 1 then rawTicket p else { rawTicket p with session := sid }) st ps u) :
    refusedAt i p s sid u st ps := by
  rw [refusedAt, exec_packet i p s hp, packet, happen, receive_of_some hin, hs]

/-- Settles O14: the checks stand in the manual's order, and the first that fails is answered with its status. -/
theorem checksSixToTen : Obligations.ChecksSixToTen := by
  unfold Obligations.ChecksSixToTen
  refine ⟨fun h op crcOk s sid u _ hin => refusedAt_of_serve (p := rawPack h op 0x4B44 false crcOk) rfl hin rfl, fun i p c s sid u hp hc hin => ?_⟩
  have fails : ∀ {st ps}, judge c p sid u = .refuse st ps → refusedAt i p s sid u st ps :=
    fun hj => refusedAt_of_serve hp hin (serve_refused hc hj)
  have legal : (u.dev.state = .boot → c.legal.contains .boot = true) → ¬ (u.dev.state = .boot ∧ (! c.legal.contains .boot) = true) :=
    fun hb h => by rw [hb h.1] at h; exact Bool.false_ne_true h.2
  have own : (c.owner = true → u.dev.owner = some sid) → ¬ (c.owner = true ∧ u.dev.owner ≠ some sid) := fun ho h => h.2 (ho h.1)
  refine ⟨fun h hl => fails ?_, fun hb ho hn => fails ?_, fun hb ho ha => fails ?_, fun hb ho ha hl => fails ?_,
    fun hb ho ha hl n hab => fails ?_, fun hb ho ha hl hab hbad => fails ?_, fun hb ho ha hl hab hbad hs => fails ?_⟩
  · exact if_pos ⟨h, by rw [hl]; rfl⟩
  · exact (if_neg (legal hb)).trans (if_pos ⟨ho, hn⟩)
  all_goals unfold judge; rw [if_neg (legal hb), if_neg (own ho)]
  · simp [ha, eBusy]
  · simp [ha, hl, eState]
  · simp [ha, hl, hab, eAbsent]
  · simp [ha, hl, hab, hbad, eParam]
  · simp [ha, hl, hab, hbad, hs, eBusy]

end Sys2Proof

namespace Sys2Proof

open Machine

/-! ## What an answer leaves (R55, R72, R91) -/

theorem sess_retain_ne {sid n : Nat} (seq : Nat) (r : Option Reply) (s : State) (h : n ≠ sid) : sess (retain sid seq r s) n = sess s n :=
  (tabGet_tabMod _ _ _ _).trans (if_neg (Ne.symm h))

/-- An answer changes the sessions, the queue pairs and the outputs only. -/
theorem answer_frame (tk : Ticket) (status : Nat) (ps : List RV) (s : State) :
    answer tk status ps s = { s with
      dev := { s.dev with sessions := (answer tk status ps s).dev.sessions, pairs := (answer tk status ps s).dev.pairs }
      out := (answer tk status ps s).out } := by
  unfold answer
  by_cases hq : tk.queued = true
  · simp only [hq, if_true]
    exact notify_frame _ _ _ _ _ _
  · simp only [hq, Bool.false_eq_true, if_false]
    generalize (if status = stOk ∧ tk.adj ≠ 0 then stClamped else status) = st
    split
    · rfl
    · rw [sendReply_frame]
      rfl

theorem sess_answer_ne {tk : Ticket} {n : Nat} (status : Nat) (ps : List RV) (s : State) (h : n ≠ tk.session) :
    sess (answer tk status ps s) n = sess s n := by
  unfold answer
  by_cases hq : tk.queued = true
  · simp only [hq, if_true]
    rw [notify_sessions, if_neg h]
  · simp only [hq, Bool.false_eq_true, if_false]
    generalize (if status = stOk ∧ tk.adj ≠ 0 then stClamped else status) = st
    split
    · exact sess_retain_ne _ _ s h
    · rw [sess_sendReply, sess_retain_ne _ _ s h]

/-- Settles O17: an answer files a reply and sends it, or notifies the sender. -/
theorem answersTouchOnlySessionsAndRings : Obligations.AnswersTouchOnlySessionsAndRings := by
  unfold Obligations.AnswersTouchOnlySessionsAndRings
  exact fun tk status ps s => ⟨answer_frame tk status ps s, fun n => sess_answer_ne status ps s⟩

/-! ## Ownership (R97 to R103) -/

theorem ownerNote_frame (cause : Nat) (s : State) :
    ownerNote cause s = { s with
      dev := { s.dev with sessions := (ownerNote cause s).dev.sessions, pairs := (ownerNote cause s).dev.pairs }
      out := (ownerNote cause s).out } := notifyWhere_frame _ _ _ _ s

/-- Telling the sessions of a new owner changes neither the owner nor the end of the lease. -/
theorem ownerNotify_owner (cause : Nat) (s : State) :
    (ownerNotify cause s).dev.owner = s.dev.owner ∧ (ownerNotify cause s).dev.leaseEnd = s.dev.leaseEnd := by
  rw [ownerNotify, ownerNote_frame, irqAll_frame]
  exact ⟨rfl, rfl⟩

theorem sess_notify_isNone (sid op tag st : Nat) (ps : List RV) (s : State) (n : Nat) (h : sess s n = none) :
    sess (notify sid op tag st ps s) n = none := by
  rw [notify_sessions, h, Option.map_none, ite_self]

/-- Notifications open no session. -/
theorem sess_notifyWhere_none (who : Nat → Sess → Bool) (op st : Nat) (ps : List RV) {s : State} {n : Nat} (h : sess s n = none) :
    sess (notifyWhere who op st ps s) n = none := by
  unfold notifyWhere
  generalize s.dev.sessions.filter (fun e => who e.1 e.2) = l
  induction l generalizing s with
  | nil => exact h
  | cons e r ih => exact ih (sess_notify_isNone _ _ _ _ _ _ _ h)

theorem vacate_owner (cause : Nat) (s : State) : (vacate cause s).dev.owner = none := (ownerNotify_owner _ _).1

theorem sess_vacate_none (cause : Nat) {s : State} {n : Nat} (h : sess s n = none) : sess (vacate cause s) n = none := by
  unfold vacate ownerNotify ownerNote
  refine sess_notifyWhere_none _ _ _ _ ?_
  rw [irqAll_frame]
  exact h

theorem refuseRaw_sess_owner (tk : Ticket) (st : Nat) (ps : List RV) (s : State) :
    (refuseRaw tk st ps s).dev.sessions = s.dev.sessions ∧ (refuseRaw tk st ps s).dev.owner = s.dev.owner := by
  rw [refuseRaw_frame]
  exact ⟨rfl, rfl⟩

theorem refuseRaws_sess_owner (st : Nat) (ps : List RV) (held : List (Nat × Instr × Ticket)) : ∀ s : State,
    (held.foldl (fun s e => refuseRaw e.2.2 st ps s) s).dev.sessions = s.dev.sessions ∧
      (held.foldl (fun s e => refuseRaw e.2.2 st ps s) s).dev.owner = s.dev.owner := by
  induction held with
  | nil => exact fun s => ⟨rfl, rfl⟩
  | cons e r ih =>
    intro s
    obtain ⟨h1, h2⟩ := ih (refuseRaw e.2.2 st ps s)
    obtain ⟨h3, h4⟩ := refuseRaw_sess_owner e.2.2 st ps s
    exact ⟨h1.trans h3, h2.trans h4⟩

/-- A session's entry, its subscriptions and its DMA channels are gone (R97). -/
def withoutSess (sid : Nat) (s : State) : State :=
  setRes (fun r => { r with subs := r.subs.filter fun e => e.1 / 64 != sid })
    (setDev (fun d => { d with sessions := tabDel d.sessions sid })
      (setDma (fun d => { d with chans := d.chans.map fun e => (e.1, if e.2.session = some sid then { e.2 with session := none } else e.2) }) s))

theorem sess_withoutSess (sid : Nat) (s : State) : sess (withoutSess sid s) sid = none := (tabGet_tabDel _ _ _).trans (if_pos rfl)

theorem closeSess_eq_of_owner {sid : Nat} {s : State} (h : s.dev.owner = some sid) :
    ∃ held : List (Nat × Instr × Ticket), closeSess sid s = held.foldl (fun s e => refuseRaw e.2.2 eSession [] s) (vacate 4 (withoutSess sid s)) :=
  ⟨_, congrArg (fun u => List.foldl _ u _) (if_pos h)⟩

/-- SESSION_CLOSE of the owner leaves neither the session nor an owner. -/
theorem closeSess_of_owner {sid : Nat} {s : State} (h : s.dev.owner = some sid) :
    (closeSess sid s).dev.owner = none ∧ sess (closeSess sid s) sid = none := by
  obtain ⟨held, hc⟩ := closeSess_eq_of_owner h
  obtain ⟨hsess, hown⟩ := refuseRaws_sess_owner eSession [] held (vacate 4 (withoutSess sid s))
  rw [sess, hc, hsess, hown]
  exact ⟨vacate_owner _ _, sess_vacate_none _ (sess_withoutSess sid s)⟩

theorem claimFor_of_vacant {s : State} (sid lease : Nat) (h : s.dev.owner = none) :
    claimFor sid lease s = some (ownerNotify 0 (grant sid lease s)) := by
  simp only [claimFor, h]

theorem claimFor_of_owned {s : State} {o : Nat} (sid lease : Nat) (h : s.dev.owner = some o) :
    claimFor sid lease s = if o = sid then some (grant sid lease s) else none := by
  simp only [claimFor, h]

/-- Settles O19: by the owner found: none, the session itself, or another. -/
theorem ownershipMoves : Obligations.OwnershipMoves := by
  unfold Obligations.OwnershipMoves
  refine ⟨fun sid lease s h => ?_, fun sid lease s o ho hne => ?_, fun _ _ _ => ⟨rfl, rfl⟩, vacate_owner, fun sid s => closeSess_of_owner,
    fun sid seq s ho => ?_⟩
  · obtain h | h := h
    · obtain ⟨hown, hend⟩ := ownerNotify_owner 0 (grant sid lease s)
      exact ⟨_, claimFor_of_vacant sid lease h, hown, hend⟩
    · exact ⟨_, (claimFor_of_owned sid lease h).trans (if_pos rfl), rfl, rfl⟩
  · exact (claimFor_of_owned sid lease ho).trans (if_neg hne)
  · have hset : (setSess sid (consumed s.now seq) s).dev.owner = some sid := ho
    exact congrArg (fun t : State => t.dev.leaseEnd) (if_pos hset)

/-! ## Registers (R23, R27, R161) -/

/-- Settles O20: a counter's new value is the lesser of its sum and its top. -/
theorem countersSaturate : Obligations.CountersSaturate := by
  unfold Obligations.CountersSaturate
  exact fun a n s => ⟨rget_bump a n s, fun b hb => rget_bump_ne n s hb, rfl⟩

/-- Taking away the bits that a number shares with a mask clears them and no other. -/
theorem testBit_sub_and (i : Nat) : ∀ x m : Nat, (x - (x &&& m)).testBit i = (x.testBit i && ! m.testBit i) := by
  induction i with
  | zero =>
    intro x m
    have hle : x &&& m ≤ x := Nat.and_le_left
    have hone : (x &&& m) % 2 = 1 ↔ x % 2 = 1 ∧ m % 2 = 1 := Nat.and_mod_two_eq_one
    rw [Bool.eq_iff_iff]
    simp only [Nat.testBit_zero, Bool.and_eq_true, Bool.not_eq_true', decide_eq_true_eq, decide_eq_false_iff_not]
    omega
  | succ i ih =>
    intro x m
    have hle : x &&& m ≤ x := Nat.and_le_left
    have hone : (x &&& m) % 2 = 1 ↔ x % 2 = 1 ∧ m % 2 = 1 := Nat.and_mod_two_eq_one
    have hhalf : (x - (x &&& m)) / 2 = x / 2 - (x / 2 &&& m / 2) := by rw [← Nat.and_div_two]; omega
    rw [Nat.testBit_succ, hhalf, ih, Nat.testBit_succ, Nat.testBit_succ]

/-- Settles O21: bit by bit of the value written. -/
theorem writeOneClears : Obligations.WriteOneClears := by
  unfold Obligations.WriteOneClears
  intro a mask w s h
  refine ⟨fun i => ?_, fun b hb => rget_rput_ne _ s hb, rfl⟩
  rw [w1c, rget_rput, if_pos rfl, Nat.mod_eq_of_lt (lt_of_le_of_lt (Nat.sub_le _ _) h), bit, testBit_sub_and, Nat.testBit_and]
  rfl

/-- Settles O23: no case of the address map is met, neither by the wrappers, nor by a read, nor by a write. -/
theorem unmappedAddressesReadZero : Obligations.UnmappedAddressesReadZero := by
  unfold Obligations.UnmappedAddressesReadZero
  intro a via v s hlist hport
  simp only [List.mem_cons, List.not_mem_nil, or_false, not_or] at hlist
  obtain ⟨h1, h2, h3, h4, h5, h6, h7, h8, h9, h10, h11, h12, h13, h14, h15, h16, h17⟩ := hlist
  have hnp : ¬ (0x80 ≤ a / 0x10000 ∧ a / 0x10000 < 0x90 ∧ present 16 (a / 0x10000 - 0x80) s = true) := fun h => hport ⟨h.1, h.2.1⟩
  have hs : shut s a = false := by
    unfold shut addrWrap
    split
    next w hw =>
      split at hw
      case h_14 => rw [if_neg hport] at hw; cases hw
      all_goals contradiction
    next => rfl
  constructor
  · unfold regView
    rw [hs]
    split
    · rfl
    · split
      case h_18 => exact congrArg (· % 2 ^ 32) (if_neg hnp)
      all_goals contradiction
  · unfold barWrite regWrite
    rw [hs]
    split
    · rfl
    · unfold regAct
      rw [if_neg Bool.false_ne_true]
      split
      case h_17 => exact if_neg hnp
      all_goals contradiction

/-! ## Byte memories (log 43) -/

theorem memRead_succ (m : Tab Nat) (a n : Nat) : memRead m a (n + 1) = memByte m a :: memRead m (a + 1) n := by
  unfold memRead
  rw [List.range_succ_eq_map, List.map_cons, List.map_map]
  refine congrArg _ (List.map_congr_left fun i _ => ?_)
  rw [Function.comp_apply, Nat.add_right_comm]
  rfl

theorem memRead_memWrite (bs : List Nat) : ∀ (m : Tab Nat) (a : Nat), (∀ b ∈ bs, b < 256) → memRead (memWrite m a bs) a bs.length = bs := by
  induction bs with
  | nil => exact fun _ _ _ => rfl
  | cons b r ih =>
    intro m a h
    have hb : memByte (memWrite m a (b :: r)) a = b := by
      rw [memWrite, memByte_memWrite_out r _ _ _ (.inl (Nat.lt_succ_self a)), memByte_memSet, if_pos rfl,
        Nat.mod_eq_of_lt (h b List.mem_cons_self)]
    rw [List.length_cons, memRead_succ, hb, memWrite, ih _ _ fun c hc => h c (List.mem_cons_of_mem _ hc)]

/-- Settles O24: by induction on the bytes written, the first byte standing below the rest. -/
theorem bytesWrittenAreReadBack : Obligations.BytesWrittenAreReadBack := by
  unfold Obligations.BytesWrittenAreReadBack
  exact fun m a bs h => ⟨memRead_memWrite bs m a h, fun x => memByte_memWrite_out bs m a x, Memory.wf_memWrite bs a⟩

/-! ## Quadrature axes (R208, R217, R218) -/

theorem axis_setAxis (a n : Nat) (f : Axis → Axis) (s : State) :
    axis (setAxis a f s) n = if a = n ∧ n < s.pos.axes.length then f (axis s n) else axis s n := by
  simp only [axis, setAxis, List.getD_eq_getElem?_getD, getElem_listMod]
  by_cases hn : n < s.pos.axes.length
  · by_cases ha : a = n <;> simp [ha, hn]
  · simp [hn]

theorem axis_setAxis_self {n : Nat} {s : State} (f : Axis → Axis) (h : n < s.pos.axes.length) : axis (setAxis n f s) n = f (axis s n) := by
  rw [axis_setAxis, if_pos ⟨rfl, h⟩]

/-- What an axis has counted: its position and its illegal transitions. -/
def tally (s : State) (n : Nat) : Int × Nat := ((axis s n).count, (axis s n).illegal)

theorem tally_of_pos {s t : State} (h : t.pos = s.pos) (n : Nat) : tally t n = tally s n := by
  unfold tally axis
  rw [h]

theorem tally_of_axes {s t : State} (h : t.pos.axes = s.pos.axes) (n : Nat) : tally t n = tally s n := by
  unfold tally axis
  rw [h]

/-- A change of an axis that leaves its two counts leaves every axis's counts. -/
theorem tally_setAxis {f : Axis → Axis} (hf : ∀ x : Axis, (f x).count = x.count ∧ (f x).illegal = x.illegal) (a n : Nat) (s : State) :
    tally (setAxis a f s) n = tally s n := by
  unfold tally
  rw [axis_setAxis]
  split
  · rw [(hf _).1, (hf _).2]
  · rfl

@[simp] theorem publish_pos (src : Nat) (s : State) : (publish src s).pos = s.pos := by rw [publish, publishFrom_frame]

@[simp] theorem posNotify_pos (a kind : Nat) (s : State) : (posNotify a kind s).pos = s.pos := by rw [posNotify, notifySubs_frame]

@[simp] theorem rfield_pos (a lo w v : Nat) (s : State) : (rfield a lo w v s).pos = s.pos := rfl

theorem wakePort_pos (n : Nat) (s : State) : (wakePort n s).pos = s.pos := by
  unfold wakePort
  split
  · split <;> rfl
  · rfl

theorem wakeAll_pos (s : State) : (wakeAll s).pos = s.pos := by
  have ports : ∀ (l : List Nat) (u : State), (l.foldl (fun s n => wakePort n s) u).pos = u.pos := by
    intro l
    induction l with
    | nil => exact fun _ => rfl
    | cons n r ih => exact fun u => (ih (wakePort n u)).trans (wakePort_pos n u)
  exact (ports _ _).trans (rfield_pos _ _ _ _ s)

theorem tally_axisFault (a n : Nat) (s : State) : tally (axisFault a s) n = tally s n := by
  unfold axisFault
  split
  · rfl
  · rw [tally_of_pos (posNotify_pos _ _ _), tally_of_pos (rset_pos _ _ _), tally_setAxis]
    exact fun _ => ⟨rfl, rfl⟩

theorem tally_turn (a n : Nat) (rev : Bool) (s : State) : tally (turn a rev s) n = tally s n := by
  unfold turn
  simp only
  rw [tally_of_pos (publish_pos _ _), tally_of_pos (posNotify_pos _ _ _), tally_of_pos (rset_pos _ _ _)]
  trans tally (setAxis a (fun x => { x with rev := rev, ext := x.count }) s) n
  · refine tally_of_axes ?_ n
    split
    · split <;> rfl
    · split <;> rfl
  · exact tally_setAxis (by exact fun _ => ⟨rfl, rfl⟩) a n s

theorem tally_judgeTurn (a n : Nat) (s : State) : tally (judgeTurn a s) n = tally s n := by
  have ext : tally (setAxis a (fun x => { x with ext := x.count }) s) n = tally s n :=
    tally_setAxis (by exact fun _ => ⟨rfl, rfl⟩) a n s
  unfold judgeTurn
  simp only
  split
  · split
    · exact tally_turn a n true s
    · split
      · exact ext
      · rfl
  · split
    · exact tally_turn a n false s
    · split
      · exact ext
      · rfl

theorem tally_motionStart (a n : Nat) (s : State) : tally (motionStart a s) n = tally s n := by
  have hstart : tally (publish (0x0304 + a) (setAxis a (fun x => { x with moving := true }) s)) n = tally s n := by
    rw [tally_of_pos (publish_pos _ _), tally_setAxis]
    exact fun _ => ⟨rfl, rfl⟩
  unfold motionStart
  simp only
  split
  · rw [tally_of_pos (wakeAll_pos _), tally_of_pos (publish_pos _ _), hstart]
  · exact hstart

theorem tally_judgeMotion (a n : Nat) (s : State) : tally (judgeMotion a s) n = tally s n := by
  unfold judgeMotion
  simp only
  split
  · exact tally_motionStart a n s
  · rfl

/-- What follows from a move leaves the count that the move gave. -/
theorem count_moveCount {n : Nat} {s : State} (d : Int) (h : n < s.pos.axes.length) : (axis (moveCount n d s) n).count = (axis s n).count + d := by
  have hm : tally (moveCount n d s) n = tally (setAxis n _ s) n := (tally_judgeMotion n n _).trans (tally_judgeTurn n n _)
  refine (congrArg Prod.fst hm).trans ?_
  unfold tally
  rw [axis_setAxis_self _ h]

/-- One signal that changes is a step of the sequence. -/
theorem quadStep_ne_zero {la lb a b : Bool} (h : (la ≠ a ∧ lb = b) ∨ (la = a ∧ lb ≠ b)) : quadStep la lb a b ≠ 0 := by
  revert h
  revert la lb a b
  decide

/-- The levels of A and B accepted on an axis. -/
def withLevels (n : Nat) (a b : Bool) (s : State) : State := setAxis n (fun x => { x with la := a, lb := b }) s

theorem count_withLevels (n : Nat) (a b : Bool) (s : State) :
    (axis (withLevels n a b s) n).count = (axis s n).count ∧ (axis (withLevels n a b s) n).illegal = (axis s n).illegal :=
  Prod.mk.inj (tally_setAxis (by exact fun _ => ⟨rfl, rfl⟩) n n s)

theorem axes_withLevels (n : Nat) (a b : Bool) (s : State) : (withLevels n a b s).pos.axes.length = s.pos.axes.length := length_listMod _ _ _

section Quadrature

variable {n : Nat} {a b : Bool} {s : State}

theorem encoderEdge_of_both (hn : n < s.pos.axes.length) (hs : (axis s n).state = 1) (ht : (encCfg s n).type = 1)
    (h : (axis s n).la ≠ a ∧ (axis s n).lb ≠ b) :
    tally (encoderEdge n a b s) n = ((axis s n).count, min ((axis s n).illegal + 1) 0xFFFFFFFF) := by
  have hrun : ¬ ((axis s n).state = 0 ∨ (encCfg s n).type ≠ 1) := by simp [hs, ht]
  have hbad : ∀ {f : Axis → Axis}, (∀ x : Axis, (f x).count = x.count ∧ (f x).illegal = min (x.illegal + 1) 0xFFFFFFFF) →
      tally (rset (posBase + 0x10 + 4 * n) 0 (setAxis n f (withLevels n a b s))) n =
        ((axis s n).count, min ((axis s n).illegal + 1) 0xFFFFFFFF) := by
    intro f hf
    obtain ⟨hc, hi⟩ := count_withLevels n a b s
    rw [tally_of_pos (rset_pos _ _ _), tally, axis_setAxis_self _ ((axes_withLevels n a b s).symm ▸ hn), (hf _).1, (hf _).2, hc, hi]
  unfold encoderEdge
  simp only [if_neg hrun, if_pos h]
  split
  · rw [tally_axisFault]
    exact hbad (by exact fun _ => ⟨rfl, rfl⟩)
  · exact hbad (by exact fun _ => ⟨rfl, rfl⟩)

theorem encoderEdge_of_single (hs : (axis s n).state = 1) (ht : (encCfg s n).type = 1) (h : ¬ ((axis s n).la ≠ a ∧ (axis s n).lb ≠ b)) :
    encoderEdge n a b s =
      if quadStep (axis s n).la (axis s n).lb a b = 0 then withLevels n a b s
      else moveCount n (if (encCfg s n).invert = 1 then - quadStep (axis s n).la (axis s n).lb a b else quadStep (axis s n).la (axis s n).lb a b)
        (withLevels n a b s) := by
  have hrun : ¬ ((axis s n).state = 0 ∨ (encCfg s n).type ≠ 1) := by simp [hs, ht]
  unfold encoderEdge
  simp only [if_neg hrun, if_neg h]
  simp only [hs, OfNat.one_ne_ofNat, or_false]
  rfl

end Quadrature

theorem quadStep_same : ∀ a b : Bool, quadStep a b a b = 0 := by decide

/-- Settles O25: by which of the two signals have changed. -/
theorem quadratureCounts : Obligations.QuadratureCounts := by
  unfold Obligations.QuadratureCounts
  intro n a b s hn hs ht
  refine ⟨fun h => ?_, fun h => ?_, fun h => ?_, by decide⟩
  · rw [encoderEdge_of_single hs ht (fun hb => hb.1 h.1), h.1, h.2, quadStep_same, if_pos rfl]
    exact (count_withLevels n a b s).1
  · exact Prod.mk.inj (encoderEdge_of_both hn hs ht h)
  · have hone : ¬ ((axis s n).la ≠ a ∧ (axis s n).lb ≠ b) := fun hb => h.elim (fun h => hb.2 h.2) fun h => hb.1 h.1
    rw [encoderEdge_of_single hs ht hone, if_neg (quadStep_ne_zero h), count_moveCount _ ((axes_withLevels n a b s).symm ▸ hn),
      (count_withLevels n a b s).1]

end Sys2Proof

namespace Sys2Proof

open Machine

/-! ## What an accepted command comes to, by the effect of its own -/

section Act

variable {i : Instr} {hd : Hdr} {c : Cmd} {s0 s e : State} {tk : Ticket} {v : Vals} {st : Nat} {ps : List RV}

theorem answers_of_act (hp : packetOf i = some (cmdPack hd c)) (h : accepts i s0 = some (tk, v, s)) (ha : c.act tk v s = .ok e ps) :
    answers i s0 tk v s e ps := answers_of_ok hp rfl rfl h ha

theorem declines_of_act (hp : packetOf i = some (cmdPack hd c)) (h : accepts i s0 = some (tk, v, s)) (ha : c.act tk v s = .no st ps) :
    declines i s0 tk st ps := declines_of_no hp rfl rfl h ha

theorem defers_of_act (hp : packetOf i = some (cmdPack hd c)) (h : accepts i s0 = some (tk, v, s)) (ha : c.act tk v s = .later e) :
    defers i s0 tk v e := defers_of_later hp rfl h ha

end Act

theorem not_isSome_of_isNone {α : Type} {o : Option α} (h : o.isNone = true) : ¬ o.isSome = true := by simp_all

theorem not_isNone_of_isSome {α : Type} {o : Option α} (h : o.isSome = true) : ¬ o.isNone = true := by
  simp [Option.isNone_iff_eq_none, Option.isSome_iff_ne_none.1 h]

theorem not_bnot_of_true {b : Bool} (h : b = true) : ¬ (! b) = true := by simp_all

/-! ## Sessions, ownership and queue pairs -/

/-- Settles O29: each command's effect is its `act`, branch by branch. -/
theorem sessionCommandsComplete : Obligations.SessionCommandsComplete := by
  unfold Obligations.SessionCommandsComplete
  refine ⟨?sessionOpen, ?sessionClose, ?heartbeat, ?claim, ?release, ?transfer, ?ownerQuery, ?sessionList, ?queueCreate, ?queueDelete,
    ?identify, ?notifySubscribe⟩
  case sessionOpen =>
    exact fun hd p0 s0 tk v s h => ⟨fun hf => declines_of_act rfl h (if_pos hf), fun hf => answers_of_act rfl h (if_neg hf)⟩
  case sessionClose | heartbeat | release | ownerQuery | identify => exact fun hd s0 tk v s h => answers_of_act rfl h rfl
  case claim =>
    intro hd p0 s0 tk v s h
    dsimp only
    cases hc : claimFor tk.session (ofClaim v).lease s with
    | none => exact declines_of_act rfl h (by simp only [claim, mkClaim, hc])
    | some t => exact answers_of_act rfl h (by simp only [claim, mkClaim, hc])
  case transfer =>
    exact fun hd p0 s0 tk v s h => ⟨fun ht => declines_of_act rfl h (if_pos ht), fun ht => answers_of_act rfl h (if_neg (not_isNone_of_isSome ht))⟩
  case sessionList | notifySubscribe => exact fun hd p0 s0 tk v s h => answers_of_act rfl h rfl
  case queueCreate =>
    intro hd p0 s0 tk v s h
    refine ⟨fun hl => declines_of_act rfl h (by simp only [queueCreate, mkQueueCreate, hl]), fun l hl => ⟨fun ht => declines_of_act rfl h ?_,
      fun ht => ⟨fun hq => declines_of_act rfl h ?_, fun hq => answers_of_act rfl h ?_⟩⟩⟩
    · simp only [queueCreate, mkQueueCreate, hl, if_pos ht]
    · simp only [queueCreate, mkQueueCreate, hl, if_neg (not_bnot_of_true ht), if_pos hq]
    · simp only [queueCreate, mkQueueCreate, hl, if_neg (not_bnot_of_true ht), if_neg (not_isSome_of_isNone hq)]
  case queueDelete =>
    intro hd p0 s0 tk v s h
    refine ⟨fun hl => declines_of_act rfl h (by simp only [queueDelete, mkQueueDelete, hl]),
      fun l hl => ⟨fun hq => declines_of_act rfl h ?_, fun hq => defers_of_act rfl h ?_⟩⟩
    · simp only [queueDelete, mkQueueDelete, hl, if_pos hq]
    · simp only [queueDelete, mkQueueDelete, hl, if_neg (not_isNone_of_isSome hq)]

end Sys2Proof

namespace Sys2Proof

open Machine

/-! ## Commands that only report -/

/-- The state `u` with what an answer may change taken from `t`. -/
def answeredAs (t u : State) : State :=
  { u with dev := { u.dev with sessions := t.dev.sessions, pairs := t.dev.pairs, opens := t.dev.opens, cause := t.dev.cause }, free := t.free, out := t.out }

/-- `t` differs from `u` only in what an answer may change. -/
def onlyAnswered (t u : State) : Prop := t = answeredAs t u

theorem onlyAnswered_trans {t u w : State} (h : onlyAnswered t u) (k : onlyAnswered u w) : onlyAnswered t w := by
  have hu : answeredAs t u = answeredAs t (answeredAs u w) := congrArg (answeredAs t) k
  exact h.trans hu

/-- The row's end, which sets the instant, the ordering code and the waiting commands, changes nothing more. -/
theorem sameButAnswered_conclude {y u : State} (n : Nat) (s0 : State) (h : onlyAnswered y u) : sameButAnswered (conclude n s0 y) u :=
  congrArg (conclude n s0) h

/-- Nothing follows at once from a calm state that was answered. -/
theorem settle_of_calm {y u : State} (hc : calm u) (h : onlyAnswered y u) : settle y = y := by
  have hs : settle (answeredAs y u) = answeredAs y u := hc _ _ _ _ _ _
  rwa [← h] at hs

theorem onlyAnswered_of_eq {t s : State} {ss : Tab Sess} {ps : Tab QPair} {o : List Out}
    (h : t = { s with dev := { s.dev with sessions := ss, pairs := ps }, out := o }) : onlyAnswered t s := by
  subst h
  rfl

theorem onlyAnswered_answer (tk : Ticket) (status : Nat) (ps : List RV) (s : State) : onlyAnswered (answer tk status ps s) s :=
  onlyAnswered_of_eq (answer_frame tk status ps s)

theorem onlyAnswered_setCause (c : Option (Nat × Nat)) (s : State) : onlyAnswered (setCause c s) s := rfl

theorem onlyAnswered_free (n : Nat) (s : State) : onlyAnswered { s with free := n } s := rfl

/-- The state a command was judged in differs from the one it acts in by the session's route and the note of the command. -/
theorem onlyAnswered_acting (tk : Ticket) (s : State) : onlyAnswered s (acting tk s) := by
  unfold acting
  split <;> rfl

/-! ### A session that holds no command -/

/-- The session holds no command that came ahead of its number. -/
def holdsNone (sid : Nat) (s : State) : Prop := ∀ x, sess s sid = some x → x.held = []

theorem drainHeld_of_holdsNone {sid : Nat} {s : State} (h : holdsNone sid s) : ∀ k, drainHeld k sid s = s
  | 0 => rfl
  | k + 1 => by
    unfold drainHeld
    cases hx : sess s sid with
    | none => rfl
    | some x => simp only [h x hx, List.find?_nil]

theorem holdsNone_of_map {sid : Nat} {s t : State} {f : Sess → Sess} (hf : ∀ x, (f x).held = x.held) (hm : sess t sid = (sess s sid).map f) :
    holdsNone sid t ↔ holdsNone sid s := by
  unfold holdsNone
  rw [hm]
  cases sess s sid with
  | none => simp
  | some x => simp [hf]

theorem holdsNone_acting {tk : Ticket} {s : State} (hq : tk.queued = false) : holdsNone tk.session (acting tk s) ↔ holdsNone tk.session s := by
  refine holdsNone_of_map (f := fun x => { x with via := tk.via }) (fun _ => rfl) ?_
  unfold acting
  rw [hq]
  exact (sess_setSess s tk.session tk.session _).trans (if_pos rfl)

theorem holdsNone_answer {tk : Ticket} {s : State} (status : Nat) (ps : List RV) (hq : tk.queued = false) (h : holdsNone tk.session s) :
    holdsNone tk.session (answer tk status ps s) := by
  unfold answer
  rw [hq]
  simp only [Bool.false_eq_true, if_false]
  generalize (if status = stOk ∧ tk.adj ≠ 0 then stClamped else status) = st
  generalize hr : (⟨tk.op, tk.session, tk.seq, tk.tag, st, stateCode s.dev.state, tk.adj, false, ps⟩ : Reply) = r
  have hk : holdsNone tk.session (retain tk.session tk.seq (some r) s) := (holdsNone_of_map (f := withReply tk.seq r) (fun _ => rfl) (sess_retain _ _ _ _)).2 h
  split
  · exact hk
  · unfold holdsNone
    rw [sess_sendReply]
    exact hk

/-! ### What a command that reports has as its own effect -/

/-- The outcome of a command's own effect is a reply or a refusal that leaves the state, but for the count of free values. -/
def onlyReplies (s : State) : Res → Prop
  | .ok t _ => ∃ n, t = { s with free := n }
  | .no _ _ => True
  | .later _ => False

theorem onlyReplies_ok (s : State) (ps : List RV) : onlyReplies s (.ok s ps) := ⟨s.free, rfl⟩

theorem onlyReplies_no (s : State) (st : Nat) (ps : List RV) : onlyReplies s (.no st ps) := trivial

/-- The command is of no class that changes the device's state, and its own effect only replies. -/
structure Reports (c : Cmd) : Prop where
  opcode : (c.opcode == 1) = false
  cls : c.cls = .n ∨ c.cls = .r
  act : ∀ tk v s, onlyReplies s (c.act tk v s)

theorem afterClass_of_reports {c : Cmd} (h : Reports c) (v : Vals) (s t : State) : afterClass (cmdClass c v s) t = t := by
  have hn : ¬ (cmdClass c v s = .c ∧ t.dev.state = .configured) := by
    unfold cmdClass
    rcases h.cls with h | h <;> simp [h]
  exact if_neg hn

/-- A command that reports and is performed leaves what an answer leaves, and its session holding none. -/
theorem perform_of_reports {c : Cmd} (hc : Reports c) {tk : Ticket} (v : Vals) {s : State} (hq : tk.queued = false) (hh : holdsNone tk.session s) :
    onlyAnswered (perform c tk v s) (acting tk s) ∧ holdsNone tk.session (perform c tk v s) := by
  have hact := hc.act tk v (acting tk s)
  have hop : ¬ c.opcode = 1 := by simpa using hc.opcode
  unfold perform
  simp only [afterClass_of_reports hc, if_neg hop]
  cases hr : c.act tk v (acting tk s) with
  | no st ps =>
    exact ⟨onlyAnswered_trans (onlyAnswered_answer _ _ _ _) (onlyAnswered_acting tk s), holdsNone_answer (tk := { tk with adj := 0 }) st ps hq hh⟩
  | later t => rw [hr] at hact; exact hact.elim
  | ok t ps =>
    rw [hr] at hact
    obtain ⟨n, rfl⟩ := hact
    dsimp only
    split
    · exact ⟨onlyAnswered_trans (onlyAnswered_answer _ _ _ _) (onlyAnswered_acting tk s), holdsNone_answer (tk := { tk with adj := 0 }) eSize [] hq hh⟩
    · exact ⟨onlyAnswered_trans (onlyAnswered_setCause _ _) (onlyAnswered_trans (onlyAnswered_answer _ _ _ _) (onlyAnswered_free n _)),
        holdsNone_answer stOk ps hq ((holdsNone_acting hq).2 hh)⟩

/-- A row whose command reports leaves what an answer leaves. -/
theorem exec_of_reports {i : Instr} {hd : Hdr} {c : Cmd} {s0 u : State} {tk : Ticket} {v : Vals} (hp : packetOf i = some (cmdPack hd c)) (hc : Reports c)
    (h : accepts i s0 = some (tk, v, u)) (hcalm : calm u) (hh : holdsNone tk.session u) : ∃ t, exec i s0 = .next t ∧ sameButAnswered t u := by
  obtain ⟨hj, rfl⟩ := judged_of_accepts h
  obtain ⟨-, -, hq, -⟩ := judge_of_judged hp rfl hj
  obtain ⟨hsame, hnone⟩ := perform_of_reports hc v hq ((holdsNone_acting hq).1 hh)
  refine ⟨_, exec_of_judged hp rfl hj, ?_⟩
  rw [finished, hp]
  simp only [drainHeld_of_holdsNone hnone, settle_of_calm hcalm hsame]
  exact sameButAnswered_conclude _ _ hsame

/-! ### The commands that report, one by one -/

/-- TIME_READ takes a free value where no axis is the web's. -/
theorem timeRead_onlyReplies (tk : Ticket) (v : Vals) (s : State) : onlyReplies s (timeRead.act tk v s) := by
  simp only [timeRead, mkTimeRead]
  split
  next => exact onlyReplies_ok _ _
  next =>
    split
    next => exact onlyReplies_ok _ _
    next => exact ⟨s.free + 1, rfl⟩

theorem reports_of_reportsOnly {i : Instr} (h : reportsOnly i = true) : ∃ hd c, packetOf i = some (cmdPack hd c) ∧ Reports c := by
  unfold reportsOnly at h
  split at h
  case h_46 => exact absurd h Bool.false_ne_true
  case h_1 | h_2 | h_3 | h_4 | h_5 | h_6 | h_7 | h_37 | h_38 | h_39 | h_40 | h_41 | h_42 | h_44 | h_45 =>
    exact ⟨_, _, rfl, rfl, .inl rfl, fun _ _ s => onlyReplies_ok s _⟩
  case h_8 | h_9 | h_10 | h_11 | h_12 | h_14 | h_15 | h_16 | h_20 | h_22 | h_23 | h_24 | h_25 | h_27 | h_31 | h_32 | h_33 | h_34 | h_35 |
      h_36 =>
    exact ⟨_, _, rfl, rfl, .inr rfl, fun _ _ s => onlyReplies_ok s _⟩
  case h_13 hd =>
    refine ⟨_, _, rfl, rfl, .inr rfl, fun tk v s => ?_⟩
    exact timeRead_onlyReplies tk v s
  case h_17 hd p =>
    refine ⟨_, _, rfl, rfl, .inr rfl, fun tk v s => ?_⟩
    simp only [modelInfo, mkModelInfo]
    split
    next => exact onlyReplies_ok _ _
    next => exact onlyReplies_no _ _ _
  case h_18 hd p =>
    refine ⟨_, _, rfl, rfl, .inr rfl, fun tk v s => ?_⟩
    simp only [resultRead, mkResultRead]
    split
    next => exact onlyReplies_no _ _ _
    next => exact onlyReplies_ok _ _
  case h_19 hd p =>
    refine ⟨_, _, rfl, rfl, .inr rfl, fun tk v s => ?_⟩
    simp only [tileInfo, mkTileInfo]
    split
    next => exact onlyReplies_ok _ _
    next => exact onlyReplies_no _ _ _
  case h_26 hd p =>
    refine ⟨_, _, rfl, rfl, .inr rfl, fun tk v s => ?_⟩
    simp only [vcuRead, mkVcuRead]
    split
    next => exact onlyReplies_ok _ _
    next => exact onlyReplies_no _ _ _
  case h_29 hd p =>
    refine ⟨_, _, rfl, rfl, .inr rfl, fun tk v s => ?_⟩
    simp only [tbcRead, mkTbcRead]
    split
    next => exact onlyReplies_ok _ _
    next => exact onlyReplies_no _ _ _
  case h_30 hd p =>
    refine ⟨_, _, rfl, rfl, .inr rfl, fun tk v s => ?_⟩
    simp only [tbcHistoryFind, mkTbcHistoryFind]
    split
    next => exact onlyReplies_ok _ _
    next => exact onlyReplies_ok _ _
  case h_43 hd p =>
    refine ⟨_, _, rfl, rfl, .inl rfl, fun tk v s => ?_⟩
    simp only [calRead, mkCalRead]
    split
    next => exact onlyReplies_ok _ _
    next => exact onlyReplies_no _ _ _
  case h_21 hd p =>
    refine ⟨_, _, rfl, rfl, .inr rfl, fun tk v s => ?_⟩
    simp only [mrkCalRead, mkMrkCalRead]
    split
    next => exact onlyReplies_ok _ _
    next =>
      split
      next => exact onlyReplies_ok _ _
      next => exact onlyReplies_no _ _ _
  case h_28 hd p =>
    refine ⟨_, _, rfl, rfl, .inr rfl, fun tk v s => ?_⟩
    simp only [tbcJobStatus, mkTbcJobStatus]
    split
    next => exact onlyReplies_ok _ _
    next => exact onlyReplies_ok _ _
    next => exact onlyReplies_no _ _ _

/-- Settles O28: the row's own effect only replies, the answer touches what an answer may, and a calm state that holds no command stays so. -/
theorem reportsLeaveTheBlock : Obligations.ReportsLeaveTheBlock := by
  unfold Obligations.ReportsLeaveTheBlock
  intro i s0 tk v u hr h hc hh
  obtain ⟨hd, c, hp, hrep⟩ := reports_of_reportsOnly hr
  exact exec_of_reports hp hrep h hc hh

end Sys2Proof

namespace Sys2Proof

open Machine

/-! ## Device state, configuration and the apply-at queue -/

/-- A command that stores a record is answered once the record's write ends. -/
theorem storeWith_of_some {r : Nat} {w : NWait} {f : State → State} {s e : State} (h : nvsWrite r [w] (some (recHeld s r)) (f s) = some e) :
    storeWith r w f s = .later e := by
  simp only [storeWith, h]

/-- It is refused where the write finds no place in the queue. -/
theorem storeWith_of_none {r : Nat} {w : NWait} {f : State → State} {s : State} (h : nvsWrite r [w] (some (recHeld s r)) (f s) = none) :
    storeWith r w f s = .no eBusy [] := by
  simp only [storeWith, h]

theorem stored_of_act {i : Instr} {hd : Hdr} {c : Cmd} {s0 s u : State} {tk : Ticket} {v : Vals} {r : Nat} {w : NWait}
    {f : State → State}
    (hp : packetOf i = some (cmdPack hd c)) (h : accepts i s0 = some (tk, v, u)) (ha : c.act tk v u = storeWith r w f s) :
    match nvsWrite r [w] (some (recHeld s r)) (f s) with
    | some e => defers i s0 tk v e
    | none => declines i s0 tk eBusy [] := by
  split
  next e hw => exact defers_of_act hp h (ha.trans (storeWith_of_some hw))
  next hw => exact declines_of_act hp h (ha.trans (storeWith_of_none hw))

/-- Settles O30: each command's effect is its `act`; one that stores waits for the store or is busy. -/
theorem deviceStateCommandsComplete : Obligations.DeviceStateCommandsComplete := by
  unfold Obligations.DeviceStateCommandsComplete
  refine ⟨?stateQuery, ?configCommit, ?configClear, ?configSave, ?configLoad, ?configCheck, ?arm, ?disarm, ?start, ?stop, ?faultClear,
    ?sleep, ?applyCancel, ?applyList, ?netConfig⟩
  case stateQuery | configClear | configCheck | disarm => exact fun hd s0 tk v s h => answers_of_act rfl h rfl
  case configCommit =>
    intro hd s0 tk v s h
    exact ⟨fun st ps hj => declines_of_act rfl h (by simp only [configCommit, mkConfigCommit, hj]),
      fun hj => answers_of_act rfl h (by simp only [configCommit, mkConfigCommit, hj])⟩
  case configSave =>
    intro hd p0 s0 tk v s h
    exact ⟨fun hl => declines_of_act rfl h (if_pos hl), fun hl => stored_of_act rfl h (if_neg hl)⟩
  case configLoad =>
    intro hd p0 s0 tk v u h
    dsimp only
    cases hl : loadSlot (ofConfigLoad v).slot u with
    | some t => exact answers_of_act rfl h (by simp only [configLoad, mkConfigLoad, hl])
    | none => exact declines_of_act rfl h (by simp only [configLoad, mkConfigLoad, hl])
  case arm =>
    intro hd s0 tk v u h
    exact ⟨fun hb => declines_of_act rfl h (if_pos hb), fun hb =>
      ⟨fun hp => declines_of_act rfl h ((if_neg (not_not.2 hb)).trans (if_pos hp)),
        fun hp => defers_of_act rfl h ((if_neg (not_not.2 hb)).trans (if_neg hp))⟩⟩
  case start =>
    intro hd s0 tk v u h
    exact ⟨fun hb => declines_of_act rfl h (if_pos hb), fun hb => answers_of_act rfl h (if_neg (not_not.2 hb))⟩
  case stop | applyCancel | applyList => exact fun hd p0 s0 tk v s h => answers_of_act rfl h rfl
  case faultClear =>
    intro hd s0 tk v s h
    exact ⟨fun hf => answers_of_act rfl h (if_pos hf), fun hf => declines_of_act rfl h (if_neg hf)⟩
  case sleep =>
    intro hd s0 tk v s h
    exact ⟨fun hf => declines_of_act rfl h (if_pos hf), fun hf => defers_of_act rfl h (if_neg hf)⟩
  case netConfig =>
    exact fun hd p0 s0 tk v s h => stored_of_act rfl h rfl

end Sys2Proof

namespace Sys2Proof

open Machine

/-! ## Camera ports -/

section HeadAccess

variable {n : Nat} {fields : List Nat} {tk : Ticket} {s : State}

theorem headAccess_of_busy {write : Bool} (hl : (port s n).link = 2) (ha : (port s n).acc.isSome = true) :
    headAccess n write fields tk s = .no eBusy [] := (if_neg (not_not.2 hl)).trans (if_pos ha)

/-- A port that is UP with no access in progress sends the access, and has 1 ms for its echo (R138). -/
theorem headAccess_of_free {write : Bool} (hl : (port s n).link = 2) (ha : (port s n).acc = none) :
    headAccess n write fields tk s =
      .later (sendCtrl n (if write then 0x20 else 0x21) (((port s n).accTag + 1) % 256 :: fields)
        (setPort n (fun q => { q with accTag := ((port s n).accTag + 1) % 256, acc := some { tk := tk, tag := ((port s n).accTag + 1) % 256, deadline := s.now + ms } })
          (wakePort n s))) :=
  (if_neg (not_not.2 hl)).trans (if_neg (by simp [ha]))

end HeadAccess

/-- Settles O31: each command's effect is its `act`; a register access needs the port's one place. -/
theorem cameraPortCommandsComplete : Obligations.CameraPortCommandsComplete := by
  unfold Obligations.CameraPortCommandsComplete
  refine ⟨?portOpen, ?portClose, ?streamSet, ?portProbe, ?portStatus, ?portCounters, ?portCountersClear, ?lanePower, ?headRegWrite,
    ?headRegRead, ?calRun, ?calPolicy, ?eyeScan, ?latencyMeasure, ?latencyTrim, ?exposureDelay⟩
  case portOpen | portClose | streamSet | lanePower => exact fun hd p0 s0 tk v u h => answers_of_act rfl h rfl
  case portProbe =>
    intro hd p0 s0 tk v s h
    exact ⟨fun hb => declines_of_act rfl h (if_pos hb), fun hb =>
      ⟨fun hu => defers_of_act rfl h ((if_neg hb).trans (if_pos hu)), fun hu =>
        ⟨fun hg => declines_of_act rfl h ((if_neg hb).trans ((if_neg hu).trans (if_pos hg))),
          fun hg => defers_of_act rfl h ((if_neg hb).trans ((if_neg hu).trans (if_neg (not_isSome_of_isNone hg))))⟩⟩⟩
  case portStatus | portCounters | portCountersClear | calPolicy | exposureDelay => exact fun hd p0 s0 tk v s h => answers_of_act rfl h rfl
  case headRegWrite =>
    intro hd p0 s0 tk v s h
    exact ⟨fun hl => declines_of_act rfl h (if_pos hl), fun hl ha => declines_of_act rfl h (headAccess_of_busy hl ha),
      fun hl ha => defers_of_act rfl h (headAccess_of_free hl ha)⟩
  case headRegRead =>
    intro hd p0 s0 tk v s h
    exact ⟨fun hl => declines_of_act rfl h (if_pos hl), fun hl ha => declines_of_act rfl h (headAccess_of_busy hl ha),
      fun hl ha => defers_of_act rfl h (headAccess_of_free hl ha)⟩
  case calRun =>
    intro hd p0 s0 tk v s h
    exact ⟨fun hl => declines_of_act rfl h (if_pos hl), fun hl => answers_of_act rfl h (if_neg (not_not.2 hl))⟩
  case eyeScan =>
    intro hd p0 s0 tk v s h
    refine ⟨fun hl => declines_of_act rfl h (if_pos hl), fun hl => ⟨fun h0 =>
      ⟨fun hs => declines_of_act rfl h ?tooLong, fun hs => ⟨fun hb => declines_of_act rfl h ?scanning, fun hb => defers_of_act rfl h ?starts⟩⟩,
      fun h0 => ⟨fun xs hx => answers_of_act rfl h ?kept, fun hx => declines_of_act rfl h ?none⟩⟩⟩
    case tooLong => exact (if_neg (not_not.2 hl)).trans ((if_pos h0).trans (if_pos hs))
    case scanning => exact (if_neg (not_not.2 hl)).trans ((if_pos h0).trans ((if_neg hs).trans (if_pos hb)))
    case starts => exact (if_neg (not_not.2 hl)).trans ((if_pos h0).trans ((if_neg hs).trans (if_neg (not_isSome_of_isNone hb))))
    all_goals simp only [eyeScan, mkEyeScan, if_neg (not_not.2 hl), if_neg h0, hx]
  case latencyMeasure =>
    intro hd p0 s0 tk v s h
    exact ⟨fun hl => declines_of_act rfl h (if_pos hl), fun hl =>
      ⟨fun he => declines_of_act rfl h ((if_neg (not_not.2 hl)).trans (if_pos he)),
        fun he => defers_of_act rfl h ((if_neg (not_not.2 hl)).trans (if_neg (not_isSome_of_isNone he)))⟩⟩
  case latencyTrim =>
    intro hd p0 s0 tk v u h
    exact ⟨fun ht => answers_of_act rfl h (if_pos ht), fun ht => defers_of_act rfl h (if_neg ht)⟩

/-! ## The front end -/

/-- Settles O32: each command's effect is its `act`, branch by branch. -/
theorem frontEndCommandsComplete : Obligations.FrontEndCommandsComplete := by
  unfold Obligations.FrontEndCommandsComplete
  refine ⟨?feGeometry, ?feStreamMap, ?feSeam, ?feKernel, ?feCoefLoad, ?feBankSelect, ?feShading, ?feSettingLatency, ?feMetaKey, ?feStatus,
    ?feCapture, ?feCountersClear⟩
  case feGeometry | feStreamMap | feSeam | feKernel | feSettingLatency | feMetaKey | feStatus =>
    exact fun hd p0 s0 tk v s h => answers_of_act rfl h rfl
  case feCoefLoad =>
    intro hd p0 s0 tk v s h
    exact ⟨fun hb => declines_of_act rfl h (if_pos hb), fun hb => answers_of_act rfl h (if_neg hb)⟩
  case feBankSelect | feShading => exact fun hd p0 s0 tk v u h => answers_of_act rfl h rfl
  case feCapture =>
    intro hd p0 s0 tk v u h
    refine ⟨fun h0 => ⟨fun hs => declines_of_act rfl h ((if_pos h0).trans (if_pos hs)),
      fun hs => defers_of_act rfl h ((if_pos h0).trans (if_neg hs))⟩, fun h0 => ?_⟩
    split
    next hc => exact answers_of_act rfl h (by simp only [feCapture, mkFeCapture, if_neg h0, hc])
    next hc => exact declines_of_act rfl h (by simp only [feCapture, mkFeCapture, if_neg h0])
  case feCountersClear => exact fun hd s0 tk v s h => answers_of_act rfl h rfl

/-! ## Encoders, generators, compares and latches -/

/-- Settles O33: each command's effect is its `act`, branch by branch. -/
theorem positionCommandsComplete : Obligations.PositionCommandsComplete := by
  unfold Obligations.PositionCommandsComplete
  refine ⟨?encConfig, ?observerSet, ?posOrigin, ?ltgConfig, ?ltgEnable, ?cmpConfig, ?cmpListLoad, ?cmpEnable, ?latchConfig, ?latchRead,
    ?posStatus, ?posCountersClear⟩
  case encConfig | observerSet | ltgConfig | cmpConfig | latchConfig | latchRead | posStatus =>
    exact fun hd p0 s0 tk v s h => answers_of_act rfl h rfl
  case posOrigin =>
    intro hd p0 s0 tk v s h
    exact ⟨fun hr => declines_of_act rfl h (if_pos hr), fun hr =>
      ⟨fun hm => answers_of_act rfl h ((if_neg (not_not.2 hr)).trans (if_pos hm)),
        fun hm => answers_of_act rfl h ((if_neg (not_not.2 hr)).trans (if_neg hm))⟩⟩
  case ltgEnable | cmpEnable => exact fun hd p0 s0 tk v u h => answers_of_act rfl h rfl
  case cmpListLoad =>
    intro hd p0 s0 tk v u h
    refine ⟨fun hc => declines_of_act rfl h ?_, fun c hc => ⟨fun ho => declines_of_act rfl h ?_, fun ho => answers_of_act rfl h ?_⟩⟩
    · simp only [cmpListLoad, mkCmpListLoad, hc]
    · simp only [cmpListLoad, mkCmpListLoad, hc, if_pos ho]
    · simp only [cmpListLoad, mkCmpListLoad, hc, if_neg ho]
  case posCountersClear => exact fun hd s0 tk v s h => answers_of_act rfl h rfl

/-! ## The time unit -/

/-- Settles O34: each command's effect is its `act`, branch by branch. -/
theorem timeCommandsComplete : Obligations.TimeCommandsComplete := by
  unfold Obligations.TimeCommandsComplete
  refine ⟨?timeSource, ?timeSet, ?timeRelearn, ?timeStatus, ?ptpConfig, ?ppsConfig, ?ttrConfig, ?tcpConfig, ?tcpRead, ?timeRead⟩
  case timeSource => exact fun hd p0 s0 tk v u h => answers_of_act rfl h rfl
  case timeSet =>
    intro hd p0 s0 tk v s h
    exact ⟨fun hb => declines_of_act rfl h (if_pos hb), fun hb =>
      ⟨fun hp => answers_of_act rfl h ((if_neg hb).trans (if_pos hp)), fun hp => answers_of_act rfl h ((if_neg hb).trans (if_neg hp))⟩⟩
  case timeRelearn => exact fun hd s0 tk v u h => answers_of_act rfl h rfl
  case timeStatus | timeRead => exact fun hd s0 tk v s h => answers_of_act rfl h rfl
  case ptpConfig | ppsConfig | ttrConfig | tcpConfig => exact fun hd p0 s0 tk v s h => answers_of_act rfl h rfl
  case tcpRead =>
    intro hd p0 s0 tk v s h
    exact ⟨fun hx => answers_of_act rfl h (by simp only [tcpRead, mkTcpRead, hx]),
      fun x hx => answers_of_act rfl h (by simp only [tcpRead, mkTcpRead, hx])⟩

/-! ## Graphs and the Electrum array -/

/-- Settles O35: each command's effect is its `act`, branch by branch. -/
theorem graphCommandsComplete : Obligations.GraphCommandsComplete := by
  unfold Obligations.GraphCommandsComplete
  refine ⟨?graphNode, ?graphClear, ?gradeRules, ?markTable, ?graphSelect, ?graphParam, ?verifyGraph, ?graphBudget, ?graphCost, ?elxStatus,
    ?elxCountersClear, ?elxGating⟩
  case graphNode | graphClear | gradeRules | markTable | graphParam | verifyGraph | graphBudget | graphCost | elxStatus | elxGating =>
    exact fun hd p0 s0 tk v s h => answers_of_act rfl h rfl
  case graphSelect => exact fun hd p0 s0 tk v u h => answers_of_act rfl h rfl
  case elxCountersClear => exact fun hd s0 tk v s h => answers_of_act rfl h rfl

/-! ## Classifier models -/

/-- Settles O36: each command's effect is its `act`, branch by branch. -/
theorem modelCommandsComplete : Obligations.ModelCommandsComplete := by
  unfold Obligations.ModelCommandsComplete
  refine ⟨?modelStage, ?modelWrite, ?modelCommit, ?modelAbort, ?modelUnload, ?modelSwap, ?modelList, ?modelInfo, ?modelTest⟩
  case modelStage =>
    intro hd p0 s0 tk v s h
    exact ⟨fun hn => declines_of_act rfl h (if_pos hn), fun hn =>
      ⟨fun hf => declines_of_act rfl h ((if_neg hn).trans (if_pos hf)), fun hf => answers_of_act rfl h ((if_neg hn).trans (if_neg hf))⟩⟩
  case modelWrite | modelAbort | modelSwap | modelList => exact fun hd p0 s0 tk v s h => answers_of_act rfl h rfl
  case modelCommit =>
    intro hd p0 s0 tk v u h
    refine ⟨fun hs => declines_of_act rfl h ?absent, fun st hs => ⟨fun o r l hk => declines_of_act rfl h ?malformed, fun hk =>
      ⟨fun hf => declines_of_act rfl h ?full, fun hf => answers_of_act rfl h ?loaded⟩⟩⟩
    case absent => simp only [modelCommit, mkModelCommit, hs]
    case malformed => simp only [modelCommit, mkModelCommit, hs, hk]
    case full => simp only [modelCommit, mkModelCommit, hs, hk, if_pos hf]
    case loaded => simp only [modelCommit, mkModelCommit, hs, hk, if_neg hf]
  case modelUnload =>
    intro hd p0 s0 tk v s h
    exact ⟨fun hn => declines_of_act rfl h (if_pos hn), fun hn => answers_of_act rfl h (if_neg hn)⟩
  case modelInfo =>
    intro hd p0 s0 tk v s h
    exact ⟨fun m hm => answers_of_act rfl h (by simp only [modelInfo, mkModelInfo, hm]),
      fun hm => declines_of_act rfl h (by simp only [modelInfo, mkModelInfo, hm])⟩
  case modelTest =>
    intro hd p0 s0 tk v s h
    exact ⟨fun hm => declines_of_act rfl h (by simp only [modelTest, mkModelTest, hm]),
      fun m hm => answers_of_act rfl h (by simp only [modelTest, mkModelTest, hm])⟩

/-! ## Result queues, subscriptions and tiles -/

/-- Settles O37: each command's effect is its `act`, branch by branch. -/
theorem resultCommandsComplete : Obligations.ResultCommandsComplete := by
  unfold Obligations.ResultCommandsComplete
  refine ⟨?resultQueueConfig, ?tilePoolConfig, ?resultSubscribe, ?resultUnsubscribe, ?resultRead, ?resultAdvance, ?resultStatus, ?tileInfo,
    ?tileFetch, ?resCountersClear⟩
  case resultQueueConfig | tilePoolConfig | resultUnsubscribe | resultStatus => exact fun hd p0 s0 tk v s h => answers_of_act rfl h rfl
  case resultSubscribe =>
    intro hd p0 s0 tk v u h
    exact ⟨fun hs => declines_of_act rfl h (if_pos hs), fun hs => ⟨fun hm => declines_of_act rfl h
        ((if_neg (not_isSome_of_isNone hs)).trans (if_pos hm)), fun hm =>
      ⟨fun hf => declines_of_act rfl h ((if_neg (not_isSome_of_isNone hs)).trans ((if_neg hm).trans (if_pos hf))),
        fun hf => answers_of_act rfl h ((if_neg (not_isSome_of_isNone hs)).trans ((if_neg hm).trans (if_neg hf)))⟩⟩⟩
  case resultRead =>
    intro hd p0 s0 tk v s h
    exact ⟨fun hx => declines_of_act rfl h (by simp only [resultRead, mkResultRead, hx]),
      fun x hx => answers_of_act rfl h (by simp only [resultRead, mkResultRead, hx])⟩
  case resultAdvance =>
    intro hd p0 s0 tk v s h
    refine ⟨fun hx => declines_of_act rfl h ?_, fun x hx => ⟨fun hn => declines_of_act rfl h ?_, fun hn => answers_of_act rfl h ?_⟩⟩
    · simp only [resultAdvance, mkResultAdvance, hx]
    · simp only [resultAdvance, mkResultAdvance, hx, if_pos hn]
    · simp only [resultAdvance, mkResultAdvance, hx, if_neg hn]
  case tileInfo =>
    intro hd p0 s0 tk v s h
    exact ⟨fun t ht => answers_of_act rfl h (by simp only [tileInfo, mkTileInfo, ht]),
      fun ht => declines_of_act rfl h (by simp only [tileInfo, mkTileInfo, ht])⟩
  case tileFetch =>
    intro hd p0 s0 tk v s h
    refine ⟨fun t ht => ⟨fun hl => declines_of_act rfl h ?_, fun hl => answers_of_act rfl h ?_⟩, fun ht => declines_of_act rfl h ?_⟩
    · simp only [tileFetch, mkTileFetch, ht, if_pos hl]
    · simp only [tileFetch, mkTileFetch, ht, if_neg hl]
    · simp only [tileFetch, mkTileFetch, ht]
  case resCountersClear => exact fun hd s0 tk v s h => answers_of_act rfl h rfl

end Sys2Proof

namespace Sys2Proof

open Machine

theorem dmcLayout_act (p0 : PDmcLayout) (tk : Ticket) (v : Vals) (s : State) :
    let p := ofDmcLayout v
    (dmcLayout p0).act tk v s = storeWith recSet { tk := tk, ps := [u32 (nextMib p.mask s)] } (fun s => setDmc (fun d => { d with pending := true })
      (setNvs (fun v => { v with set := { v.set with grain := p.grain, mask := p.mask, rate := p.rate } }) s)) s := rfl

theorem envelopeSet_act (p0 : PEnvelopeSet) (tk : Ticket) (v : Vals) (s : State) :
    let p := ofEnvelopeSet v
    (envelopeSet p0).act tk v s = storeWith recSet { tk := tk, next := 1 } (fun s => envelopeChanged
      (setNvs (fun v => { v with set := { v.set with env := p.env, goal := p.goal, watts := p.watts } }) s)) s := rfl

/-! ## Marking heads -/

/-- Settles O38: each command's effect is its `act`; a saved calibration waits for the store. -/
theorem markingCommandsComplete : Obligations.MarkingCommandsComplete := by
  unfold Obligations.MarkingCommandsComplete
  refine ⟨?mrkHeadConfig, ?mrkRemapLoad, ?mrkPreheat, ?mrkThermal, ?mrkStyle, ?mrkLineMode, ?mrkHeadMode, ?mrkOverlap, ?mrkServicePattern,
    ?mrkServiceFire, ?mrkVerifyGeometry, ?mrkTestPrint, ?mrkDotRead, ?mrkCalRead, ?mrkCalSet, ?mrkCalAccept, ?mrkCalSave, ?mrkStatus,
    ?mrkMissRead, ?mrkCountersClear⟩
  case mrkHeadConfig | mrkRemapLoad | mrkPreheat | mrkThermal | mrkStyle | mrkLineMode | mrkOverlap | mrkServicePattern |
      mrkVerifyGeometry | mrkDotRead | mrkCalSet | mrkStatus | mrkMissRead =>
    exact fun hd p0 s0 tk v s h => answers_of_act rfl h rfl
  case mrkHeadMode => exact fun hd p0 s0 tk v u h => answers_of_act rfl h rfl
  case mrkServiceFire =>
    intro hd p0 s0 tk v s h
    exact ⟨fun hm => declines_of_act rfl h (if_pos hm), fun hm => answers_of_act rfl h (if_neg (not_not.2 hm))⟩
  case mrkTestPrint =>
    intro hd p0 s0 tk v s h
    exact ⟨fun hm => declines_of_act rfl h (if_pos hm), fun hm => answers_of_act rfl h (if_neg (not_bnot_of_true hm))⟩
  case mrkCalRead =>
    intro hd p0 s0 tk v s h
    exact ⟨fun hw => answers_of_act rfl h (if_pos hw), fun hw =>
      ⟨fun b hb => answers_of_act rfl h (by simp only [mrkCalRead, mkMrkCalRead, if_neg hw, hb]),
        fun hb => declines_of_act rfl h (by simp only [mrkCalRead, mkMrkCalRead, if_neg hw, hb])⟩⟩
  case mrkCalAccept =>
    intro hd p0 s0 tk v s h
    exact ⟨fun b hb => answers_of_act rfl h (by simp only [mrkCalAccept, mkMrkCalAccept, hb]),
      fun hb => declines_of_act rfl h (by simp only [mrkCalAccept, mkMrkCalAccept, hb])⟩
  case mrkCalSave =>
    intro hd p0 s0 tk v s h
    exact ⟨fun hl => declines_of_act rfl h (if_pos hl), fun hl => stored_of_act rfl h (if_neg (not_lt.2 hl))⟩
  case mrkCountersClear => exact fun hd s0 tk v s h => answers_of_act rfl h rfl

/-! ## Area capture and colour -/

/-- Settles O39: no command of the family branches, so each `act` is the effect as it stands. -/
theorem colourCommandsComplete : Obligations.ColourCommandsComplete := by
  unfold Obligations.ColourCommandsComplete
  refine ⟨?areaStream, ?clpBlack, ?clpDefectLoad, ?clpColour, ?clpLutLoad, ?clpBankSelect, ?headConfig, ?headKernel, ?headCurve,
    ?st2110Config, ?st2110Sdp, ?hostRing, ?liveView, ?clpStatus, ?clpCountersClear⟩
  case areaStream | clpBlack | clpDefectLoad | clpColour | clpLutLoad | clpBankSelect | headConfig | headKernel | headCurve |
      st2110Config | st2110Sdp | hostRing | liveView | clpStatus =>
    exact fun hd p0 s0 tk v s h => answers_of_act rfl h rfl
  case clpCountersClear => exact fun hd s0 tk v s h => answers_of_act rfl h rfl

/-! ## The HEVC codec -/

/-- Settles O40: each command's effect is its `act`, by the context it names. -/
theorem videoCommandsComplete : Obligations.VideoCommandsComplete := by
  unfold Obligations.VideoCommandsComplete
  refine ⟨?vcuContext, ?vcuCoding, ?vcuRate, ?vcuOutput, ?vcuForceIrap, ?vcuEncSubmit, ?vcuDecWrite, ?vcuRead, ?vcuStatus,
    ?vcuCountersClear⟩
  case vcuContext | vcuCoding | vcuRate | vcuOutput | vcuForceIrap | vcuStatus => exact fun hd p0 s0 tk v s h => answers_of_act rfl h rfl
  case vcuEncSubmit =>
    intro hd p0 s0 tk v s h
    refine ⟨fun c hc => ⟨fun hk => declines_of_act rfl h ?_, fun hk => ⟨fun hr => answers_of_act rfl h ?_, fun hr => declines_of_act rfl h ?_⟩⟩,
      fun hc => declines_of_act rfl h ?_⟩
    · simp only [vcuEncSubmit, mkVcuEncSubmit, hc, if_pos hk]
    · simp only [vcuEncSubmit, mkVcuEncSubmit, hc, if_neg (not_not.2 hk), if_pos hr]
    · simp only [vcuEncSubmit, mkVcuEncSubmit, hc, if_neg (not_not.2 hk), if_neg hr]
    · simp only [vcuEncSubmit, mkVcuEncSubmit, hc]
  case vcuDecWrite =>
    intro hd p0 s0 tk v u h
    refine ⟨fun c hc => ⟨fun hk => declines_of_act rfl h ?_, fun hk => ⟨fun hf => declines_of_act rfl h ?_, fun hf => answers_of_act rfl h ?_⟩⟩,
      fun hc => declines_of_act rfl h ?_⟩
    · simp only [vcuDecWrite, mkVcuDecWrite, hc, if_pos hk]
    · simp only [vcuDecWrite, mkVcuDecWrite, hc, if_neg (not_not.2 hk), if_pos hf]
    · simp only [vcuDecWrite, mkVcuDecWrite, hc, if_neg (not_not.2 hk), if_neg hf]
    · simp only [vcuDecWrite, mkVcuDecWrite, hc]
  case vcuRead =>
    intro hd p0 s0 tk v s h
    exact ⟨fun bs hb => answers_of_act rfl h (by simp only [vcuRead, mkVcuRead, hb]),
      fun hb => declines_of_act rfl h (by simp only [vcuRead, mkVcuRead, hb])⟩
  case vcuCountersClear => exact fun hd s0 tk v s h => answers_of_act rfl h rfl

/-! ## Tombac compression -/

/-- Settles O41: each command's effect is its `act`, by the job or the source it names. -/
theorem tombacCommandsComplete : Obligations.TombacCommandsComplete := by
  unfold Obligations.TombacCommandsComplete
  refine ⟨?tbcTileCoding, ?tbcHeadOutput, ?tbcHistory, ?tbcPoolConfig, ?tbcBufWrite, ?tbcBufRead, ?tbcJobSubmit, ?tbcJobStatus,
    ?tbcJobCancel, ?tbcRead, ?tbcHistoryFind, ?tbcStatus, ?tbcCountersClear⟩
  case tbcTileCoding | tbcHeadOutput | tbcHistory | tbcPoolConfig => exact fun hd p0 s0 tk v s h => answers_of_act rfl h rfl
  case tbcBufWrite =>
    intro hd p0 s0 tk v s h
    exact ⟨fun hb => declines_of_act rfl h (if_pos hb), fun hb => answers_of_act rfl h (if_neg hb)⟩
  case tbcBufRead =>
    intro hd p0 s0 tk v s h
    exact ⟨fun hb => declines_of_act rfl h (if_pos hb), fun hb =>
      ⟨fun hr => defers_of_act rfl h ((if_neg hb).trans (if_pos hr)), fun hr => answers_of_act rfl h ((if_neg hb).trans (if_neg hr))⟩⟩
  case tbcJobSubmit =>
    intro hd p0 s0 tk v u h
    exact ⟨fun hj => declines_of_act rfl h (if_pos hj), fun hj =>
      ⟨fun hf => declines_of_act rfl h ((if_neg (not_bnot_of_true hj)).trans (if_pos hf)),
        fun hf => answers_of_act rfl h ((if_neg (not_bnot_of_true hj)).trans (if_neg hf))⟩⟩
  case tbcJobStatus =>
    intro hd p0 s0 tk v s h
    dsimp only
    cases hj : s.tbc.jobs.findIdx? (fun j => j.id == (ofTbcJobStatus v).job) with
    | some i => exact answers_of_act rfl h (by simp only [tbcJobStatus, mkTbcJobStatus, hj])
    | none =>
      cases hd : s.tbc.dones.find? (fun d => d.id == (ofTbcJobStatus v).job) with
      | some d => exact answers_of_act rfl h (by simp only [tbcJobStatus, mkTbcJobStatus, hj, hd])
      | none => exact declines_of_act rfl h (by simp only [tbcJobStatus, mkTbcJobStatus, hj, hd])
  case tbcJobCancel =>
    intro hd p0 s0 tk v s h
    refine ⟨fun hj => ⟨fun hd => answers_of_act rfl h ?_, fun hd => declines_of_act rfl h ?_⟩, fun i hi =>
      ⟨fun hj => declines_of_act rfl h ?_, fun j hj => ⟨fun hb => answers_of_act rfl h ?_, fun hb => answers_of_act rfl h ?_⟩⟩⟩
    · simp only [tbcJobCancel, mkTbcJobCancel, hj, if_pos hd]
    · simp only [tbcJobCancel, mkTbcJobCancel, hj, if_neg hd]
    · simp only [tbcJobCancel, mkTbcJobCancel, hi, hj]
    · simp only [tbcJobCancel, mkTbcJobCancel, hi, hj, if_pos hb]
    · simp only [tbcJobCancel, mkTbcJobCancel, hi, hj, if_neg hb]
  case tbcRead =>
    intro hd p0 s0 tk v s h
    exact ⟨fun bs hb => answers_of_act rfl h (by simp only [tbcRead, mkTbcRead, hb]),
      fun hb => declines_of_act rfl h (by simp only [tbcRead, mkTbcRead, hb])⟩
  case tbcHistoryFind =>
    intro hd p0 s0 tk v s h
    dsimp only
    split
    next r hr => exact answers_of_act rfl h (by simp only [tbcHistoryFind, mkTbcHistoryFind, hr])
    next hr => exact answers_of_act rfl h (by simp only [tbcHistoryFind, mkTbcHistoryFind, hr])
  case tbcStatus | tbcCountersClear => exact fun hd s0 tk v s h => answers_of_act rfl h rfl

/-! ## The event router -/

/-- Settles O42: each command's effect is its `act`; only EVR_CHANNEL can be refused. -/
theorem eventRouterCommandsComplete : Obligations.EventRouterCommandsComplete := by
  unfold Obligations.EventRouterCommandsComplete
  refine ⟨?evrChannel, ?evrEnable, ?evrTaskMode, ?evrDivider, ?evrFire, ?evrStatus, ?evrTaskStatus, ?evrTaskClear, ?evrCountersClear⟩
  case evrChannel =>
    intro hd p0 s0 tk v s h
    exact ⟨fun xs hx => declines_of_act rfl h (by simp only [evrChannel, mkEvrChannel, hx]),
      fun hx => answers_of_act rfl h (by simp only [evrChannel, mkEvrChannel, hx])⟩
  case evrEnable | evrDivider | evrFire | evrStatus | evrTaskStatus | evrTaskClear =>
    exact fun hd p0 s0 tk v s h => answers_of_act rfl h rfl
  case evrTaskMode => exact fun hd p0 s0 tk v u h => answers_of_act rfl h rfl
  case evrCountersClear => exact fun hd s0 tk v s h => answers_of_act rfl h rfl

/-! ## DRAM and DMA -/

/-- Settles O43: each command's effect is its `act`; the layout is stored first. -/
theorem dramAndDmaCommandsComplete : Obligations.DramAndDmaCommandsComplete := by
  unfold Obligations.DramAndDmaCommandsComplete
  refine ⟨?dmcLayout, ?dmcPolicy, ?dmcUserRegion, ?dmcRetrain, ?dmcStatus, ?dmcEccLog, ?dmcCountersClear, ?dmaChannel, ?dmaStart,
    ?dmaResume, ?dmaAbort, ?dmaStatus, ?dmaBufWrite, ?dmaBufRead, ?dmaCountersClear⟩
  case dmcLayout =>
    intro hd p0 s0 tk v s h
    have key := stored_of_act rfl h (dmcLayout_act p0 tk v s)
    exact key
  case dmcPolicy => exact fun hd p0 s0 tk v u h => answers_of_act rfl h rfl
  case dmcUserRegion | dmcStatus | dmcEccLog | dmaStatus | dmaBufWrite => exact fun hd p0 s0 tk v s h => answers_of_act rfl h rfl
  case dmcRetrain =>
    intro hd p0 s0 tk v s h
    exact ⟨fun hr => declines_of_act rfl h (if_pos hr), fun hr => answers_of_act rfl h (if_neg hr)⟩
  case dmcCountersClear | dmaCountersClear => exact fun hd s0 tk v s h => answers_of_act rfl h rfl
  case dmaChannel =>
    intro hd p0 s0 tk v s h
    exact ⟨fun hi => declines_of_act rfl h (if_pos hi), fun hi => answers_of_act rfl h (if_neg (not_not.2 hi))⟩
  case dmaStart =>
    intro hd p0 s0 tk v s h
    exact ⟨fun hn => declines_of_act rfl h (if_pos hn), fun hn =>
      ⟨fun hb => declines_of_act rfl h ((if_neg (not_isNone_of_isSome hn)).trans (if_pos hb)),
        fun hb => answers_of_act rfl h ((if_neg (not_isNone_of_isSome hn)).trans (if_neg hb))⟩⟩
  case dmaResume =>
    intro hd p0 s0 tk v u h
    refine ⟨fun hs => declines_of_act rfl h (if_pos hs), fun hs => ⟨fun hd => answers_of_act rfl h ?_, fun d hd => answers_of_act rfl h ?_⟩⟩
    · simp only [dmaResume, mkDmaResume, if_neg (not_not.2 hs), hd]
    · simp only [dmaResume, mkDmaResume, if_neg (not_not.2 hs), hd] <;> rfl
  case dmaAbort =>
    intro hd p0 s0 tk v s h
    exact ⟨fun h0 => answers_of_act rfl h (if_pos h0), fun h0 =>
      ⟨fun hr => answers_of_act rfl h ((if_neg h0).trans (if_pos hr)), fun hr => answers_of_act rfl h ((if_neg h0).trans (if_neg hr))⟩⟩
  case dmaBufRead =>
    intro hd p0 s0 tk v s h
    exact ⟨fun hr => defers_of_act rfl h (if_pos hr), fun hr => answers_of_act rfl h (if_neg hr)⟩

/-! ## Envelopes, monitors and margins -/

/-- Settles O44: each command's effect is its `act`; the envelope and the policy are stored first. -/
theorem healthCommandsComplete : Obligations.HealthCommandsComplete := by
  unfold Obligations.HealthCommandsComplete
  refine ⟨?envelopeSet, ?planRun, ?monStatus, ?thermalConfig, ?marginConfig, ?telemetryConfig, ?telemetryRead, ?calStatus, ?faultPolicy,
    ?errlogRead, ?monCountersClear⟩
  case envelopeSet =>
    intro hd p0 s0 tk v s h
    have key := stored_of_act rfl h (envelopeSet_act p0 tk v s)
    exact key
  case planRun =>
    intro hd s0 tk v s h
    exact ⟨fun hm => defers_of_act rfl h (if_pos hm), fun hm => answers_of_act rfl h (if_neg hm)⟩
  case monStatus | monCountersClear => exact fun hd s0 tk v s h => answers_of_act rfl h rfl
  case thermalConfig | marginConfig | telemetryConfig | telemetryRead | calStatus | errlogRead =>
    exact fun hd p0 s0 tk v s h => answers_of_act rfl h rfl
  case faultPolicy =>
    exact fun hd p0 s0 tk v s h => stored_of_act rfl h rfl

/-! ## Firmware update and the stores -/

/-- Settles O45: each command's effect is its `act`; what is stored waits for the flash or is busy. -/
theorem storeCommandsComplete : Obligations.StoreCommandsComplete := by
  unfold Obligations.StoreCommandsComplete
  refine ⟨?fwStageBegin, ?fwStageWrite, ?fwStageEnd, ?fwStageAbort, ?fwStatus, ?fwConfirm, ?fwPolicy, ?fwRollback, ?efuseRead,
    ?efuseSecverAdvance, ?efuseKeyRevoke, ?calWrite, ?calRead, ?calList, ?calErase, ?settingsSave, ?storeStatus⟩
  case fwStageBegin =>
    intro hd p0 s0 tk v u h
    exact ⟨fun hf => declines_of_act rfl h (if_pos hf), fun hf => ⟨fun ht => declines_of_act rfl h
        ((if_neg (not_bnot_of_true hf)).trans (if_pos ht)), fun ht =>
      ⟨fun hq => declines_of_act rfl h ((if_neg (not_bnot_of_true hf)).trans ((if_neg ht).trans (if_pos hq))),
        fun hq => defers_of_act rfl h ((if_neg (not_bnot_of_true hf)).trans ((if_neg ht).trans (if_neg (not_le.2 hq))))⟩⟩⟩
  case fwStageWrite =>
    intro hd p0 s0 tk v s h
    refine ⟨fun hn => declines_of_act rfl h ?_, fun n hn => ⟨fun hl => declines_of_act rfl h ?_, fun hl =>
      ⟨fun hq => declines_of_act rfl h ?_, fun hq => defers_of_act rfl h ?_⟩⟩⟩
    · simp only [fwStageWrite, mkFwStageWrite, hn]
    · simp only [fwStageWrite, mkFwStageWrite, hn, if_pos hl]
    · simp only [fwStageWrite, mkFwStageWrite, hn, if_neg hl, stageLater, if_pos hq]
    · simp only [fwStageWrite, mkFwStageWrite, hn, if_neg hl, stageLater, if_neg (not_le.2 hq)]
  case fwStageEnd =>
    intro hd s0 tk v s h
    refine ⟨fun hn => declines_of_act rfl h (if_pos hn), fun hn => ⟨fun hs => defers_of_act rfl h
      ((if_neg (not_isNone_of_isSome hn)).trans (if_pos hs)), fun hs => ?_⟩⟩
    have hact : fwStageEnd.act tk v s = stageEnd tk s := (if_neg (not_isNone_of_isSome hn)).trans (if_neg (not_bnot_of_true hs))
    exact ⟨fun hk => declines_of_act rfl h (hact.trans (if_pos hk)), fun hk => stored_of_act rfl h (hact.trans (if_neg (not_not.2 hk)))⟩
  case fwStageAbort =>
    intro hd s0 tk v s h
    exact ⟨fun hf => declines_of_act rfl h (if_pos hf), fun hf =>
      ⟨fun hs => defers_of_act rfl h ((if_neg (not_isSome_of_isNone hf)).trans (if_pos hs)),
        fun hs => answers_of_act rfl h ((if_neg (not_isSome_of_isNone hf)).trans (if_neg (not_bnot_of_true hs)))⟩⟩
  case fwStatus | fwConfirm | storeStatus => exact fun hd s0 tk v s h => answers_of_act rfl h rfl
  case fwPolicy =>
    exact fun hd p0 s0 tk v s h => stored_of_act rfl h rfl
  case fwRollback =>
    intro hd s0 tk v s h
    exact ⟨fun ht => declines_of_act rfl h (if_pos ht), fun ht =>
      ⟨fun hk => declines_of_act rfl h ((if_neg ht).trans (if_pos hk)),
        fun hk => stored_of_act rfl h ((if_neg ht).trans (if_neg (not_not.2 hk)))⟩⟩
  case efuseRead | calList => exact fun hd p0 s0 tk v s h => answers_of_act rfl h rfl
  case efuseSecverAdvance =>
    intro hd s0 tk v s h
    exact ⟨fun ht => declines_of_act rfl h (if_pos ht), fun ht =>
      ⟨fun he => answers_of_act rfl h ((if_neg ht).trans (if_pos he)), fun he => defers_of_act rfl h ((if_neg ht).trans (if_neg he))⟩⟩
  case efuseKeyRevoke =>
    intro hd p0 s0 tk v s h
    exact ⟨fun ht => declines_of_act rfl h (if_pos ht), fun ht =>
      ⟨fun he => answers_of_act rfl h ((if_neg ht).trans (if_pos he)), fun he => defers_of_act rfl h ((if_neg ht).trans (if_neg he))⟩⟩
  case calWrite =>
    intro hd p0 s0 tk v s h
    exact ⟨fun h3 => ⟨fun hl => declines_of_act rfl h ((if_pos h3).trans (if_pos hl)),
        fun hl => stored_of_act rfl h ((if_pos h3).trans (if_neg (not_lt.2 hl)))⟩,
      fun h3 => ⟨fun hl => declines_of_act rfl h ((if_neg h3).trans (if_pos hl)),
        fun hl => stored_of_act rfl h ((if_neg h3).trans (if_neg (not_lt.2 hl)))⟩⟩
  case calRead =>
    intro hd p0 s0 tk v s h
    exact ⟨fun r hr => answers_of_act rfl h (by simp only [calRead, mkCalRead, hr]),
      fun hr => declines_of_act rfl h (by simp only [calRead, mkCalRead, hr])⟩
  case calErase =>
    intro hd p0 s0 tk v s h
    exact ⟨fun hn => declines_of_act rfl h (if_pos hn), fun hn =>
      ⟨fun hl => declines_of_act rfl h ((if_neg (not_isNone_of_isSome hn)).trans (if_pos hl)),
        fun hl => stored_of_act rfl h ((if_neg (not_isNone_of_isSome hn)).trans (if_neg (not_lt.2 hl)))⟩⟩
  case settingsSave =>
    exact fun hd p0 s0 tk v s h => stored_of_act rfl h rfl

/-! ## The register window and diagnosis -/

/-- Settles O46: each command's effect is its `act`, branch by branch. -/
theorem diagnosisCommandsComplete : Obligations.DiagnosisCommandsComplete := by
  unfold Obligations.DiagnosisCommandsComplete
  refine ⟨?regRead, ?regWrite, ?diagReset, ?diagInject⟩
  case regRead | diagReset => exact fun hd p0 s0 tk v s h => answers_of_act rfl h rfl
  case regWrite => exact fun hd p0 s0 tk v u h => answers_of_act rfl h rfl
  case diagInject =>
    intro hd p0 s0 tk v s h
    exact ⟨fun hk => answers_of_act rfl h (if_pos hk), fun hk =>
      ⟨fun h2 => answers_of_act rfl h ((if_neg hk).trans (if_pos h2)), fun h2 => answers_of_act rfl h ((if_neg hk).trans (if_neg h2))⟩⟩

end Sys2Proof

namespace Sys2Proof

open Machine

/-! ## A row whose effect branches -/

section
variable {i : Instr} {t : Nat} {s a b : State} {P Q : Prop}

/-- What follows from the effect of a row that tests a condition, with the condition and without. -/
theorem becomes_branch {c : Prop} [Decidable c] (h : becomes i t s (if c then a else b)) (ha : becomes i t s a → P) (hb : becomes i t s b → Q) :
    (c → P) ∧ (¬ c → Q) :=
  ⟨fun hc => ha (by rwa [if_pos hc] at h), fun hc => hb (by rwa [if_neg hc] at h)⟩

theorem becomes_branch_not {c : Prop} [Decidable c] [Decidable (¬ c)] (h : becomes i t s (if ¬ c then a else b)) (ha : becomes i t s a → P)
    (hb : becomes i t s b → Q) : (¬ c → P) ∧ (c → Q) :=
  ⟨(becomes_branch h ha hb).1, fun hc => (becomes_branch h ha hb).2 (not_not.2 hc)⟩

theorem becomes_branch_bnot {c : Bool} (h : becomes i t s (if (! c) = true then a else b)) (ha : becomes i t s a → P) (hb : becomes i t s b → Q) :
    ((! c) = true → P) ∧ (c = true → Q) :=
  ⟨(becomes_branch h ha hb).1, fun hc => (becomes_branch h ha hb).2 (not_bnot_of_true hc)⟩

theorem becomes_ite {c : Prop} [Decidable c] (h : becomes i t s (if c then a else b)) : (c → becomes i t s a) ∧ (¬ c → becomes i t s b) :=
  becomes_branch h id id

theorem becomes_bnot {c : Bool} (h : becomes i t s (if (! c) = true then a else b)) :
    ((! c) = true → becomes i t s a) ∧ (c = true → becomes i t s b) := becomes_branch_bnot h id id

end

end Sys2Proof

namespace Sys2Proof

open Machine

/-! ## The engine array -/

/-- Settles O47: the row's effect, by what stands at the front of the cluster's queues. -/
theorem arrayEventsComplete : Obligations.ArrayEventsComplete := by
  unfold Obligations.ArrayEventsComplete
  refine ⟨?webLineArrival, ?lineAnalysed, ?classifyDone, ?recordWritten, ?clusterGate, ?clusterHang, ?coalescingIntervalEnd⟩
  case webLineArrival =>
    intro tRow k verify sRow s h
    refine ⟨fun h1 => ?_, fun h2 => ?_⟩
    · exact becomes_within h rfl (if_pos h1)
    · dsimp only
      split
      next h3 => exact becomes_within h rfl (by simp only [webLineArrival, if_neg h2, h3])
      next l rest h4 => exact becomes_ite (becomes_within h rfl (by simp only [webLineArrival, if_neg h2, h4]))
  case lineAnalysed => exact fun tRow k verify p sRow u h => becomes_ite (becomes_within h rfl rfl)
  case classifyDone =>
    intro tRow k poison sRow u h s
    have act {e : State} (he : classifyDone k poison s = e) : becomes (.classifyDone tRow k poison) tRow sRow e := becomes_within h rfl he
    clear_value s
    split
    next h1 => exact act (by simp only [classifyDone, h1])
    next f h2 =>
      refine ⟨fun h3 => ?_, fun h4 => ?_⟩
      · exact act (by simp only [classifyDone, h2, if_pos h3])
      · dsimp only
        split
        next m t h5 h6 => exact act (by simp only [classifyDone, h2, if_neg h4, h5, h6] <;> rfl)
        next => exact act (by simp only [classifyDone, h2, if_neg h4])
  case recordWritten =>
    intro tRow sRow s h
    refine ⟨fun h1 => ?_, fun p h2 => ?_⟩
    · exact becomes_within h rfl (by simp only [recordWritten, h1])
    · exact becomes_within h rfl (by simp only [recordWritten, h2])
  case clusterGate | clusterHang => exact fun tRow k sRow s h => becomes_ite (becomes_within h rfl rfl)
  case coalescingIntervalEnd =>
    intro tRow link q sRow s h
    refine fun sid x m h1 h2 h3 h4 => becomes_within h rfl ?_
    dsimp only [coalesceEnd]
    split
    next hn => exact nomatch hn.symm.trans h1
    next hs =>
      cases hs.symm.trans h1
      simp only [h2, if_pos (And.intro h3 h4)]

end Sys2Proof

namespace Sys2Proof

open Machine

/-! ## Booting and the stores -/

/-- The end of the boot: a configuration that could not be loaded or committed is told to the hosts with its status (R615). -/
def bootLoaded (r : Option Nat × State) : State :=
  match r.1 with
  | some st => fwNotify 3 0 st r.2.nvs.runVer r.2
  | none => r.2

theorem bootLoaded_some {r : Option Nat × State} {st : Nat} (h : r.1 = some st) : bootLoaded r = fwNotify 3 0 st r.2.nvs.runVer r.2 := by
  simp only [bootLoaded, h]

theorem bootLoaded_none {r : Option Nat × State} (h : r.1 = none) : bootLoaded r = r.2 := by
  simp only [bootLoaded, h]

/-- Settles O48: the row's effect, by how far the boot and the stores have come. -/
theorem bootAndStoreEventsComplete : Obligations.BootAndStoreEventsComplete := by
  unfold Obligations.BootAndStoreEventsComplete
  refine ⟨?bootRomStart, ?dramReady, ?bootComplete, ?trialConfirm, ?confirmationWindowEnd, ?recoveryReset, ?nvsWriteComplete, ?efusePulse,
    ?pcieLinkTrained, ?flashReady⟩
  case bootRomStart =>
    intro tRow flash factoryOk copyOk refclk sRow s h
    refine ⟨fun r h1 => ⟨fun h2 => ?_, fun h3 => ⟨fun h4 => ?_, fun mib h5 => ⟨fun h6 => ?_, fun h7 => ⟨fun h8 => ?_, fun k h9 => ?_⟩⟩⟩⟩, fun h10 => ?_⟩
    · exact becomes_row h rfl (by simp only [bootRomStart, h1, if_pos h2])
    · exact becomes_row h rfl (by simp only [bootRomStart, h1, if_neg (not_bnot_of_true h3), h4])
    · exact becomes_row h rfl (by simp only [bootRomStart, h1, if_neg (not_bnot_of_true h3), h5, if_pos h6])
    · exact becomes_row h rfl (by simp only [bootRomStart, h1, if_neg (not_bnot_of_true h3), h5, if_neg h7, h8])
    · exact becomes_row h rfl (by simp only [bootRomStart, h1, if_neg (not_bnot_of_true h3), h5, if_neg h7, h9])
    · exact becomes_row h rfl (by simp only [bootRomStart, h10])
  case dramReady =>
    exact fun tRow fs sRow s h => ⟨fun h1 => becomes_fast h rfl (if_pos h1), fun h2 => becomes_ite (becomes_fast h rfl (if_neg h2))⟩
  case bootComplete =>
    intro tRow crcOk sRow s h
    refine ⟨fun h1 => ?_, fun h2 => ⟨fun h3 => ?_, fun h4 => ⟨fun st h5 => ?_, fun h6 => ?_⟩⟩⟩
    · exact becomes_fast h rfl (if_pos h1)
    · exact becomes_fast h rfl ((if_neg h2).trans (if_pos h3))
    · exact becomes_fast h rfl ((if_neg h2).trans ((if_neg (not_bnot_of_true h4)).trans (bootLoaded_some h5)))
    · exact becomes_fast h rfl ((if_neg h2).trans ((if_neg (not_bnot_of_true h4)).trans (bootLoaded_none h6)))
  case trialConfirm => exact fun tRow perst mgmt sRow s h => becomes_ite (becomes_fast h rfl rfl)
  case confirmationWindowEnd => exact fun tRow sRow s h => becomes_ite (becomes_fast h rfl rfl)
  case recoveryReset =>
    intro tRow sRow s h
    refine ⟨fun t h1 => ?_, fun h2 => ?_⟩
    · exact becomes_ite (becomes_fast h rfl (by simp only [recoveryReset, h1]))
    · exact becomes_fast h rfl (by simp only [recoveryReset, h2])
  case nvsWriteComplete => exact fun tRow ok second sRow s h => becomes_fast h rfl rfl
  case efusePulse =>
    intro tRow ok sRow s h
    refine ⟨fun h1 => ?_, fun f h2 => ⟨fun h3 => ?_, fun h4 => ?_⟩⟩
    · exact becomes_fast h rfl (by simp only [efusePulse, h1])
    · exact becomes_fast h rfl (by simp only [efusePulse, h2, if_pos h3])
    · split
      next h5 => exact becomes_fast h rfl (by simp only [efusePulse, h2, if_neg h4, h5])
      next b rest h6 => exact becomes_fast h rfl (by simp only [efusePulse, h2, if_neg h4, h6])
  case pcieLinkTrained => exact fun tRow l sRow s h => becomes_ite (becomes_fast h rfl rfl)
  case flashReady =>
    intro tRow ok sRow s h
    split
    next h1 => exact becomes_fast h rfl (by simp only [flashReady, h1])
    next op h2 => exact becomes_bnot (becomes_fast h rfl (by simp only [flashReady, h2]))

end Sys2Proof

namespace Sys2Proof

open Machine

/-! ## Marking heads -/

/-- Settles O49: the row's effect, by the head's configuration and what it holds. -/
theorem firingEventsComplete : Obligations.FiringEventsComplete := by
  unfold Obligations.FiringEventsComplete
  refine ⟨?markDecision, ?fireInstant, ?preheatStart, ?markFetchDone, ?ldackChange, ?revreqRelease, ?stopTimeout, ?slowreqRelease,
    ?headTempRead, ?enSettleEnd, ?serviceFireTick, ?mainPulseEnd⟩
  case markDecision =>
    intro tRow sRow s h
    split
    next h1 => exact becomes_within h rfl (by simp only [markDecision, h1])
    next d r h2 => exact becomes_within h rfl (by simp only [markDecision, h2])
  case fireInstant =>
    intro tRow n j fwd sRow s h
    refine ⟨fun h1 => becomes_within h rfl (by simp only [fireInstant, h1]), fun c h1 => ?_⟩
    have k : becomes (.fireInstant tRow n j fwd) tRow sRow (fireInstant n j fwd s) := becomes_within h rfl rfl
    simp only [fireInstant, h1] at k
    cases hr : (mhead s n).jr <;> simp only [hr] at k ⊢
    all_goals
      exact becomes_branch k id fun k => becomes_branch k id fun k => becomes_branch_bnot k id fun k => becomes_branch k becomes_ite id
  case preheatStart => exact fun tRow h j sRow s h => becomes_ite (becomes_within h rfl rfl)
  case markFetchDone => exact fun tRow h count poison sRow u h => becomes_ite (becomes_within h rfl rfl)
  case ldackChange => exact fun tRow level sRow s h => becomes_ite (becomes_within h rfl rfl)
  case revreqRelease | stopTimeout => exact fun tRow sRow s h => becomes_ite (becomes_within h rfl rfl)
  case slowreqRelease =>
    intro tRow sRow s h
    refine ⟨fun t h1 => ?_, fun h2 => ?_⟩
    · exact becomes_ite (becomes_within h rfl (by simp only [slowreqRelease, h1]))
    · exact becomes_within h rfl (by simp only [slowreqRelease, h2])
  case headTempRead =>
    intro tRow h ok word sRow s h
    refine ⟨fun h1 => ?_, fun h2 => ⟨fun h3 => ?_, fun h4 => ⟨fun h5 => ?_, fun h6 => ?_⟩⟩⟩
    · exact becomes_within h rfl (if_pos h1)
    · exact becomes_ite (becomes_within h rfl ((if_neg h2).trans (if_pos h3)))
    · exact becomes_within h rfl ((if_neg h2).trans ((if_neg h4).trans (if_pos h5)))
    · exact becomes_ite (becomes_within h rfl ((if_neg h2).trans ((if_neg h4).trans (if_neg h6))))
  case enSettleEnd => exact fun tRow h sRow s h => becomes_within h rfl rfl
  case serviceFireTick =>
    intro tRow h sRow s h
    dsimp only
    split
    next v c h1 h2 => exact becomes_ite (becomes_within h rfl (by simp only [serviceFireTick, h1, h2]))
    next => exact becomes_within h rfl (by simp only [serviceFireTick])
  case mainPulseEnd =>
    intro tRow h sRow s h
    split
    next c t h1 h2 => exact becomes_ite (becomes_within h rfl (by simp only [mainPulseEnd, h1, h2]))
    next => exact becomes_within h rfl (by simp only [mainPulseEnd])

end Sys2Proof

namespace Sys2Proof

open Machine

/-! ## Lapses -/

/-- Settles O50: the row's effect, by whether the time has come. -/
theorem lapseEventsComplete : Obligations.LapseEventsComplete := by
  unfold Obligations.LapseEventsComplete
  refine ⟨?sequenceHoldTimeout, ?sessionIdleTimeout, ?leaseEnd, ?sessionOpenKeepEnd, ?applyAtDue, ?drainComplete, ?drainLimit⟩
  case sequenceHoldTimeout | sessionIdleTimeout | sessionOpenKeepEnd | applyAtDue => exact fun tRow sRow s h => becomes_fast h rfl rfl
  case leaseEnd | drainComplete => exact fun tRow sRow s h => becomes_ite (becomes_fast h rfl rfl)
  case drainLimit =>
    intro tRow sRow s h
    refine ⟨fun w1 t h1 => ?_, fun h2 => ?_⟩
    · exact becomes_ite (becomes_fast h rfl (by simp only [drainLimit, h1]))
    · exact becomes_fast h rfl (by simp only [drainLimit, h2])

end Sys2Proof

namespace Sys2Proof

open Machine

/-! ### A packet of a camera link -/

theorem packetIn_of_deaf {ty : Nat} {f : Pkt → State → State} {k : Pkt} {s : State} (h : (! takes s k.port) = true) : packetIn ty f k s = s := if_pos h

theorem packetIn_of_received {ty : Nat} {f : Pkt → State → State} {k rx : Pkt} {s : State} (ht : takes s k.port = true)
    (hr : received (port s k.port) ty k = some rx) : packetIn ty f k s = f rx (wireCounts ty k s) := by
  simp only [packetIn, if_neg (not_bnot_of_true ht), hr]

theorem packetIn_of_lost {ty : Nat} {f : Pkt → State → State} {k : Pkt} {s : State} (ht : takes s k.port = true)
    (hr : received (port s k.port) ty k = none) : packetIn ty f k s = wireCounts ty k s := by
  simp only [packetIn, if_neg (not_bnot_of_true ht), hr]

/-- Settles O51: the row's effect, by the packet as received and by what the port waits for. -/
theorem cameraLinkEventsComplete : Obligations.CameraLinkEventsComplete := by
  unfold Obligations.CameraLinkEventsComplete
  refine ⟨?line, ?frameStart, ?frameEnd, ?metadata, ?regEcho, ?echo, ?laneAck, ?feCaptureTimeout, ?portUp, ?bringupTimeout, ?linkDown,
    ?bringupRetry, ?regEchoTimeout, ?echoTimeout, ?timeMessageDue, ?qualityUpdate, ?recalPeriod, ?calCandidateReady, ?coefCommit,
    ?coefRevertCheck, ?provisionalRemeasure, ?eyeScanDone, ?laneStandbyTime, ?laneDormantTime⟩
  case line =>
    intro tRow k sRow s h
    refine ⟨fun h1 => becomes_within h rfl (packetIn_of_deaf h1), fun h1 => ⟨fun rx h2 => ?_, fun h2 => becomes_within h rfl (packetIn_of_lost h1 h2)⟩⟩
    have act {e : State} (he : lineRow rx (wireCounts 1 k s) = e) : becomes (.line tRow k) tRow sRow e :=
      becomes_within h rfl ((packetIn_of_received h1 h2).trans he)
    dsimp only
    exact ⟨fun h3 => act (if_pos h3), fun h3 => ⟨fun h4 => act ((if_neg (not_not.2 h3)).trans (by simp only [h4])), fun c h4 =>
      ⟨fun h5 => act ((if_neg (not_not.2 h3)).trans (by simp only [h4, if_pos h5])),
        fun h5 => act ((if_neg (not_not.2 h3)).trans (by simp only [h4, if_neg h5]))⟩⟩⟩
  case frameStart =>
    intro tRow k sRow s h
    refine ⟨fun h1 => becomes_within h rfl (packetIn_of_deaf h1), fun h1 => ⟨fun rx h2 => ?_, fun h2 => becomes_within h rfl (packetIn_of_lost h1 h2)⟩⟩
    have act {e : State} (he : frameRow rx (wireCounts 2 k s) = e) : becomes (.frameStart tRow k) tRow sRow e :=
      becomes_within h rfl ((packetIn_of_received h1 h2).trans he)
    exact ⟨fun h3 => act (if_pos h3), fun h3 => ⟨fun h4 => act ((if_neg h3).trans (if_pos h4)), fun h4 =>
      ⟨fun h5 => act ((if_neg h3).trans ((if_neg (not_isNone_of_isSome h4)).trans (if_pos h5))),
        fun h5 => act ((if_neg h3).trans ((if_neg (not_isNone_of_isSome h4)).trans (if_neg h5)))⟩⟩⟩
  case frameEnd =>
    intro tRow k sRow s h
    refine ⟨fun h1 => becomes_within h rfl (packetIn_of_deaf h1), fun h1 => ⟨fun rx h2 => ?_, fun h2 => becomes_within h rfl (packetIn_of_lost h1 h2)⟩⟩
    have act {e : State} (he : frameEndIn rx (wireCounts 3 k s) = e) : becomes (.frameEnd tRow k) tRow sRow e :=
      becomes_within h rfl ((packetIn_of_received h1 h2).trans he)
    exact ⟨fun h3 => act (if_pos h3), fun h3 =>
      ⟨fun h4 => act ((if_neg h3).trans (if_pos h4)), fun h4 => act ((if_neg h3).trans (if_neg h4))⟩⟩
  case metadata =>
    intro tRow k sRow s h
    refine ⟨fun h1 => becomes_within h rfl (packetIn_of_deaf h1), fun h1 => ⟨fun rx h2 => ?_, fun h2 => becomes_within h rfl (packetIn_of_lost h1 h2)⟩⟩
    have act {e : State} (he : metadataIn rx (wireCounts 4 k s) = e) : becomes (.metadata tRow k) tRow sRow e :=
      becomes_within h rfl ((packetIn_of_received h1 h2).trans he)
    exact ⟨fun h3 => act (if_pos h3), fun h3 => act (if_neg h3)⟩
  case regEcho =>
    intro tRow k sRow s h
    refine ⟨fun h1 => becomes_within h rfl (packetIn_of_deaf h1), fun h1 => ⟨fun rx h2 => ?_, fun h2 => becomes_within h rfl (packetIn_of_lost h1 h2)⟩⟩
    have act {e : State} (he : regEcho rx (wireCounts 5 k s) = e) : becomes (.regEcho tRow k) tRow sRow e :=
      becomes_within h rfl ((packetIn_of_received h1 h2).trans he)
    refine becomes_branch (act rfl) id fun k => ⟨fun h3 => ?_, fun a h3 => ?_⟩ <;> simp only [h3] at k
    · exact k
    · refine becomes_branch_not k id fun k => ⟨fun got h4 => ?_, fun h4 => ?_⟩ <;> simp only [h4] at k
      · exact k
      · exact becomes_ite k
  case echo =>
    intro tRow n tag turn rtt crc sRow s h
    refine ⟨fun h1 => ?_, fun h1 => becomes_within h rfl (if_neg h1)⟩
    have k : becomes (.echo tRow n tag turn ⟨rtt, crc⟩) tRow sRow (echoIn n tag turn rtt s) := becomes_within h rfl (if_pos h1)
    unfold echoIn at k
    refine ⟨fun h2 => ?_, fun e h2 => ?_⟩ <;> simp only [h2] at k
    · exact k
    · exact becomes_branch k id becomes_ite
  case laneAck =>
    exact fun tRow n state rate fec lanes crc sRow s h => ⟨fun h1 => becomes_ite (becomes_within h rfl (if_pos h1)), fun h2 => becomes_within h rfl (if_neg h2)⟩
  case feCaptureTimeout => exact fun tRow stream sRow s h => becomes_within h rfl rfl
  case portUp =>
    intro tRow n b sRow s h
    have k : becomes (.portUp tRow n b) tRow sRow (portUp n b s) := becomes_within h rfl rfl
    unfold portUp at k
    split
    next _ h1 =>
      simp only [h1] at k
      exact k
    next h1 _ =>
      simp only [h1] at k
      exact k
    next why t0 found h1 h2 =>
      simp only [h1, h2] at k
      refine becomes_branch k id fun k => becomes_branch k id fun k => ?_
      cases why with
      | probe | arm => exact becomes_ite k
      | retry | reset => exact becomes_branch_bnot k id becomes_ite
  case bringupTimeout =>
    intro tRow n skew sRow s h
    refine ⟨fun h1 => ?_, fun why t0 h2 => ?_⟩
    · exact becomes_within h rfl (by simp only [bringupTimeout, h1])
    · exact becomes_ite (becomes_within h rfl (by simp only [bringupTimeout, h2]))
  case linkDown =>
    exact fun tRow n clock heard sRow s h => ⟨fun h1 => becomes_within h rfl (if_pos h1), fun h2 => becomes_ite (becomes_within h rfl (if_neg h2))⟩
  case bringupRetry | timeMessageDue => exact fun tRow n sRow s h => becomes_ite (becomes_within h rfl rfl)
  case regEchoTimeout =>
    intro tRow n sRow s h
    refine ⟨fun a h1 => ⟨fun h2 => ?_, fun h3 => ⟨fun h4 => ?_, fun h5 => ?_⟩⟩, fun h6 => ?_⟩
    · exact becomes_within h rfl (by simp only [regEchoTimeout, h1, if_pos h2])
    · exact becomes_within h rfl (by simp only [regEchoTimeout, h1, if_neg h3, if_pos h4])
    · exact becomes_within h rfl (by simp only [regEchoTimeout, h1, if_neg h3, if_neg (not_isSome_of_isNone h5)])
    · exact becomes_within h rfl (by simp only [regEchoTimeout, h6])
  case echoTimeout =>
    intro tRow n sRow s h
    refine ⟨fun e h1 => ?_, fun h2 => ?_⟩
    · exact becomes_ite (becomes_within h rfl (by simp only [echoTimeout, h1]))
    · exact becomes_within h rfl (by simp only [echoTimeout, h2])
  case qualityUpdate => exact fun tRow n q sRow s h => becomes_ite (becomes_within h rfl rfl)
  case recalPeriod => exact fun tRow n lane sRow s h => becomes_ite (becomes_within h rfl rfl)
  case calCandidateReady =>
    intro tRow n mseq pred coefs sRow s h
    refine ⟨fun h1 => ?_, fun r h2 => ?_⟩
    · exact becomes_within h rfl (by simp only [calCandidate, h1])
    · exact becomes_branch_not (becomes_within h rfl (by simp only [calCandidate, h2])) id fun k => becomes_branch k id becomes_ite
  case coefCommit => exact fun tRow n corrected sRow s h => becomes_ite (becomes_within h rfl rfl)
  case coefRevertCheck =>
    intro tRow n qf sRow s h
    refine ⟨fun h1 => ?_, fun r h2 => ?_⟩
    · exact becomes_within h rfl (by simp only [coefRevertCheck, h1])
    · exact becomes_branch_not (becomes_within h rfl (by simp only [coefRevertCheck, h2])) id becomes_ite
  case provisionalRemeasure => exact fun tRow kind unit lane qf sRow s h => becomes_ite (becomes_fast h rfl rfl)
  case eyeScanDone =>
    intro tRow n points sRow s h
    refine ⟨fun h1 => ?_, fun sc h2 => ?_⟩
    · exact becomes_within h rfl (by simp only [eyeScanDone, h1])
    · exact becomes_branch_not (becomes_within h rfl (by simp only [eyeScanDone, h2])) id id
  case laneStandbyTime =>
    intro tRow n sRow s h
    refine ⟨fun lp h1 => ?_, fun h2 => ?_⟩
    · exact becomes_ite (becomes_within h rfl (by simp only [laneStandbyTime, h1]))
    · exact becomes_within h rfl (by simp only [laneStandbyTime, h2])
  case laneDormantTime =>
    intro tRow n sRow s h
    refine ⟨fun lp h1 => ?_, fun h2 => ?_⟩
    · exact becomes_ite (becomes_within h rfl (by simp only [laneDormantTime, h1]))
    · exact becomes_within h rfl (by simp only [laneDormantTime, h2])

end Sys2Proof

namespace Sys2Proof

open Machine

/-! ## Colour, video and compression -/

/-- What the colour pipeline does with the frame it completes in the primary queue, or else in the buffer (R404). -/
def frameTaken (k : Nat) (poison : Bool) (s : State) (prim buf : Option AFrame) : State :=
  let finish : AFrame → State → State := fun f s =>
    let s := setClp (fun c => { c with load := meterAdd (s.now / secPs) 10000000000 (f.w * f.h) c.load }) s
    if poison then clpNotify k 0 f.idx (publish 0x0700 (rset (clpBase + 4) 0 (bump (clpReg k 4) 1 (s.cfg.heads2.foldl (undelivered f) s))))
    else s.cfg.heads2.foldl (deliver f) (bump (clpReg k 0) 1 s)
  match prim, buf with
  | some f, _ => finish f (setClp (fun c => { c with prim := c.prim.drop 1 }) s)
  | none, some f => finish f (setClp (fun c => { c with buf := c.buf.drop 1 }) s)
  | none, none => s

/-- Settles O52: the row's effect, by the frame, slice or line that the engine holds. -/
theorem mediaEventsComplete : Obligations.MediaEventsComplete := by
  unfold Obligations.MediaEventsComplete
  refine ⟨?clpFrameDone, ?liveViewFrame, ?st2110PacketDue, ?vcuSliceDone, ?tbcLineDone⟩
  case clpFrameDone =>
    intro tRow k poison sRow u h s
    have act {e : State} (he : clpFrameDone k poison s = e) : becomes (.clpFrameDone tRow k poison) tRow sRow e := becomes_within h rfl he
    clear_value s
    dsimp only
    split
    next f _ h1 => exact act (congrArg (frameTaken k poison s · _) h1)
    next f h1 h2 => exact act (congrArg₂ (frameTaken k poison s) h1 h2)
    next h1 h2 => exact act (congrArg₂ (frameTaken k poison s) h1 h2)
  case liveViewFrame =>
    intro tRow k sRow s h
    refine ⟨fun h1 => ?_, fun l h2 => ?_⟩
    · exact becomes_within h rfl (by simp only [liveViewFrame, h1])
    · exact becomes_ite (becomes_within h rfl (by simp only [liveViewFrame, h2] <;> rfl))
  case st2110PacketDue =>
    intro tRow i sRow s h
    dsimp only
    split
    next c f h1 h2 => exact becomes_within h rfl (by simp only [st2110PacketDue, h1, h2])
    next => exact becomes_within h rfl (by simp only [st2110PacketDue])
  case vcuSliceDone =>
    intro tRow k e d poison sRow u h s
    have act {t : State} (he : vcuSliceDone k e d poison s = t) : becomes (.vcuSliceDone tRow k e d poison) tRow sRow t := becomes_within h rfl he
    clear_value s
    refine ⟨fun h1 => ?_, fun h2 => ⟨fun h3 => ?_, fun c h4 => ?_⟩⟩
    · exact act (if_pos h1)
    · exact act (by simp only [vcuSliceDone, if_neg h2, h3])
    · exact act (by simp only [vcuSliceDone, if_neg h2, h4] <;> rfl)
  case tbcLineDone =>
    intro tRow bad sRow s h
    refine ⟨fun j h1 => ?_, fun h2 => ?_⟩
    · exact becomes_ite (becomes_within h rfl (by simp only [tbcLine, h1]))
    · exact becomes_within h rfl (by simp only [tbcLine, h2])

end Sys2Proof

namespace Sys2Proof

open Machine

/-! ## DRAM and DMA -/

/-- Settles O53: the row's effect, by what the channel has in progress. -/
theorem dramAndDmaEventsComplete : Obligations.DramAndDmaEventsComplete := by
  unfold Obligations.DramAndDmaEventsComplete
  refine ⟨?pendingDelivery, ?dmaTransferDone, ?dmaRetryWait, ?descriptorComplete, ?fenceDone, ?patrolScrub, ?refreshDue, ?dimmTempRead,
    ?spdHubTimeout, ?neighbourRefresh, ?dqsDriftRead, ?retrainSlice, ?retrainComplete, ?ddrAlert⟩
  case pendingDelivery =>
    intro tRow c sRow s h
    refine ⟨fun d h1 => ?_, fun h2 => ?_⟩
    · exact becomes_ite (becomes_within h rfl (by simp only [pendingDelivery, h1]))
    · exact becomes_within h rfl (by simp only [pendingDelivery, h2])
  case dmaTransferDone => exact fun tRow c ok n data acts sRow s h => becomes_within h rfl rfl
  case dmaRetryWait =>
    intro tRow c sRow s h
    refine ⟨fun t h1 => ?_, fun h2 => ?_⟩
    · exact becomes_ite (becomes_within h rfl (by simp only [dmaRetryWait, h1]))
    · exact becomes_within h rfl (by simp only [dmaRetryWait, h2])
  case descriptorComplete =>
    intro tRow c sRow s h
    dsimp only
    split
    next p d h1 h2 => exact becomes_ite (becomes_within h rfl (by simp only [descriptorComplete, h1, h2]))
    next => exact becomes_within h rfl (by simp only [descriptorComplete])
  case fenceDone =>
    intro tRow c ok sRow s h
    dsimp only
    split
    next p d h1 h2 => exact becomes_branch (becomes_within h rfl (by simp only [fenceDone, h1, h2])) becomes_ite id
    next => exact becomes_within h rfl (by simp only [fenceDone])
  case patrolScrub => exact fun tRow es sRow s h => becomes_ite (becomes_fast h rfl rfl)
  case refreshDue | spdHubTimeout | retrainSlice => exact fun tRow c sRow s h => becomes_ite (becomes_fast h rfl rfl)
  case dimmTempRead =>
    exact fun tRow c temps sRow s h => ⟨fun h1 => becomes_fast h rfl (if_pos h1), fun h2 => becomes_ite (becomes_fast h rfl (if_neg h2))⟩
  case neighbourRefresh =>
    intro tRow c sRow s h
    split
    next place row _ r hset hnbr => exact becomes_ite (becomes_fast h rfl (by simp only [neighbourRefresh, hset, hnbr]))
    next => exact becomes_fast h rfl (by simp only [neighbourRefresh])
  case dqsDriftRead => exact fun tRow c drift sRow s h => becomes_ite (becomes_fast h rfl rfl)
  case retrainComplete => exact fun tRow c qf temp sRow s h => becomes_bnot (becomes_fast h rfl rfl)
  case ddrAlert =>
    intro tRow c addr persists sRow s h
    refine ⟨fun h1 => ?_, fun h2 => ?_⟩
    · exact becomes_fast h rfl (if_pos h1)
    · exact becomes_ite (becomes_fast h rfl (if_neg (not_bnot_of_true h2)))

end Sys2Proof

namespace Sys2Proof

open Machine

/-! ## Monitors -/

/-- How the margin guard ends: a rail without margin at its limit is a fault of class 5, and else `t` is left (R631). -/
def lostRail (s t : State) (lost : Option Nat) : State :=
  match lost with
  | some n => faultEntry 5 unitMon n s
  | none => t

section
variable {s t : State} {lost : Option Nat}

theorem lostRail_some {n : Nat} (h : lost = some n) : lostRail s t lost = faultEntry 5 unitMon n s := congrArg (lostRail s t) h

theorem lostRail_none (h : lost = none) : lostRail s t lost = t := congrArg (lostRail s t) h

end

/-- Settles O54: the row's effect, by the thresholds and timers of the monitor. -/
theorem monitorEventsComplete : Obligations.MonitorEventsComplete := by
  unfold Obligations.MonitorEventsComplete
  refine ⟨?faultHoldExpiry, ?thermalSample, ?throttleEscalate, ?throttleRestore, ?ageingMeasure, ?marginGuard, ?droopEvent, ?powerEstimate,
    ?planFormed, ?avsCommand, ?telemetryPoll, ?pmbAlert, ?sensorCrossCheck, ?thermalTrip, ?thermalTripEnd, ?diagResetAssert⟩
  case faultHoldExpiry =>
    intro tRow sRow s h
    refine ⟨fun h1 => ?_, fun h2 => ⟨fun h3 => ?_, fun h4 => ?_⟩⟩
    · exact becomes_fast h rfl (if_pos h1)
    · exact becomes_fast h rfl ((if_neg h2).trans (if_pos h3))
    · exact becomes_ite (becomes_fast h rfl ((if_neg h2).trans (if_neg h4)))
  case thermalSample => exact fun tRow temps sRow s h => becomes_fast h rfl rfl
  case throttleEscalate => exact fun tRow sRow s h => becomes_ite (becomes_fast h rfl rfl)
  case throttleRestore =>
    intro tRow sRow s h
    refine ⟨fun t h1 => ?_, fun h2 => ?_⟩
    · exact becomes_ite (becomes_fast h rfl (by simp only [throttleRestore, h1]))
    · exact becomes_fast h rfl (by simp only [throttleRestore, h2])
  case ageingMeasure =>
    exact fun tRow shifts0 sRow s h => ⟨fun h1 => becomes_fast h rfl (if_pos h1), fun h2 => becomes_ite (becomes_fast h rfl (if_neg h2))⟩
  case marginGuard =>
    intro tRow tmm sRow s h
    refine ⟨fun n h1 => ?_, fun h2 => ?_⟩
    · exact becomes_fast h rfl (lostRail_some h1)
    · exact becomes_ite (becomes_fast h rfl (lostRail_none h2))
  case droopEvent =>
    exact fun tRow r sRow s h => ⟨fun h1 => becomes_fast h rfl (if_pos h1), fun h2 => becomes_ite (becomes_fast h rfl (if_neg h2))⟩
  case powerEstimate =>
    intro tRow p sRow s h
    have k : becomes (.powerEstimate tRow p) tRow sRow (powerEstimate p s) := becomes_fast h rfl rfl
    unfold powerEstimate at k
    dsimp only [setMon_now] at k ⊢
    split
    next e h1 =>
      simp only [h1] at k
      exact k
    next h1 =>
      simp only [h1] at k
      refine ⟨fun t h2 => ?_, fun h2 => ?_⟩ <;> simp only [h2] at k ⊢
      · exact becomes_ite k
      · exact k
  case planFormed => exact fun tRow f sRow s h => becomes_bnot (becomes_fast h rfl rfl)
  case avsCommand =>
    intro tRow ok sRow s h
    split
    next h1 => exact becomes_branch_bnot (becomes_fast h rfl (by simp only [avsCommand, h1])) id becomes_ite
    next r v rest h2 =>
      exact becomes_branch (becomes_fast h rfl (by simp only [avsCommand, h2] <;> rfl)) id fun k => becomes_branch k id becomes_ite
  case telemetryPoll | pmbAlert =>
    intro tRow rs sRow s h
    refine ⟨fun h1 => ?_, fun c h2 => ?_⟩
    · exact becomes_fast h rfl (by simp only [telemetryRead, h1])
    · dsimp only
      split
      next e h3 => exact becomes_fast h rfl (by simp only [telemetryRead, h2, h3])
      next h4 => exact becomes_fast h rfl (by simp only [telemetryRead, h2, h4])
  case sensorCrossCheck => exact fun tRow sRow s h => becomes_fast h rfl rfl
  case thermalTrip | thermalTripEnd => exact fun tRow sRow s h => becomes_row h rfl rfl
  case diagResetAssert =>
    intro tRow sRow s h
    split
    next d rest h1 => exact becomes_ite (becomes_fast h rfl (by simp only [diagResetAssert, h1]))
    next h2 => exact becomes_fast h rfl (by simp only [diagResetAssert, h2])

end Sys2Proof

namespace Sys2Proof

open Machine

/-! ## Motion and time -/

/-- Settles O55: the row's effect, by the unit's configuration and its timers. -/
theorem motionAndTimeEventsComplete : Obligations.MotionAndTimeEventsComplete := by
  unfold Obligations.MotionAndTimeEventsComplete
  refine ⟨?encoderEdge, ?zEdge, ?serialSample, ?serialFrame, ?axisFaultExit, ?observerUpdate, ?motionStop, ?tick, ?exposureLatch, ?matchEv,
    ?cmpPulseEnd, ?latchInputEdge, ?ptpMessage, ?ptpTxDue, ?ppsInEdge, ?sourceLoss, ?ppsOutEdge, ?fire, ?tioCapture, ?tioPulseEnd⟩
  case encoderEdge => exact fun tRow a x y sRow s h => becomes_within h rfl rfl
  case zEdge => exact fun tRow a rising sRow s h => becomes_within h rfl rfl
  case serialSample | axisFaultExit | observerUpdate | motionStop => exact fun tRow a sRow s h => becomes_ite (becomes_within h rfl rfl)
  case serialFrame => exact fun tRow a f sRow s h => becomes_within h rfl rfl
  case tick =>
    intro tRow g n fwd sRow s h
    refine ⟨fun h1 => ?_, fun c h2 => ?_⟩
    · exact becomes_within h rfl (by simp only [tickEff, h1])
    · exact becomes_branch (becomes_within h rfl (by simp only [tickEff, h2] <;> rfl)) id fun k => becomes_branch k id becomes_ite
  case exposureLatch => exact fun tRow g sRow s h => becomes_within h rfl rfl
  case matchEv =>
    intro tRow ch k fwd sRow s h
    refine ⟨fun h1 => ?_, fun c h2 => ⟨fun h3 => ?_, fun h4 => ⟨fun h5 => ?_, fun h6 => ⟨fun h7 => ?_, fun e h8 => ?_⟩⟩⟩⟩
    · exact becomes_within h rfl (by simp only [matchEvEff, h1])
    · exact becomes_within h rfl (by simp only [matchEvEff, h2, if_pos h3])
    · exact becomes_ite (becomes_within h rfl (by simp only [matchEvEff, h2, if_neg h4, if_pos h5]))
    · exact becomes_within h rfl (by simp only [matchEvEff, h2, if_neg h4, if_neg h6, h7])
    · exact becomes_branch (becomes_within h rfl (by simp only [matchEvEff, h2, if_neg h4, if_neg h6, h8])) id becomes_ite
  case cmpPulseEnd =>
    intro tRow ch sRow s h
    refine ⟨fun t h1 => ?_, fun h2 => ?_⟩
    · exact becomes_ite (becomes_within h rfl (by simp only [cmpPulseEnd, h1]))
    · exact becomes_within h rfl (by simp only [cmpPulseEnd, h2])
  case latchInputEdge =>
    intro tRow l rising sRow s h
    refine ⟨fun c h1 => ?_, fun h2 => ?_⟩
    · exact becomes_ite (becomes_within h rfl (by simp only [latchInputEdge, h1]))
    · exact becomes_within h rfl (by simp only [latchInputEdge, h2])
  case ptpMessage =>
    intro tRow m sRow s h
    have k : becomes (.ptpMessage tRow m) tRow sRow (ptpMessage m s) := becomes_within h rfl rfl
    refine becomes_branch k id fun k => ?_
    dsimp only at k ⊢
    split
    iterate 2
      next hk =>
        simp only [hk] at k
        exact becomes_ite k
    iterate 2
      next hk =>
        simp only [hk] at k
        exact k
    next hk =>
      simp only [hk] at k
      split
      next q t3 y h3 hs =>
        simp only [h3, hs] at k
        exact becomes_ite k
      next =>
        simp only at k
        exact k
    next hk =>
      simp only [hk] at k
      exact k
    next hk =>
      simp only [hk] at k
      refine ⟨fun q t3 h3 => ?_, fun h3 => ?_⟩ <;> simp only [h3] at k
      · exact becomes_branch k id becomes_ite
      · exact k
    next hk =>
      simp only [hk] at k
      split
      next q t3 t2 t4 h3 hd =>
        simp only [h3, hd] at k
        exact becomes_ite k
      next =>
        simp only at k
        exact k
    next =>
      simp only at k
      exact k
  case ptpTxDue =>
    intro tRow kind sRow s h
    have k : becomes (.ptpTxDue tRow kind) tRow sRow (ptpTxDue kind s) := becomes_within h rfl rfl
    refine becomes_branch k id fun k => becomes_branch_bnot k id fun k => ?_
    dsimp only at k ⊢
    split
    next => exact becomes_ite k
    next => exact k
    next => exact k
    next =>
      simp only at k
      exact k
  case ppsInEdge =>
    intro tRow sRow s h
    refine ⟨fun h1 => ?_, fun h2 => ⟨fun sec h3 => ?_, fun h4 => ?_⟩⟩
    · exact becomes_within h rfl (if_pos h1)
    · exact becomes_ite (becomes_within h rfl (by simp only [ppsInEdge, if_neg h2, h3]))
    · exact becomes_branch (becomes_within h rfl (by simp only [ppsInEdge, if_neg h2, h4])) id becomes_ite
  case sourceLoss => exact fun tRow sRow s h => becomes_ite (becomes_within h rfl rfl)
  case ppsOutEdge =>
    intro tRow rise sRow s h
    refine ⟨fun h1 => ?_, fun h2 => ⟨fun h3 => ?_, fun h4 => ⟨fun t h5 => ?_, fun h6 => ?_⟩⟩⟩
    · exact becomes_within h rfl (if_pos h1)
    · exact becomes_within h rfl ((if_neg h2).trans (if_pos h3))
    · exact becomes_ite (becomes_within h rfl (by simp only [ppsOutEdge, if_neg h2, if_neg (not_bnot_of_true h4), h5]))
    · exact becomes_within h rfl (by simp only [ppsOutEdge, if_neg h2, if_neg (not_bnot_of_true h4), h6])
  case fire =>
    intro tRow k sRow s h
    refine ⟨fun x h1 => ⟨fun t h2 => ?_, fun h3 => ?_⟩, fun h4 => ?_⟩
    · exact becomes_ite (becomes_within h rfl (by simp only [ttrDue, h1, h2]))
    · exact becomes_within h rfl (by simp only [ttrDue, h1, h3])
    · exact becomes_within h rfl (by simp only [ttrDue, h4])
  case tioCapture =>
    intro tRow k rising sRow s h
    refine ⟨fun x h1 => ?_, fun h2 => ?_⟩
    · exact becomes_ite (becomes_within h rfl (by simp only [tioCapture, h1]))
    · exact becomes_within h rfl (by simp only [tioCapture, h2])
  case tioPulseEnd =>
    intro tRow k sRow s h
    refine ⟨fun x h1 => ⟨fun t h2 => ?_, fun h3 => ?_⟩, fun h4 => ?_⟩
    · exact becomes_ite (becomes_within h rfl (by simp only [tioPulseEnd, h1, h2]))
    · exact becomes_within h rfl (by simp only [tioPulseEnd, h1, h3])
    · exact becomes_within h rfl (by simp only [tioPulseEnd, h4])

end Sys2Proof

namespace Sys2Proof

open Machine

/-! ## Resets and clocks -/

/-- Settles O56: the row's effect, by the reset, the wrapper or the deferral that is held. -/
theorem resetAndClockEventsComplete : Obligations.ResetAndClockEventsComplete := by
  unfold Obligations.ResetAndClockEventsComplete
  refine ⟨?vbatPowerOn, ?mainPowerOn, ?brownout, ?backupSwitchover, ?rstN, ?watchdogExpiry, ?pcieReset, ?debugReset, ?forcedRelease,
    ?refLost, ?pllUnlock, ?clockMonitorBad, ?clockMonitorGood, ?forwardedClockLoss, ?xtalQualify, ?xtalFail, ?deferralEnd, ?resetRelease,
    ?blockReset, ?blockRelease, ?wrapperOpen, ?sleepWake⟩
  case vbatPowerOn | refLost | xtalQualify | xtalFail | sleepWake => exact fun tRow sRow s h => becomes_row h rfl rfl
  case mainPowerOn | brownout | backupSwitchover => exact fun tRow on sRow s h => becomes_row h rfl rfl
  case rstN => exact fun tRow low sRow s h => becomes_row h rfl rfl
  case watchdogExpiry => exact fun tRow sRow s h => becomes_ite (becomes_row h rfl rfl)
  case pcieReset =>
    exact fun tRow l on sRow s h => ⟨fun h1 => becomes_ite (becomes_row h rfl (if_pos h1)), fun h2 => becomes_row h rfl (if_neg h2)⟩
  case debugReset =>
    intro tRow reach wrapper keep on sRow s h
    refine ⟨fun h1 => ⟨fun h2 => ?_, fun h3 => ⟨fun x h4 => ?_, fun h5 => ?_⟩⟩, fun h6 => ?_⟩
    · exact becomes_row h rfl ((if_pos h1).trans (if_pos h2))
    · exact becomes_row h rfl (by simp only [debugReset, if_pos h1, if_neg h3, h4])
    · exact becomes_row h rfl (by simp only [debugReset, if_pos h1, if_neg h3, h5])
    · exact becomes_ite (becomes_row h rfl (if_neg h6))
  case forcedRelease =>
    intro tRow sRow s h
    refine ⟨fun r h1 => ?_, fun h2 => ?_⟩
    · exact becomes_ite (becomes_row h rfl (by simp only [forcedRelease, h1]))
    · exact becomes_ite (becomes_row h rfl (by simp only [forcedRelease, h2]))
  case pllUnlock => exact fun tRow d sRow s h => becomes_ite (becomes_row h rfl rfl)
  case clockMonitorBad | clockMonitorGood =>
    exact fun tRow d sRow s h => ⟨fun h1 => becomes_row h rfl (if_pos h1), fun h2 => becomes_ite (becomes_row h rfl (if_neg h2))⟩
  case forwardedClockLoss => exact fun tRow n sRow s h => becomes_row h rfl rfl
  case deferralEnd =>
    intro tRow sRow s h
    refine ⟨fun h1 => becomes_row h rfl (by simp only [deferralEnd, h1]), fun d h1 => ?_⟩
    have k : becomes (.deferralEnd tRow) tRow sRow (deferralEnd s) := becomes_row h rfl rfl
    simp only [deferralEnd, h1] at k
    refine becomes_branch k (fun k => becomes_branch k id fun k => becomes_branch_bnot k id fun k =>
      ⟨(becomes_ite k).1, fun hn => (becomes_ite k).2 (not_isSome_of_isNone hn)⟩) fun k => ?_
    refine ⟨fun f h2 => ?_, fun h2 => ?_⟩ <;> simp only [h2] at k
    · exact becomes_ite k
    · exact k
  case resetRelease =>
    intro tRow sRow s h
    refine ⟨fun r h1 => ?_, fun h2 => ?_⟩
    · exact becomes_ite (becomes_row h rfl (by simp only [resetRelease, h1]))
    · exact becomes_row h rfl (by simp only [resetRelease, h2])
  case blockReset => exact fun tRow w sRow s h => becomes_row h rfl rfl
  case blockRelease =>
    intro tRow w sRow s h
    refine ⟨fun x h1 => ?_, fun h2 => ?_⟩
    · exact becomes_ite (becomes_row h rfl (by simp only [blockRelease, h1]))
    · exact becomes_row h rfl (by simp only [blockRelease, h2])
  case wrapperOpen =>
    intro tRow w sRow s h
    refine ⟨fun x h1 => ?_, fun h1 => becomes_row h rfl (by simp only [wrapperOpen, h1])⟩
    have k : becomes (.wrapperOpen tRow w) tRow sRow (wrapperOpen w s) := becomes_row h rfl rfl
    simp only [wrapperOpen, h1] at k
    refine becomes_branch k id fun k => becomes_branch k (fun k => ?_) fun k => becomes_branch k becomes_ite fun k =>
      becomes_branch k id fun k => becomes_branch k id becomes_ite
    refine ⟨fun c h2 => ?_, fun h2 => ?_⟩ <;> simp only [h2] at k
    · exact becomes_ite k
    · exact k

end Sys2Proof

namespace Sys2Proof

open Machine

/-! ## Where a BAR0 write goes (R23, R27) -/

/-- A write of a link that carries register writes, to an open block, acts by its address alone. -/
theorem becomes_linked {i : Instr} {t via a v : Nat} {s u e : State} (h : linked t s u) (hx : exec i s = happen t (hostWrite via a v) s)
    (hal : a % 4 = 0) (hs : shut u a = false) (hv : v < 2 ^ 32) (he : regAct a ⟨false, via, v, v⟩ u = e) : becomes i t s e := by
  obtain ⟨ha, hr, hz⟩ := h
  refine becomes_row ha hx ?_
  have hrun : hostWrite via a v u = barWrite via a v u := by simp [hostWrite, hr, hz]
  rw [hrun, barWrite, Nat.mod_eq_of_lt hv, regWrite, if_neg (not_not.2 hal), hs, if_neg Bool.false_ne_true, he]

/-- An address of an array of registers names the element and the offset in it. -/
theorem arr_at {i x st n : Nat} (b : Nat) (hi : i < n) (hx : x < st) : arr (b + i * st + x) b st n = some (i, x) := by
  have hst : 0 < st := by omega
  have hle : (i + 1) * st ≤ n * st := Nat.mul_le_mul_right st hi
  have hin : b ≤ b + i * st + x ∧ b + i * st + x < b + st * n := by rw [Nat.mul_comm st n]; rw [Nat.succ_mul] at hle; omega
  have hsub : b + i * st + x - b = x + i * st := by omega
  rw [arr, if_pos hin, hsub, Nat.add_mul_div_right x i hst, Nat.add_mul_mod_self_right, Nat.div_eq_of_lt hx, Nat.mod_eq_of_lt hx, Nat.zero_add]

/-- An address below an array is in no element. -/
theorem arr_of_above {o b st n : Nat} (h : b + st * n ≤ o) : arr o b st n = none := if_neg (by omega)

theorem arr_at_zero {i st n : Nat} (b : Nat) (hi : i < n) (hst : 0 < st) : arr (b + i * st) b st n = some (i, 0) := arr_at b hi hst

/-! ### The writes that act, register by register -/

section
variable {link : Nat} (hl : link < 4) (v : Nat) (s : State)
include hl

theorem regAct_submitTail {pair : Nat} (hp : pair < 64) :
    regAct (devBase + 0x1100 + link * 0x1000 + pair * 8) ⟨false, link, v, v⟩ s = submitTail link pair v s := by
  have hd : (devBase + 0x1100 + link * 0x1000 + pair * 8) / 0x10000 = 0x00 := by unfold devBase; omega
  have hm : (devBase + 0x1100 + link * 0x1000 + pair * 8) % 0x10000 = 0x1000 + link * 0x1000 + (0x100 + pair * 8) := by unfold devBase; omega
  have hw := arr_at 0x1000 hl (show 0x100 + pair * 8 < 0x1000 by omega)
  have hlo : 0x1000 ≤ 0x1000 + link * 0x1000 + (0x100 + pair * 8) := by omega
  simp only [regAct, hd, hm]
  generalize 0x1000 + link * 0x1000 + (0x100 + pair * 8) = o at hw hlo
  unfold devWrite
  split
  next => omega
  next => omega
  next => simp only [hw, onLink, if_true, arr_at_zero 0x100 hp (show 0 < 8 by decide)]

theorem regAct_doneHead {pair : Nat} (hp : pair < 64) :
    regAct (devBase + 0x1104 + link * 0x1000 + pair * 8) ⟨false, link, v, v⟩ s = doneHead link pair v s := by
  have hd : (devBase + 0x1104 + link * 0x1000 + pair * 8) / 0x10000 = 0x00 := by unfold devBase; omega
  have hm : (devBase + 0x1104 + link * 0x1000 + pair * 8) % 0x10000 = 0x1000 + link * 0x1000 + (0x100 + pair * 8 + 4) := by unfold devBase; omega
  have hw := arr_at 0x1000 hl (show 0x100 + pair * 8 + 4 < 0x1000 by omega)
  have hlo : 0x1000 ≤ 0x1000 + link * 0x1000 + (0x100 + pair * 8 + 4) := by omega
  simp only [regAct, hd, hm]
  generalize 0x1000 + link * 0x1000 + (0x100 + pair * 8 + 4) = o at hw hlo
  unfold devWrite
  split
  next => omega
  next => omega
  next => simp only [hw, onLink, if_true, arr_at 0x100 hp (show 4 < 8 by decide)]

theorem regAct_adminSize (ho : s.dev.owner = none) :
    regAct (devBase + 0x1008 + link * 0x1000) ⟨false, link, v, v⟩ s = adminSize link v s := by
  have hd : (devBase + 0x1008 + link * 0x1000) / 0x10000 = 0x00 := by unfold devBase; omega
  have hm : (devBase + 0x1008 + link * 0x1000) % 0x10000 = 0x1000 + link * 0x1000 + 0x08 := by unfold devBase; omega
  have hw := arr_at 0x1000 hl (show 0x08 < 0x1000 by decide)
  have hn : arr 0x08 0x100 8 64 = none := rfl
  have ha : wrAllowed ⟨false, link, v, v⟩ s = true := by simp [wrAllowed, ho]
  have hlo : 0x1000 ≤ 0x1000 + link * 0x1000 + 0x08 := by omega
  simp only [regAct, hd, hm]
  generalize 0x1000 + link * 0x1000 + 0x08 = o at hw hlo
  unfold devWrite
  split
  next => omega
  next => omega
  next => simp only [hw, onLink, if_true, hn, ha]

theorem regAct_tmuSnapGo : regAct (tmuBase + 0x1000 + link * 0x100) ⟨false, link, 1, 1⟩ s = tmuSnapGo link s := by
  have hd : (tmuBase + 0x1000 + link * 0x100) / 0x10000 = 0x30 := by unfold tmuBase; omega
  have hm : (tmuBase + 0x1000 + link * 0x100) % 0x10000 = 0x1000 + link * 0x100 := by unfold tmuBase; omega
  simp only [regAct, hd, hm, if_neg (show ¬ 0x1000 + link * 0x100 = 4 by omega), arr_at_zero 0x1000 hl (show 0 < 0x100 by decide), onLink, if_true,
    if_pos (show bit 1 0 = true by decide)]

theorem regAct_posSnapGo : regAct (posBase + 0x1000 + link * 0x100) ⟨false, link, 1, 1⟩ s = posSnapGo link s := by
  have hd : (posBase + 0x1000 + link * 0x100) / 0x10000 = 0x40 := by unfold posBase; omega
  have hm : (posBase + 0x1000 + link * 0x100) % 0x10000 = 0x1000 + link * 0x100 := by unfold posBase; omega
  have hn : ¬ (arr (0x1000 + link * 0x100) 0x10 4 4).isSome = true := by rw [arr_of_above (by omega)]; exact Bool.false_ne_true
  simp only [regAct, hd, hm, if_neg hn, arr_at_zero 0x1000 hl (show 0 < 0x100 by decide), onLink, if_true,
    if_pos (show bit 1 0 = true by decide)]

/-- A write to a head of a per-link array reaches the head, its value cut to 24 bits. -/
theorem linkArray_head {i n : Nat} (base bits_ : Nat) (head : Nat → Nat → Nat → State → State) (hi : i < n) (hn : n ≤ 64) (hv : v < 2 ^ 24) :
    linkArray base (0x1000 + link * 0x1000 + (0x100 + i * 8)) n bits_ head ⟨false, link, v, v⟩ s = head link i v s := by
  have hx : ¬ (0x100 + i * 8 = 0 ∨ (0x100 + i * 8 = 4 ∧ bits_ = 32)) := by omega
  simp only [linkArray, arr_at 0x1000 hl (show 0x100 + i * 8 < 0x1000 by omega), onLink, if_true, if_neg hx,
    arr_at_zero 0x100 hi (show 0 < 8 by decide), Nat.mod_eq_of_lt hv]

theorem regAct_mirHead {q : Nat} (hq : q < 64) (hv : v < 2 ^ 24) :
    regAct (resBase + 0x1100 + link * 0x1000 + q * 8) ⟨false, link, v, v⟩ s = mirHeadWrite link q v s := by
  have hd : (resBase + 0x1100 + link * 0x1000 + q * 8) / 0x10000 = 0x150 := by unfold resBase; omega
  have hm : (resBase + 0x1100 + link * 0x1000 + q * 8) % 0x10000 = 0x1000 + link * 0x1000 + (0x100 + q * 8) := by unfold resBase; omega
  simp only [regAct, hd, hm]
  rw [if_neg (by omega)]
  exact linkArray_head hl v s _ _ _ hq (by decide) hv

theorem regAct_vcuHostHead {k : Nat} (hk : k < 64) (hv : v < 2 ^ 24) :
    regAct (vcuBase + 0x1100 + link * 0x1000 + k * 8) ⟨false, link, v, v⟩ s = vcuHostHead link k v s := by
  have hd : (vcuBase + 0x1100 + link * 0x1000 + k * 8) / 0x10000 = 0xE0 := by unfold vcuBase; omega
  have hm : (vcuBase + 0x1100 + link * 0x1000 + k * 8) % 0x10000 = 0x1000 + link * 0x1000 + (0x100 + k * 8) := by unfold vcuBase; omega
  simp only [regAct, hd, hm]
  rw [if_neg (by omega), if_neg (by omega)]
  exact linkArray_head hl v s _ _ _ hk (by decide) hv

theorem regAct_tbcHostHead {k : Nat} (hk : k < 4) (hv : v < 2 ^ 24) :
    regAct (tbcBase + 0x1100 + link * 0x1000 + k * 8) ⟨false, link, v, v⟩ s = tbcHostHead link k v s := by
  have hd : (tbcBase + 0x1100 + link * 0x1000 + k * 8) / 0x10000 = 0xF0 := by unfold tbcBase; omega
  have hm : (tbcBase + 0x1100 + link * 0x1000 + k * 8) % 0x10000 = 0x1000 + link * 0x1000 + (0x100 + k * 8) := by unfold tbcBase; omega
  simp only [regAct, hd, hm]
  rw [if_neg (by omega), if_neg (by omega)]
  exact linkArray_head hl v s _ _ _ hk (by decide) hv

end

theorem regAct_clpHostHead {k v : Nat} {r : PHostRing} {s : State} (hk : k < 4) (hv : v < 4096) (hr : tabGet s.cfg.rings k = some r) :
    regAct (clpBase + 0x400 + k * 0x10) ⟨false, r.link, v, v⟩ s = clpHostHead k v s := by
  have hd : (clpBase + 0x400 + k * 0x10) / 0x10000 = 0xC0 := by unfold clpBase; omega
  have hm : (clpBase + 0x400 + k * 0x10) % 0x10000 = 0x400 + k * 0x10 := by unfold clpBase; omega
  simp only [regAct, hd, hm, arr_at_zero 0x400 hk (show 0 < 0x10 by decide), hr, onLink, if_true, Nat.mod_eq_of_lt hv]
  rw [if_neg (by omega), if_neg (by omega)]

/-- The wrapper behind which an address stands says whether the address is shut. -/
theorem shut_of_wrap {a w : Nat} {s : State} (ha : addrWrap a = some w) (hw : wrapClosed w s = false) : shut s a = false := by
  simp only [shut, ha, hw]

theorem shut_of_none {a : Nat} {s : State} (ha : addrWrap a = none) : shut s a = false := by simp only [shut, ha]

/-! ### What the writes do -/

theorem wrAllowed_of_vacant {w : RegWr} {s : State} (h : s.dev.owner = none) : wrAllowed w s = true := by simp [wrAllowed, h]

/-- OWN_CLAIM's value, once it names the session and sets GO. -/
theorem ownClaim_value {sid : Nat} (h : sid < 2048) : (sid + 2 ^ 31) % 2048 = sid ∧ bit (sid + 2 ^ 31) 31 = true := by
  refine ⟨by omega, ?_⟩
  rw [bit, Nat.testBit_eq_decide_div_mod_eq, decide_eq_true_eq]
  omega

section
variable {sid : Nat} {s : State} (hsid : sid < 2048) (hb : s.dev.state ≠ .boot) (hs : (sess s sid).isSome = true)
include hsid hb hs

theorem ownClaimGo_of_granted {e : State} (hc : claimFor sid 2000 (rfield (devBase + 0x14) 0 11 sid s) = some e) :
    ownClaimGo (sid + 2 ^ 31) s = rfield (devBase + 0x14) 28 3 2 e := by
  obtain ⟨hv, hgo⟩ := ownClaim_value hsid
  simp only [ownClaimGo, hv]
  rw [if_neg (not_bnot_of_true hgo)]
  exact (if_neg (not_isNone_of_isSome hs)).trans ((if_neg hb).trans (by rw [hc]))

theorem ownClaimGo_of_refused (hc : claimFor sid 2000 (rfield (devBase + 0x14) 0 11 sid s) = none) :
    ownClaimGo (sid + 2 ^ 31) s = rfield (devBase + 0x14) 28 3 3 (rfield (devBase + 0x14) 0 11 sid s) := by
  obtain ⟨hv, hgo⟩ := ownClaim_value hsid
  simp only [ownClaimGo, hv]
  rw [if_neg (not_bnot_of_true hgo)]
  exact (if_neg (not_isNone_of_isSome hs)).trans ((if_neg hb).trans (by rw [hc]))

end

theorem regAct_ownClaim (link v : Nat) (s : State) :
    regAct (devBase + 0x14) ⟨false, link, v, v⟩ s = ownClaimGo (v % 2048 + v / 2 ^ 31 % 2 * 2 ^ 31) s := by
  have hd : (devBase + 0x14) / 0x10000 = 0x00 := rfl
  have hm : (devBase + 0x14) % 0x10000 = 0x14 := rfl
  simp only [regAct, hd, hm]
  unfold devWrite
  simp only

theorem dmaStart_of_refused {c : Nat} {origin : Option Nat} {s : State} (h : (dmaStart c origin s).1 = false) : (dmaStart c origin s).2 = s := by
  revert h
  unfold dmaStart
  dsimp only
  split
  next => exact fun _ => rfl
  next => split_ifs <;> simp

/-- A ring of the admin pair that is not disabled has slots. -/
theorem ringSize_ne_zero (n : Nat) : ringSize n ≠ 0 := by
  have h := (nearest_spec (n : Int) (pow2s 16 4096) (by decide)).1
  have hpos : ∀ y ∈ pow2s 16 4096, 0 < y := by decide
  have := hpos _ h
  unfold ringSize
  omega

theorem resetRow_of_reach {reach value : Nat} (h : bits value 9 8 = reach) : resetRow reach value = hostWrite 0 (rcpBase + 0x0C) value :=
  funext fun _ => if_pos h

theorem regAct_swReset {value : Nat} {s : State} (ho : s.dev.owner = none) (hgo : bit value 31 = true) :
    regAct (rcpBase + 0x0C) ⟨false, 0, value, value⟩ s = swReset (bits value 9 8) (value % 64) (bit value 10) s :=
  (if_pos (wrAllowed_of_vacant ho)).trans (if_pos ⟨hgo, rfl⟩)

/-- Settles O57: the write reaches its register by its address, and the register's effect is the row's. -/
theorem registerWritesComplete : Obligations.RegisterWritesComplete := by
  unfold Obligations.RegisterWritesComplete
  refine ⟨?tmuSnapComplete, ?registerWrite, ?ownClaimGo, ?hqSubmitTailWrite, ?hqDoneHeadWrite, ?hqAdminSizeWrite, ?cntClear, ?fepCntClear,
    ?elxCntClear, ?mrkCntClear, ?clpCntClear, ?vcuCntClear, ?tbcCntClear, ?evrCntClear, ?dmaCntClear, ?dmcCntClear, ?rcpCntClear,
    ?monCntClear, ?nvsCntClear, ?tmuSnapGo, ?posSnapGo, ?resMirHeadWrite, ?clpHostHeadWrite, ?vcuHostHeadWrite, ?tbcHostHeadWrite,
    ?evrSwFire, ?dmaDoorbell, ?swBlockReset, ?swSystemReset, ?swChipReset⟩
  case tmuSnapComplete =>
    intro tRow link sRow s h
    exact ⟨fun h1 => becomes_within h rfl (by simp only [tmuSnapComplete, h1]), fun a h1 => becomes_within h rfl (by simp only [tmuSnapComplete, h1])⟩
  case registerWrite => exact fun t0 link addr value s0 s h hal hs hv => becomes_linked h rfl hal hs hv rfl
  case ownClaimGo =>
    intro t0 link value s0 s h hb hs
    have hsid : value % 2048 < 2048 := Nat.mod_lt _ (by decide)
    have hv : (value % 2048 + 2 ^ 31) % 2048 + (value % 2048 + 2 ^ 31) / 2 ^ 31 % 2 * 2 ^ 31 = value % 2048 + 2 ^ 31 := by omega
    have act {e : State} (he : ownClaimGo (value % 2048 + 2 ^ 31) s = e) : becomes (.ownClaimGo t0 link value) t0 s0 e :=
      becomes_linked h rfl rfl (shut_of_none rfl) (by omega) ((regAct_ownClaim link _ s).trans ((congrArg (ownClaimGo · s) hv).trans he))
    exact ⟨fun e hc => act (ownClaimGo_of_granted hsid hb hs hc), fun hc => act (ownClaimGo_of_refused hsid hb hs hc)⟩
  case hqSubmitTailWrite =>
    intro t0 link pair value s0 s h hl hp hv q hq hr
    have hd : (devBase + 0x1100 + link * 0x1000 + pair * 8) / 0x10000 = 0x00 := by unfold devBase; omega
    refine becomes_linked h rfl (by unfold devBase; omega) (shut_of_none (by simp [addrWrap, hd])) (by omega) ((regAct_submitTail hl value s hp).trans ?_)
    simp only [submitTail, hq, Nat.mod_eq_of_lt hv, if_neg (not_le.2 hr)]
  case hqDoneHeadWrite =>
    intro t0 link pair value s0 s h hl hp hv q hq hr
    have hd : (devBase + 0x1104 + link * 0x1000 + pair * 8) / 0x10000 = 0x00 := by unfold devBase; omega
    refine becomes_linked h rfl (by unfold devBase; omega) (shut_of_none (by simp [addrWrap, hd])) (by omega) ((regAct_doneHead hl value s hp).trans ?_)
    simp only [doneHead, hq, Nat.mod_eq_of_lt hv, if_neg (not_le.2 hr)]
  case hqAdminSizeWrite =>
    intro t0 link value s0 s h hl hv ho
    have hd : (devBase + 0x1008 + link * 0x1000) / 0x10000 = 0x00 := by unfold devBase; omega
    have ha : 0x1000 + link * 0x1000 + 8 = 0x1008 + link * 0x1000 ∧ 0x1000 + link * 0x1000 + 4 = 0x1004 + link * 0x1000 := by omega
    have act {e : State} (he : adminSize link value s = e) : becomes (.hqAdminSizeWrite t0 link link value) t0 s0 e :=
      becomes_linked h rfl (by unfold devBase; omega) (shut_of_none (by simp [addrWrap, hd])) (by omega) ((regAct_adminSize hl value s ho).trans he)
    simp only [adminSize, Nat.mod_eq_of_lt hv, ha.1, ha.2] at act
    refine ⟨fun h0 => act (by simp only [if_pos h0, if_true]), fun h0 => act ?_⟩
    simp only [if_neg (Nat.ne_of_gt h0), if_neg (ringSize_ne_zero value)]
  case cntClear =>
    exact fun t0 port value s0 s h hn hp hw ho hv hb => becomes_linked h rfl (by unfold cptBase; omega) ((shut_cpt s hn (by decide)).trans hw) hv
      ((regAct_cpt _ hn (by decide) hp).trans (clearIf_allowed _ (.inr ho) hb))
  case fepCntClear | mrkCntClear | clpCntClear | vcuCntClear | tbcCntClear | evrCntClear | dmaCntClear | nvsCntClear =>
    exact fun t0 value s0 s h hw ho hv hb => becomes_linked h rfl rfl (shut_of_wrap rfl hw) hv (clearIf_allowed _ (.inr ho) hb)
  case elxCntClear | dmcCntClear | rcpCntClear | monCntClear =>
    exact fun t0 value s0 s h ho hv hb => becomes_linked h rfl rfl (shut_of_none rfl) hv (clearIf_allowed _ (.inr ho) hb)
  case tmuSnapGo =>
    intro t0 link s0 s h hl hw
    have hd : (tmuBase + 0x1000 + link * 0x100) / 0x10000 = 0x30 := by unfold tmuBase; omega
    exact becomes_linked h rfl (by unfold tmuBase; omega) (shut_of_wrap (by simp only [addrWrap, hd]) hw) (by decide) (regAct_tmuSnapGo hl s)
  case posSnapGo =>
    intro t0 link s0 s h hl hw
    have hd : (posBase + 0x1000 + link * 0x100) / 0x10000 = 0x40 := by unfold posBase; omega
    exact becomes_linked h rfl (by unfold posBase; omega) (shut_of_wrap (by simp only [addrWrap, hd]) hw) (by decide) (regAct_posSnapGo hl s)
  case resMirHeadWrite =>
    intro t0 link queue value s0 s sid x m h hl hq hv hw hx hm n hlt hn
    have hd : (resBase + 0x1100 + link * 0x1000 + queue * 8) / 0x10000 = 0x150 := by unfold resBase; omega
    refine becomes_linked h rfl (by unfold resBase; omega) (shut_of_wrap (by simp only [addrWrap, hd]) hw) (by omega)
      ((regAct_mirHead hl value s hq hv).trans ?_)
    dsimp only [mirHeadWrite]
    split
    next hnone => exact nomatch hnone.symm.trans hx
    next hsome =>
      cases hsome.symm.trans hx
      simp only [hm]
      exact if_neg (by omega)
  case clpHostHeadWrite =>
    intro t0 head value s0 s r h hk hv hw hr n hlt hn
    have hd : (clpBase + 0x400 + head * 0x10) / 0x10000 = 0xC0 := by unfold clpBase; omega
    refine becomes_linked h rfl (by unfold clpBase; omega) (shut_of_wrap (by simp only [addrWrap, hd]) hw) (by omega) ((regAct_clpHostHead hk hv hr).trans ?_)
    simp only [clpHostHead, hr]
    exact if_neg (by omega)
  case vcuHostHeadWrite =>
    intro t0 ctx value s0 s c h hl hk hv hw hc size n hlt hn
    have hd : (vcuBase + 0x1100 + (vout s ctx).link * 0x1000 + ctx * 8) / 0x10000 = 0xE0 := by unfold vcuBase; omega
    refine becomes_linked h rfl (by unfold vcuBase; omega) (shut_of_wrap (by simp only [addrWrap, hd]) hw) (by omega)
      ((regAct_vcuHostHead hl value s hk hv).trans ?_)
    have hin : ¬ ((vout s ctx).link ≠ (vout s ctx).link ∨ size ≤ value ∨ (vctx s ctx).used < n) := by omega
    simp only [vcuHostHead, hc, beq_iff_eq]
    exact if_neg hin
  case tbcHostHeadWrite =>
    intro t0 head value s0 s h hl hk hv hw hm size n hlt hn
    have hd : (tbcBase + 0x1100 + (tbcHeadCfg s head).link * 0x1000 + head * 8) / 0x10000 = 0xF0 := by unfold tbcBase; omega
    refine becomes_linked h rfl (by unfold tbcBase; omega) (shut_of_wrap (by simp only [addrWrap, hd]) hw) (by omega)
      ((regAct_tbcHostHead hl value s hk hv).trans ?_)
    have hin : ¬ ((tbcHeadCfg s head).link ≠ (tbcHeadCfg s head).link ∨ size ≤ value ∨ (thead s head).used < n) := by omega
    simp only [tbcHostHead, if_pos hm]
    exact if_neg hin
  case evrSwFire =>
    exact fun t0 value s0 s h hw ho hv hb => becomes_linked h rfl rfl (shut_of_wrap rfl hw) hv ((if_pos (wrAllowed_of_vacant ho)).trans (if_pos hb))
  case dmaDoorbell =>
    intro t0 value s0 s h hw ho hv hb
    have act {e : State} (he : doorbell value s = e) : becomes (.dmaDoorbell t0 value) t0 s0 e :=
      becomes_linked h rfl rfl (shut_of_wrap rfl hw) hv ((if_pos (wrAllowed_of_vacant ho)).trans he)
    refine ⟨fun hr => act (by simp only [doorbell, if_pos hb, if_pos hr]), fun hr => act ?_⟩
    simp only [doorbell, if_pos hb, hr, dmaStart_of_refused hr, if_neg Bool.false_ne_true]
  case swBlockReset =>
    exact fun t0 value s0 s h ho hv hgo hk => becomes_linked h (congrArg (happen t0 · s0) (resetRow_of_reach hk)) rfl (shut_of_none rfl) hv
      ((regAct_swReset ho hgo).trans (by rw [hk]; rfl))
  case swSystemReset =>
    exact fun t0 value s0 s h ho hv hgo hk => becomes_linked h (congrArg (happen t0 · s0) (resetRow_of_reach hk)) rfl (shut_of_none rfl) hv
      ((regAct_swReset ho hgo).trans (by rw [hk]; rfl))
  case swChipReset =>
    exact fun t0 value s0 s h ho hv hgo hk => becomes_linked h (congrArg (happen t0 · s0) (resetRow_of_reach hk)) rfl (shut_of_none rfl) hv
      ((regAct_swReset ho hgo).trans (by rw [hk]; rfl))

end Sys2Proof
